-- ==== Sys2Proof/Word.lean ====
section
/-! DEFINITION. The word types of the Peray (R7, R8) and the two sparse containers of the state: a byte memory
and a table of numbered things. Nothing here depends on a reading of the spec beyond the widths. -/

namespace Sys2Proof

/-- One byte. -/
abbrev Byte := BitVec 8

/-- A 32-bit word: a thread register (R217), a lane (R243), an accumulator entry (R133). -/
abbrev Word := BitVec 32

/-- A 64-bit word: a scalar register (R218), an instruction (R235), a set-up register slot (R548), a counter (R33). -/
abbrev DWord := BitVec 64

/-- Numbered things, absent where unlisted: group slots, queues, objects, registers. -/
abbrev Table (α : Type) := List (Nat × α)

/-- A byte memory as address and byte pairs, addresses strictly rising. -/
abbrev Memory := List Host.Cell

end Sys2Proof
end

