-- ==== Sys2Proof/Syntax.lean ====
section
/-! DEFINITION. The commands of the block: one constructor per row of spec/opcode_table.json, in the table's order,
with the row's operands, and the operand records. A row of the thread engine carries the core's physical number p (R208),
the group slot (R207) and the 64-bit instruction word at the group's pc (R235). A row of the life of a command carries the
partition, the queue number and the entry number (R357). -/

namespace Sys2Proof

/-- Bytes that host software has written to host memory from an address on before the write that announces them
(R326 step 1, R328). -/
structure HostWrite where
  addr  : Nat
  bytes : List Byte
deriving DecidableEq, Repr

/-- A write to a set-up register (R547, R548): the agent (R368), the access width in bytes, the offset of the access
within the register's slot, and the value. -/
structure RegWrite where
  agent : Nat
  width : Nat
  at4   : Nat
  value : DWord
deriving DecidableEq, Repr

/-- What a neighbour reports at training step 3 (R406, R408): its bearing and its torus extents, each extent less one. -/
structure NeighbourReport where
  x : Nat
  y : Nat
  z : Nat
  extX : Nat
  extY : Nat
  extZ : Nat
deriving DecidableEq, Repr

/-- A packet: the header fields of R413 and the payload bytes. The end-to-end CRC is a field, checked at the destination. -/
structure Packet where
  type    : Nat
  vc      : Nat
  detour  : Bool
  dest    : Nat
  src     : Nat
  job     : Nat
  destPtn : Nat
  srcPtn  : Nat
  die     : Nat
  destCtx : Nat
  destGen : Nat
  srcCtx  : Nat
  srcGen  : Nat
  tag     : Nat
  hops    : Nat
  op      : Nat
  addr    : Nat
  lenM1   : Nat
  status  : Nat
  e2eCrc  : Word
  payload : List Byte
deriving DecidableEq, Repr

/-- A frame as it arrives (R410, R411): how many of its four codewords do not decode, how many symbols were corrected, whether
its CRC matches, its trailer fields and the packets in its slots. -/
structure Frame where
  undecoded : Nat
  corrected : Nat
  crcOk     : Bool
  seq       : Nat
  ack       : Nat
  nak       : Bool
  cvc       : Nat
  credits   : Nat
  down      : Bool
  packets   : List Packet
deriving DecidableEq, Repr

/-- What runs out of time under R425 and R426: a far-request slot of a core, a line the hold of a
core's die is fetching for it, a remote wait of a command, or a fix stream. -/
inductive TimeoutOf where
  | slot (p slot : Nat)
  | fill (p addr : Nat)
  | wait (n q e : Nat)
  | fix (n q e : Nat)
deriving DecidableEq, Repr

/-- One sample of one sense input (R501): voltage in mV and current in mA, on channels A and B. -/
structure Sample where
  vA : Nat
  iA : Nat
  vB : Nat
  iB : Nat
deriving DecidableEq, Repr

/-- The commands, one per row of the table. -/
inductive Instr where
  /-- R238. Thread instruction adding a and b in each active lane. -/
  | iadd (p slot : Nat) (w : DWord)
  /-- R238. Thread instruction subtracting b from a in each active lane. -/
  | isub (p slot : Nat) (w : DWord)
  /-- R238. Thread instruction writing the low 32 bits of a times b. -/
  | imul (p slot : Nat) (w : DWord)
  /-- R238. Thread instruction writing the high 32 bits of a times b, signed or unsigned. -/
  | imulh (p slot : Nat) (w : DWord)
  /-- R238. Thread instruction computing bitwise and. -/
  | and (p slot : Nat) (w : DWord)
  /-- R238. Thread instruction computing bitwise or. -/
  | or (p slot : Nat) (w : DWord)
  /-- R238. Thread instruction computing bitwise xor. -/
  | xor (p slot : Nat) (w : DWord)
  /-- R238. Thread instruction shifting left by b mod 32. -/
  | shl (p slot : Nat) (w : DWord)
  /-- R238. Thread instruction shifting right, logical or arithmetic, by b mod 32. -/
  | shr (p slot : Nat) (w : DWord)
  /-- R238. Thread instruction writing 1 or 0 for an integer comparison selected by SUB. -/
  | icmp (p slot : Nat) (w : DWord)
  /-- R238. Thread instruction selecting b if a is nonzero, otherwise c. -/
  | sel (p slot : Nat) (w : DWord)
  /-- R238. Thread instruction writing the signed or unsigned minimum or maximum. -/
  | iminmax (p slot : Nat) (w : DWord)
  /-- R238. Thread instruction adding two binary32 values. -/
  | fadd (p slot : Nat) (w : DWord)
  /-- R238. Thread instruction multiplying two binary32 values. -/
  | fmul (p slot : Nat) (w : DWord)
  /-- R238. Thread instruction computing a times b plus c with one rounding. -/
  | ffma (p slot : Nat) (w : DWord)
  /-- R238. Thread instruction comparing two binary32 values. -/
  | fcmp (p slot : Nat) (w : DWord)
  /-- R238. Thread instruction writing the binary32 minimum or maximum. -/
  | fminmax (p slot : Nat) (w : DWord)
  /-- R238. Thread instruction converting between integers and binary32. -/
  | fcvt (p slot : Nat) (w : DWord)
  /-- R238. Thread instruction writing the correctly rounded square root. -/
  | fsqrt (p slot : Nat) (w : DWord)
  /-- R238. Thread instruction writing the correctly rounded reciprocal. -/
  | frcp (p slot : Nat) (w : DWord)
  /-- R239. Thread instruction loading 8, 16 or 32 bits from the block's deck allocation. -/
  | ldd (p slot : Nat) (w : DWord)
  /-- R239. Thread instruction storing 8, 16 or 32 bits to the block's deck allocation. -/
  | std (p slot : Nat) (w : DWord)
  /-- R239. Thread instruction issuing a far load, plain or acquire, which may drop remote-cache lines. -/
  | ldf (p slot : Nat) (w : DWord)
  /-- R239. Thread instruction issuing a far store, plain or release. -/
  | stf (p slot : Nat) (w : DWord)
  /-- R238. Thread instruction issuing a far atomic add, min, max, swap or compare-and-swap. -/
  | atomf (p slot : Nat) (w : DWord)
  /-- R232. Thread instruction trying to acquire a lock word in each active lane, in lane order. -/
  | lockg (p slot : Nat) (w : DWord)
  /-- R233. Thread instruction releasing a lock word that the issuing lane holds. -/
  | unlockg (p slot : Nat) (w : DWord)
  /-- R224. Thread instruction branching, possibly splitting the group and pushing a pending entry. -/
  | br (p slot : Nat) (w : DWord)
  /-- R238. Thread instruction jumping all active lanes by a relative offset. -/
  | jmp (p slot : Nat) (w : DWord)
  /-- R224. Thread instruction pushing a reconvergence entry onto the divergence stack. -/
  | joinpt (p slot : Nat) (w : DWord)
  /-- R223. Thread instruction making the active lanes exit, ending the group when all lanes have exited. -/
  | exit (p slot : Nat) (w : DWord)
  /-- R226. Group-wide barrier that holds the group until every live group of its block reaches it. -/
  | barb (p slot : Nat) (w : DWord)
  /-- R238. Thread instruction that does nothing. -/
  | nop (p slot : Nat) (w : DWord)
  /-- R228. Thread instruction moving values between lanes of a group by rotate, rise, fall, mirror or pick. -/
  | shfl (p slot : Nat) (w : DWord)
  /-- R229. Thread instruction evaluating a predicate across active lanes and writing the vote result. -/
  | vote (p slot : Nat) (w : DWord)
  /-- R230. Thread instruction copying from the lowest active lane into a scalar register. -/
  | movs (p slot : Nat) (w : DWord)
  /-- R230. Thread instruction copying a scalar register into the thread registers of every active lane. -/
  | movt (p slot : Nat) (w : DWord)
  /-- R219. Thread instruction reading a special value such as lane, slot or block index. -/
  | rdsp (p slot : Nat) (w : DWord)
  /-- R238. Scalar instruction adding 64-bit values. -/
  | sadd (p slot : Nat) (w : DWord)
  /-- R238. Scalar instruction subtracting 64-bit values. -/
  | ssub (p slot : Nat) (w : DWord)
  /-- R238. Scalar instruction computing 64-bit and. -/
  | sand (p slot : Nat) (w : DWord)
  /-- R238. Scalar instruction computing 64-bit or. -/
  | sor (p slot : Nat) (w : DWord)
  /-- R238. Scalar instruction computing 64-bit xor. -/
  | sxor (p slot : Nat) (w : DWord)
  /-- R238. Scalar instruction shifting left by b mod 64. -/
  | sshl (p slot : Nat) (w : DWord)
  /-- R238. Scalar instruction shifting right by b mod 64. -/
  | sshr (p slot : Nat) (w : DWord)
  /-- R238. Scalar instruction writing IMM16 into one 16-bit quarter of a scalar register. -/
  | sli (p slot : Nat) (w : DWord)
  /-- R238. Scalar instruction moving operand b into a scalar register. -/
  | smov (p slot : Nat) (w : DWord)
  /-- R106. Matrix instruction queuing one pass of stream rows through a stationary tile. -/
  | mpass (p slot : Nat) (w : DWord)
  /-- R126. Matrix instruction queuing the dW pass and P dX passes that share one dY block. -/
  | malt (p slot : Nat) (w : DWord)
  /-- R134. Matrix instruction queuing a drain of accumulator rows to the deck, optionally clearing them. -/
  | mdrain (p slot : Nat) (w : DWord)
  /-- R134. Matrix instruction queuing a clear of accumulator entries to +0. -/
  | mzero (p slot : Nat) (w : DWord)
  /-- R141. Matrix instruction holding the group until its earlier matrix instructions complete. -/
  | msync (p slot : Nat) (w : DWord)
  /-- R254. Vector instruction loading a vector register from the deck. -/
  | vld (p slot : Nat) (w : DWord)
  /-- R254. Vector instruction storing active lanes of a vector register to the deck. -/
  | vst (p slot : Nat) (w : DWord)
  /-- R255. Vector instruction gathering lanes from clamped deck offsets. -/
  | vgath (p slot : Nat) (w : DWord)
  /-- R255. Vector instruction scattering lanes to clamped deck offsets. -/
  | vscat (p slot : Nat) (w : DWord)
  /-- R253. Vector instruction broadcasting a scalar or writing lane indices. -/
  | vbcast (p slot : Nat) (w : DWord)
  /-- R253. Vector instruction permuting lanes. -/
  | vperm (p slot : Nat) (w : DWord)
  /-- R253. Vector instruction adding lanes. -/
  | vadd (p slot : Nat) (w : DWord)
  /-- R253. Vector instruction subtracting lanes. -/
  | vsub (p slot : Nat) (w : DWord)
  /-- R253. Vector instruction multiplying lanes. -/
  | vmul (p slot : Nat) (w : DWord)
  /-- R253. Vector instruction computing a times b plus c with one rounding. -/
  | vfma (p slot : Nat) (w : DWord)
  /-- R253. Vector instruction writing lane minima or maxima. -/
  | vminmax (p slot : Nat) (w : DWord)
  /-- R253. Vector instruction writing compare results into a mask register. -/
  | vcmp (p slot : Nat) (w : DWord)
  /-- R253. Vector instruction selecting lanes under a mask register. -/
  | vsel (p slot : Nat) (w : DWord)
  /-- R253. Vector instruction dividing lanes, correctly rounded. -/
  | vdiv (p slot : Nat) (w : DWord)
  /-- R253. Vector instruction taking lane square roots, correctly rounded. -/
  | vsqrt (p slot : Nat) (w : DWord)
  /-- R253. Vector instruction performing bitwise, shift, abs or neg operations. -/
  | vbit (p slot : Nat) (w : DWord)
  /-- R256. Vector instruction operating on mask registers, including FIRSTN and moves to scalars. -/
  | vmask (p slot : Nat) (w : DWord)
  /-- R257. Vector instruction converting between linear formats and integers. -/
  | vcvt (p slot : Nat) (w : DWord)
  /-- R258. Vector instruction encoding binary32 elements into a packed L format with block scales. -/
  | vcvtl (p slot : Nat) (w : DWord)
  /-- R259. Vector instruction decoding packed L elements to binary32. -/
  | vdecl (p slot : Nat) (w : DWord)
  /-- R260. Vector instruction re-scaling L elements under new block scales. -/
  | vreblk (p slot : Nat) (w : DWord)
  /-- R96. Vector instruction seeding every lane's stochastic-rounding generator. -/
  | vseed (p slot : Nat) (w : DWord)
  /-- R264. Vector instruction entering a reduction into the reduction unit's queue. -/
  | red (p slot : Nat) (w : DWord)
  /-- R266. Vector instruction reading a reduction accumulator through the queue. -/
  | rget (p slot : Nat) (w : DWord)
  /-- R244. Vector instruction releasing the vector engine held by the block. -/
  | vown (p slot : Nat) (w : DWord)
  /-- R291. Tensor-mover instruction queuing a copy between two tensor descriptors on a channel. -/
  | tcopy (p slot : Nat) (w : DWord)
  /-- R294. Tensor-mover instruction holding the group until its earlier copies complete. -/
  | twait (p slot : Nat) (w : DWord)
  /-- R149. An array chooses the next ready head of its forward or backward tile queue and starts the pass. -/
  | takeDecision (p a : Nat)
  /-- R112. The fold unit adds a stream row's block sums into binary32 accumulator entries. -/
  | fold (p a : Nat)
  /-- R141. A pass, MALT, MDRAIN or MZERO finishes its last fold or write, releasing waiting MSYNCs and ordered instructions. -/
  | passComplete (p a : Nat)
  /-- R269. The vector engine starts the next queued instruction. -/
  | veInstructionStart (p : Nat)
  /-- R265. The reduction unit takes the next queue entry and combines it into an accumulator. -/
  | reductionTake (p : Nat)
  /-- R245. The freed vector engine passes to the earliest-waiting block once the last holder's queue has drained. -/
  | veOwnerPass (p : Nat)
  /-- R293. A tensor-mover channel takes the next queued copy, validates it and generates its requests. -/
  | copyTake (p ch : Nat)
  /-- R294. Every destination byte of a copy is written or acknowledged, releasing waiting TWAITs. -/
  | copyComplete (p ch k : Nat)
  /-- R309. A far request's read data returns or its write is acknowledged, freeing its far-request slot. -/
  | farResponse (p slot : Nat)
  /-- R214. The next block of a dispatch is started on the lowest core that can take its whole allocation. -/
  | blockPlace (n : Nat)
  /-- R223. A block whose groups have ended and whose outstanding work has completed frees its slots and deck granules. -/
  | blockEnd (p b : Nat)
  /-- R158. A waiting dispatch receives its stash granules once enough are free. -/
  | stashReservationGrant (n q e : Nat)
  /-- R352. A trump command that cannot start pre-empts the partition's normal and background work at tile boundaries. -/
  | preempt (n q e : Nat)
  /-- R352. Pre-empted work is restored and resumes once no trump command runs or waits. -/
  | preemptedWorkResume (n : Nat)
  /-- R358. A write to a registered doorbell line is forwarded to the queue manager, which reads SQ_TAIL and CQ_HEAD. -/
  | doorbellWrite (wr : List HostWrite) (line : Nat) (sqTail cqHead : Word)
  /-- R375. The queue manager reads a submission entry and increments its SIGNAL fence's PENDING. -/
  | entryRead (n q : Nat)
  /-- R376. A command's header is checked once every earlier command of its queue has started. -/
  | headerCheck (n q e : Nat)
  /-- R375. Once its waited fences are signalled, a command's body and named structures are read and checked. -/
  | bodyCheck (n q e : Nat)
  /-- R381. Command that checks a load record and copies an image into a new program object. -/
  | progLoad (n q e : Nat)
  /-- R383. Command that processes generation bindings and starts a program's blocks. -/
  | dispatch (n q e : Nat)
  /-- R386. Command that copies between two tensor descriptors. -/
  | copy (n q e : Nat)
  /-- R388. Command that writes a fill value into every in-bounds position of a view. -/
  | fill (n q e : Nat)
  /-- R389. Command that adds up to 16 source gradients into a destination. -/
  | accumulate (n q e : Nat)
  /-- R391. Command that runs one optimiser step on a weight object's shard. -/
  | update (n q e : Nat)
  /-- R392. Command that computes inverse roots of preconditioner statistics block by block. -/
  | precondRoot (n q e : Nat)
  /-- R393. Command that streams listed memory objects as a checkpoint to the partner or host memory. -/
  | fix (n q e : Nat)
  /-- R394. Command that starts only when every earlier command of its queue has retired. -/
  | barrier (n q e : Nat)
  /-- R395. Command that writes translation entries mapping a memory object. -/
  | map (n q e : Nat)
  /-- R396. Command that removes mappings in a range. -/
  | unmap (n q e : Nat)
  /-- R362. Object request creating a context with a job id. -/
  | ctxCreate (n e : Nat)
  /-- R367. Object request tearing down a context. -/
  | ctxDestroy (n e : Nat)
  /-- R362. Object request creating a work queue and registering its doorbell line. -/
  | queueCreate (n e : Nat)
  /-- R365. Object request stopping and cancelling a queue's commands and freeing it. -/
  | queueDestroy (n e : Nat)
  /-- R355. Object request resuming a stopped queue. -/
  | queueResume (n e : Nat)
  /-- R342. Object request creating a fence. -/
  | fenceCreate (n e : Nat)
  /-- R364. Object request destroying a fence. -/
  | fenceDestroy (n e : Nat)
  /-- R344. Object request clearing a fence's error flag and setting its state. -/
  | fenceReset (n e : Nat)
  /-- R338. Object request creating a memory object or weight object. -/
  | memCreate (n e : Nat)
  /-- R364. Object request destroying a memory or program object. -/
  | memDestroy (n e : Nat)
  /-- R363. Object request making an object or slot settled and logging it. -/
  | memSettle (n e : Nat)
  /-- R366. Object request revoking every queue and fence of an owner tag. -/
  | revokeOwner (n e : Nat)
  /-- R367. Engines still busy 10 ms into a teardown are reset by engine reset. -/
  | teardownTimeout (c : Nat)
  /-- R336. A torn-down context id becomes free 100 ms after teardown. -/
  | ctxIdFree (c : Nat)
  /-- R464. A command ends: object states change, its fence is updated, the mirror word and completion record are written. -/
  | commandRetire (n q e : Nat)
  /-- R176. An update's target slot's drain fence is signalled and the vector engines start writing the new generation. -/
  | slotDrained (n q e : Nat)
  /-- R195. Once all units are present and visible, the Dealer publishes generation n + 1. -/
  | publish (n q e : Nat)
  /-- R197. Peer units missing after PEER_TIMEOUT fail the update. -/
  | updatePeerTimeout (n q e : Nat)
  /-- R406. A port's ends exchange good-lane masks, bearing and extents, choose the width and check the neighbour. -/
  | trainingExchange (port : Nat) (near far : BitVec 8) (nb : NeighbourReport)
  /-- R406. A port that failed training retries every 100 ms. -/
  | trainingRetry (port : Nat)
  /-- R411. A frame is checked, acknowledged or NAKed, and its credits and packets taken. -/
  | frameReceived (port : Nat) (f : Frame)
  /-- R409. A lane losing lock starts a retrain in place. -/
  | laneLossOfLock (port lane : Nat)
  /-- R409. A retrain finishes, excluding failed lanes, and held frames are resent. -/
  | retrainComplete (port : Nat) (near far : BitVec 8)
  /-- R409. A retrain that finds no width in 20 ms takes the port down and discards its replay buffer. -/
  | retrainTimeout (port : Nat)
  /-- R423. A read request packet is checked, translated and answered at the destination. -/
  | readRequest (k : Nat)
  /-- R425. A read response packet is delivered to the waiting far-request slot, or dropped if late. -/
  | readResponse (k : Nat)
  /-- R423. A write packet is checked, translated, performed and acknowledged. -/
  | write (k : Nat)
  /-- R314. An acknowledgement packet completes a remote write. -/
  | acknowledgement (k : Nat)
  /-- R424. An atomic packet is performed at the destination and answered. -/
  | atomic (k : Nat)
  /-- R425. An atomic response packet returns the old value to the issuing slot. -/
  | atomicResponse (k : Nat)
  /-- R347. A fence notice registers a remote wait or signals a remote waiter. -/
  | fenceNotice (k : Nat)
  /-- R195. An open notice tells an update owner that a peer's slot is open for pushes. -/
  | openNotice (k : Nat)
  /-- R417. A transit package routes a packet onward in dimension order or by detour. -/
  | packetForward (k : Nat)
  /-- R426. An unacknowledged signal notice is resent every 4 ms. -/
  | fenceNoticeResend (k : Nat)
  /-- R425. A remote request without response for 4 ms faults with REMOTE_UNREACHABLE and frees its slot. -/
  | remoteTimeout (t : TimeoutOf)
  /-- R447. A memory channel finishes training and is zeroed. -/
  | channelTrained (c : Nat)
  /-- R448. A channel failing or overrunning 50 ms in training retries one rate lower. -/
  | rateStepDown (c : Nat)
  /-- R434. The controller refreshes a bank. -/
  | perBankRefresh (c bank : Nat)
  /-- R434. Every 16 ms the controller reads the device's refresh-rate status. -/
  | refreshRateCheck (c rate : Nat)
  /-- R443. The patrol scrubber reads and checks a data unit in an idle bank cycle. -/
  | patrolScrub (c unit : Nat)
  /-- R450. A frame copy completes and its map entry switches to the new frame. -/
  | frameMigrated
  /-- R449. A channel retrain completes and held requests proceed. -/
  | channelRetrainDone (c : Nat)
  /-- R454. Every 100 ms the controller reads the device's write-side corrections. -/
  | deviceCorrectionRead (c count : Nat)
  /-- R68. Write to HELM_LIMIT, checked against the class and logged. -/
  | helmLimitWrite (w : RegWrite)
  /-- R152. Write to PASS_SCHED, refused for BIAS 3, resetting streaks when accepted. -/
  | passSchedWrite (n : Nat) (w : RegWrite)
  /-- R155. Write to STASH_CFG, refused while anything runs or the region does not fit. -/
  | stashCfgWrite (n : Nat) (w : RegWrite)
  /-- R278. Write to HOLD_MODE, dropping cache lines and scrubbing hold on a change of split. -/
  | holdModeWrite (n : Nat) (w : RegWrite)
  /-- R281. Write to HOLD_OWNER, scrubbing scratch when the owner changes. -/
  | holdOwnerWrite (n : Nat) (w : RegWrite)
  /-- R431. Write to NV_BEARING, refused while a port is up, kept in non-volatile store. -/
  | nvBearingWrite (w : RegWrite)
  /-- R427. Setting DOWN drains and turns off a port; clearing it starts training. -/
  | nvPortCtlDown (port : Nat) (w : RegWrite)
  /-- R409. Writing RETRAIN retrains a port at up to MAXW. -/
  | nvPortCtlRetrain (port : Nat) (w : RegWrite)
  /-- R430. COMMIT 1 stores DIR and VALID as PKG's detour entry on every die. -/
  | nvDetourCommit (w : RegWrite)
  /-- R430. A write with COMMIT 0 loads PKG's detour entry into DIR and VALID. -/
  | nvDetourLoad (w : RegWrite)
  /-- R421. COMMIT 1 stores a peer-table entry for context CTX. -/
  | nvPeerCommit (w : RegWrite)
  /-- R421. A write with COMMIT 0 loads a context's peer-table entry into the register. -/
  | nvPeerLoad (w : RegWrite)
  /-- R450. Writing RETIRE starts migration of a compute channel's frames. -/
  | memChanCtlRetire (c : Nat) (w : RegWrite)
  /-- R449. Writing RETRAIN repeats a channel's training steps 2 and 3. -/
  | memChanCtlRetrain (c : Nat) (w : RegWrite)
  /-- R453. Writing CLEAR_RETIRED removes a channel from the retired list. -/
  | memChanCtlClearRetired (c : Nat) (w : RegWrite)
  /-- R459. Write to PTN_LAYOUT, refused while any partition is open. -/
  | ptnLayoutWrite (w : RegWrite)
  /-- R460. Setting OPEN scrubs, deals frames, reserves the save area and opens the partition. -/
  | ptnOpen (n : Nat) (w : RegWrite)
  /-- R461. Clearing OPEN scrubs and closes a partition with no contexts. -/
  | ptnClose (n : Nat) (w : RegWrite)
  /-- R471. Write to PTN_SEAL, sealing or unsealing a partition's timing. -/
  | ptnSealWrite (n : Nat) (w : RegWrite)
  /-- R482. Write to FLT_RING, after which kept package records are written into the ring. -/
  | fltRingWrite (w : RegWrite)
  /-- R492. Writing ARM arms a detector at a unit for COUNT injected reports. -/
  | fltInjectArm (w : RegWrite)
  /-- R490. Writing GO restores a context's last fix, or a remapped fix, into its objects. -/
  | fixRestoreGo (n : Nat) (w : RegWrite)
  /-- R494. Writing GO verifies and installs a firmware image for the selected target. -/
  | fwCtlGo (w : RegWrite)
  /-- R529. A new image reports running, raising its minimum SVN and moving PREFERRED. -/
  | imageRunning (target unit : Nat)
  /-- R496. An image not running within 100 ms is abandoned and the other image restarts. -/
  | imageTimeout (target : Nat)
  /-- R542. Writing OFF lowers the enables and holds the five dies in reset. -/
  | pkgPowerOff (w : RegWrite)
  /-- R542. Writing ON powers the five dies up again as a power-on. -/
  | pkgPowerOn (w : RegWrite) (straps : BitVec 22)
  /-- R554. Writing 1 to VALID clears VALID and COUNT of SETUP_ERR. -/
  | setupErrClear (w : RegWrite)
  /-- R557. A read of COUNTER_DATA returns the counter named by the agent's COUNTER_SEL, or is denied. -/
  | counterDataRead (agent width : Nat)
  /-- R560. Write to ADMINQ_CTL enabling, draining or resuming the admin queue. -/
  | adminqCtlWrite (n : Nat) (w : RegWrite)
  /-- R561. Write to FENCE_MIRROR, rewriting every mirror word when enabled or moved. -/
  | fenceMirrorWrite (n : Nat) (w : RegWrite)
  /-- R564. Write to HOST_POOL setting the host pool range. -/
  | hostPoolWrite (w : RegWrite)
  /-- R369. A read of MBX_LOCK takes a free lock or returns the holder. -/
  | mbxLockRead (agent ch : Nat)
  /-- R368. The holder writes the message pointer. -/
  | mbxMsgWrite (agent ch : Nat) (value : DWord)
  /-- R370. The destination's read returns the pointer, clears FULL and releases the lock. -/
  | mbxMsgRead (agent ch : Nat)
  /-- R368. Writing DEST posts the message and raises the destination's interrupt. -/
  | mbxPostDest (wr : List HostWrite) (agent ch : Nat) (dest : BitVec 8)
  /-- R368. Writing UNLOCK releases the lock without posting. -/
  | mbxPostUnlock (agent ch : Nat)
  /-- R552. Write to any other set-up register, judged field by field against roles and refusal rules. -/
  | registerWrite (offset : Nat) (w : RegWrite)
  /-- R525. A logbook entry is stored, letting its change take effect. -/
  | logbookEntry
  /-- R521. Meter request checking a credential chain and returning a nonce. -/
  | openSession
  /-- R521. Meter request verifying the signed nonce and opening a role session. -/
  | prove
  /-- R521. Meter request ending the agent's role session. -/
  | closeSession
  /-- R527. Meter request writing a signed attestation report. -/
  | attest
  /-- R514. Meter request registering or removing a context's record sink. -/
  | sink
  /-- R523. Meter request adding a serial to the revocation list. -/
  | revoke
  /-- R523. Meter request copying logbook entries to host memory. -/
  | readLogbook
  /-- R504. Meter request recalibrating one measuring channel. -/
  | selfRecalibrate
  /-- R517. Meter request verifying and installing a meter image. -/
  | installMeterImage
  /-- R521. A session not proved within 10 s of its nonce is not opened. -/
  | sessionProveTimeout (agent : Nat)
  /-- R501. Each channel samples voltage and current of every input and adds energy. -/
  | meterSample (samples : List Sample)
  /-- R36. A millisecond strobe calibrates each die's pace counter. -/
  | referenceStrobe (periods : List Nat)
  /-- R506. A compute die's count frame arrives and the window's energy is attributed. -/
  | countFrame (die : Nat) (intact : Bool)
  /-- R48. A 50 µs power frame reaches the helm cores, driving sprint and ceiling responses. -/
  | meterFrame
  /-- R503. Each second the measuring core compares channels A and B per rail. -/
  | channelCompare
  /-- R510. An interval ends and its signed record and sink entries are written. -/
  | intervalEnd
  /-- R504. Every 24 hours a channel starts self-recalibration. -/
  | periodicRecalibration (ch : Nat)
  /-- R504. A channel finishes self-recalibration and resumes measuring. -/
  | recalibrationDone (ch : Nat)
  /-- R60. Each hour the meter closes a wear bucket of weighted current. -/
  | wearBucket
  /-- R49. Every 250 µs each die's agent sets VCORE from the limits. -/
  | helmControlStep (die : Nat) (readings : List Nat)
  /-- R45. A regulator reports a target change settled, allowing the next rail step. -/
  | regulatorSettled (die : Nat)
  /-- R51. A die missing control steps for 2 ms holds its rails and brakes to 32/64. -/
  | helmStep (die : Nat)
  /-- R52. No frame for 1 ms caps VCORE at 0.60 V. -/
  | meterFrames
  /-- R39. No strobe for 4 ms leaves a die on its last calibration. -/
  | paceStrobe (die : Nat)
  /-- R58. A reading at 115 °C stops the die, drives THERMTRIP_N low and resets the package. -/
  | thermalTrip (die reading : Nat)
  /-- R47. A rail below range for over 1 µs triggers a die or package reset. -/
  | supplyLow (rail : Nat)
  /-- R477. A regulator reports a fault over PMBus, triggering a die or package reset. -/
  | regulatorFault (rail : Nat)
  /-- R479. A dispatch without progress for HANG_MS fires the hang watchdog. -/
  | hang (n q e : Nat)
  /-- R477. A core unit holding a request for 10 ms triggers an engine reset. -/
  | handshake (p : Nat)
  /-- R477. A queue manager holding a request for 10 ms triggers a die reset. -/
  | qmStall (n : Nat)
  /-- R477. Keeper missing its 50 ms heartbeat restarts on its other image. -/
  | keeperWatchdog
  /-- R485. Units report reset entered and the reset completes its scrub and restart. -/
  | resetEntered (k : Nat)
  /-- R485. A reset step exceeding its bound escalates to the next reset. -/
  | resetHang (k : Nat)
  /-- R483. An open error record closes after 10 ms quiet or 1 s open. -/
  | errorRecordClose (k : Nat)
  /-- R484. An interrupt held within the gap fires at the gap's end. -/
  | irqGapEnd (vector : Nat)
  /-- R23. A die joint losing its link reroutes diagonal traffic. -/
  | jointDown (j : Nat)
  /-- R477. A PCIe port reports an uncorrectable error. -/
  | pcieError (port : Nat)
  /-- R538. PORESET_N or VSTBY arriving starts the meter die and the start-up sequence. -/
  | powerOn (straps : BitVec 22)
  /-- R539. A rail is checked after its enable and the next enable is raised or the host released. -/
  | railCheck (inRange : Bool)
  /-- R540. One second after a rail failure the sequence repeats, up to three times. -/
  | railRetry
  /-- R543. Removal of VSTBY ends the interval without a record. -/
  | powerLoss
  /-- R541. Writing the length into the boot window loads and verifies the host boot image. -/
  | bootWindowLoad (image : List Byte)
  /-- R521. A restart of the host die's software or of the outside server ends that agent's role session, clears its SETUP_ROLE field, and returns any mailbox channel it holds or is the destination of to its defaults with MAILBOX_DROPPED. -/
  | hostSoftwareRestart (agent : Nat)
  /-- R541. The boot ROM finishes reading the host boot image from xSPI flash, or falls back to the other slot or the recovery image, and after the meter die verifies it releases the helm cores (start-up step 3). -/
  | hostBootImageLoaded (flash : List Byte)
deriving DecidableEq, Repr

end Sys2Proof
end

