-- ==== Sys2Proof/Decode.lean ====
section
/-! DEFINITION. The command that a word spells by the bits of spec/opcode_table.json. -/

namespace Sys2Proof

/-- The command that a word spells: none, because the table gives no row any bits. The 64-bit instruction words of the
thread engine (R235) are operands of their rows; Machine/Operands.lean reads their fields. -/
def decodeTableWord (_nbits _w : Nat) : Option Instr := none

end Sys2Proof
end

