-- ==== Sys2Proof/Config.lean ====
section
/-! DEFINITION. What the spec leaves free, as constants without a body: nothing in Lean can evaluate them, so a
statement holds for every value of them. State.fresh numbers the draws (log entry 7). -/

namespace Sys2Proof.Config

/-- The free choice number n: an index, a page, a granule, an order that the spec leaves to the Peray (R333, R563,
R158, R304), or a number the Helm's firmware chooses. It is used only modulo the number of choices the spec allows. -/
opaque choice : Nat → Nat

/-- Draw n of the meter die's noise source (R511 salt, R521 nonce). -/
opaque noise : Nat → Nat

/-- The identity key's signature over bytes (R512, R526), draw n because the PSS salt is random. The private key never
leaves the die. -/
opaque sign : List Byte → Nat → Nat

/-- The modulus of the maker root's public key (R520), held from manufacture. -/
opaque makerRoot : Nat

/-- The package's identity serial (R526). -/
opaque serial : Nat

/-- The identity certificate issued at manufacture (R526, R519), 1,152 bytes as a number. -/
opaque identityCert : Nat

/-- sign of a NaN with these binary32 bits (R191), which the spec does not state: the same for the same operand (R194). -/
opaque nanSign : Nat → Nat

/-- The bias correction of R191 where 1 − α^t is 0, for the α bits and t, which the spec does not state. -/
opaque biasAtOne : Nat → Nat → Nat

/-- ECC syndrome reported for draw n (R480; the code's matrix is not given by R438). -/
opaque syndrome : Nat → Nat

end Sys2Proof.Config
end

