-- ==== Sys2Proof/Machine/State.lean ====
section
/-! DEFINITION. The state of the package as plain data: every register, queue, buffer, store and pin that the spec
names, the Dealer's log, and the queue of waiting commands; the reasons a step can stop; and the state after reset.
Numbers that the spec only counts or compares are Nat; what it gives as bits is a bit vector. -/

namespace Sys2Proof.Machine

/-- Why a step stops. Raised only by an operand that names a thing the spec says does not exist; safe, because no
step of the device has such an operand. -/
inductive Fault where
  /-- Raised by a row whose operand names a core, slot, array, channel, port, die, partition, rail, joint, mailbox or
  agent outside the ranges of R20, R207, R332, R368, R435, R455, R476, or by DOORBELL_WRITE and MBX_POST_DEST when
  host software would have written host memory beyond its data capacity (R440). Safe. -/
  | noSuchUnit
deriving DecidableEq, Repr

/-- Why a command has no meaning. -/
inductive Refusal where
  /-- An arm of exec not written yet. Safe. -/
  | notModelled (mnemonic : String)
deriving DecidableEq, Repr

/-! ### Names of things -/

/-- A context: id and generation (R334). -/
structure CtxId where
  id  : Nat
  gen : Nat
deriving DecidableEq, Repr

/-- A command: partition, queue number and entry number (R357). -/
structure Cid where
  ptn   : Nat
  queue : Nat
  entry : Nat
deriving DecidableEq, Repr

/-- Where a far request goes: a channel offset of compute memory (R445), a host memory offset (R446), or another
package (R307). -/
inductive Place where
  | chan (c q : Nat)
  | host (a : Nat)
  | remote (pkg addr : Nat)
deriving DecidableEq, Repr

/-! ### The core -/

/-- An entry of the divergence stack (R224). -/
inductive DivEntry where
  | reconv (addr : Nat) (mask : BitVec 32)
  | pending (addr : Nat) (mask : BitVec 32)
deriving DecidableEq, Repr

/-- What holds a group (R226, R141, R294, R317). Masks name arrays or channels; a stamp is the issue order of the
holding instruction. -/
inductive Held where
  | no
  | barrier (pc : Nat)
  | msync (arrays : BitVec 4) (stamp : Nat)
  | twait (chans : BitVec 4) (stamp : Nat)
deriving DecidableEq, Repr

/-- A group slot in use (R209, R217, R218, R223, R224). tregs is keyed 32 x register + lane. -/
structure Group where
  block  : Nat
  index  : Nat
  pc     : Nat
  active : BitVec 32
  exited : BitVec 32
  stack  : List DivEntry
  tregs  : Table Word
  sregs  : Table DWord
  held   : Held
  stamp  : Nat
  barStamp : Nat
  faulted : Bool
deriving DecidableEq, Repr

/-- A block slot in use (R209, R211). -/
structure Block where
  cid    : Cid
  index  : Nat
  deckLo : Nat
  granules : Nat
  slots  : List Nat
deriving DecidableEq, Repr

/-- A queued matrix instruction with the scalar operands taken at issue (R135, R138). -/
structure MxEntry where
  stamp : Nat
  slot  : Nat
  block : Nat
  w     : DWord
  opA   : DWord
  opB   : DWord
  opC   : DWord
  opD   : DWord
  opE   : DWord
deriving DecidableEq, Repr

/-- A stream row latched by a pass: the accumulator row it folds into, 64 codes and the two block scales (R111). -/
structure StreamRow where
  out   : Nat
  codes : List Nat
  e0    : Int
  e1    : Int
deriving DecidableEq, Repr

/-- An output column of the stationary tile: its 64 codes and the two block scales (R105, R111). -/
structure Column where
  codes : List Nat
  e0    : Int
  e1    : Int
deriving DecidableEq, Repr

/-- One pass as the array runs it; a MALT runs 1 + P of them (R126). width is the row width 64P, cols the weights its weight
feeder has read; entered says that its front has passed, so that the cells hold them (R117). -/
structure SubPass where
  fmt   : Nat
  half  : Nat
  clr   : Bool
  width : Nat
  kv    : Nat
  rows  : List StreamRow
  cols  : List Column
  entered : Bool
deriving DecidableEq, Repr

/-- An entry the array has taken and not completed (R130, R141). -/
structure Taken where
  entry : MxEntry
  subs  : List SubPass
deriving DecidableEq, Repr

/-- A matrix array (R103, R117, R133, R138, R150). acc is keyed 32,768 x half + entry; shadow and active are the weights in the
cells' two registers, by output column. -/
structure MxArray where
  fwd    : List MxEntry
  bwd    : List MxEntry
  accq   : List MxEntry
  taken  : List Taken
  acc    : Table Word
  streak : Nat
  shadow : List Column
  active : List Column
deriving DecidableEq, Repr

/-- A queued vector-engine instruction with s[SS] as it was at issue (R252, R268, R269). -/
structure VeEntry where
  stamp : Nat
  slot  : Nat
  block : Nat
  w     : DWord
  sval  : DWord
deriving DecidableEq, Repr

/-- An entry of the reduction unit's queue (R264, R266). -/
inductive RuEntry where
  | red (stamp slot block : Nat) (w : DWord) (lanes : List Word) (mask : BitVec 128)
  | get (stamp slot block : Nat) (w : DWord) (mask : BitVec 128)
deriving DecidableEq, Repr

/-- A reduction accumulator (R265): the operation and mode it was started with, values and indices by lane. -/
structure RuAcc where
  op   : Nat
  mode : Nat
  live : Bool
  k    : Nat
  vals : Table Word
  idxs : Table Word
deriving DecidableEq, Repr

/-- Who holds a vector engine (R243). -/
inductive Holder where
  | nobody
  | block (b : Nat)
  | command (c : Cid)
deriving DecidableEq, Repr

/-- The vector engine's state (R243 to R246, R269). v is keyed 128 x register + lane. -/
structure Engine where
  v       : Table Word
  k       : Table (BitVec 128)
  accs    : Table RuAcc
  holder  : Holder
  last    : List (Nat × Nat)
  waiters : List Nat
  queue   : List VeEntry
  ruq     : List RuEntry
deriving DecidableEq, Repr

/-- A dimension record of a tensor descriptor (R287). -/
structure Dim where
  stride : Int
  bound  : Nat
  extent : Nat
  offset : Int
deriving DecidableEq, Repr

/-- A tensor descriptor (R287). -/
structure Tensor where
  base      : Nat
  scaleBase : Nat
  fill      : Word
  space     : Nat
  fmt       : Nat
  shape     : Nat
  ndim      : Nat
  ax0       : Nat
  ax1       : Nat
  consume   : Bool
  aliasOk   : Bool
  acc       : Bool
  nocache   : Bool
  dims      : List Dim
deriving DecidableEq, Repr

/-- A queued TCOPY (R291, R293), with its pc and the lanes that were active (R227). -/
structure CopyEntry where
  stamp : Nat
  slot  : Nat
  block : Nat
  src   : Nat
  dst   : Nat
  perm  : Nat
  reblk : Bool
  pc    : Nat
  mask  : BitVec 32
deriving DecidableEq, Repr

/-- One far request of a copy (R308): the bytes [addr, addr + len) of one aligned 256-byte block of global addresses, read
or written; old marks a read of destination bytes that the copy merges with. -/
structure Run where
  addr  : Nat
  place : Place
  len   : Nat
  write : Bool
  old   : Bool
  bytes : List Byte
deriving DecidableEq, Repr

/-- A copy in progress on a channel: whether it has gone on to its writes, and the source and old destination bytes
fetched so far, by address. Its requests stand in the core's far requests. -/
structure CopyRun where
  entry : CopyEntry
  src   : Tensor
  dst   : Tensor
  writing : Bool
  vals  : Table Byte
  olds  : Table Byte
deriving DecidableEq, Repr

/-- A tensor-mover channel (R293). -/
structure Channel where
  queue : List CopyEntry
  runs  : List CopyRun
deriving DecidableEq, Repr

/-- What a far request does when it is performed (R308, R316, R317, R232, R238). drop is what an acquire drops (R319):
nothing listed, 0 alone for every line of the context, or the first address and the number of bytes. own is the issuing
lane's own lock word (R231). A mover request names its channel and its copy by issue order; a request of a command that
runs on no block names the command, and the partition and context it is for where an open notice named them (R195). -/
inductive FarAct where
  | load (dst lane size : Nat) (sext acquire : Bool) (drop : List Nat)
  | store (size : Nat) (value : Word) (release : Bool)
  | atom (op : Nat) (b c : Word) (dst lane : Nat) (ordered : Bool)
  | lock (dst lane : Nat) (own : Word)
  | unlock (dst lane : Nat) (own : Word)
  | run (ch copy : Nat) (run : Run)
  | cmd (c : Cid) (run : Run) (dest : List (Nat × CtxId))
deriving DecidableEq, Repr

/-- A far request, waiting for or holding a far-request slot (R308, R309). addr is the global device address; pc and mask
name the instruction that issued it (R227); via is the compute die its traffic passes through on the way between two diagonal
dies (R22), set as it takes a slot. -/
structure FarReq where
  stamp : Nat
  slot  : Nat
  block : Nat
  ctx   : CtxId
  addr  : Nat
  place : Place
  act   : FarAct
  pc    : Nat
  mask  : BitVec 32
  via   : List Nat
deriving DecidableEq, Repr

/-- A 64 KiB segment present in a core's stash head (R163): the region segment, and by offset the bytes the core has written
there since the segment was last written out. The list of them is in last-write order, oldest first. -/
structure HeadSeg where
  seg   : Nat
  bytes : Table Byte
deriving DecidableEq, Repr

/-- What belongs to the work of a core and is saved and restored with it (R216, R352). chans is keyed 0 to 3, arrays
0 to 3, slots by far-request slot, granuleOwner by granule of 16 KiB. -/
structure Work where
  ctx     : List CtxId
  groups  : Table Group
  blocks  : Table Block
  deck    : Memory
  granuleOwner : Table CtxId
  arrays  : Table MxArray
  engine  : Engine
  chans   : Table Channel
  farWait : List FarReq
  slots   : Table FarReq
  head    : List HeadSeg
deriving DecidableEq, Repr

/-- A core (R207). lastCtx is the last context whose work it held; gens the generators that differ from R97's state
(by lane); portLast the stamp of what each port issued last, which
the group that issued it still bears (R240). -/
structure Core where
  work     : Work
  lastCtx  : List CtxId
  gens     : Table DWord
  epochs   : Table Nat
  counters : Table DWord
  seq      : Nat
  portLast : Table Nat
  faultNext : Nat
  running  : Bool
deriving DecidableEq, Repr

/-! ### Hold and main memory -/

/-- A remote-cache line (R282, R283). -/
structure CacheLine where
  die   : Nat
  quarter : Nat
  ptn   : Nat
  ctx   : CtxId
  addr  : Nat
  bytes : List Byte
deriving DecidableEq, Repr

/-- A line the hold is fetching for a copy (R282, R309): the core, channel and copy that wait, the line's global address, and
whether its bytes are old destination bytes. keep says that the line still goes into the cache (R285); patch holds what was
written over it since the fetch went out (R284). -/
structure Fill where
  p     : Nat
  ch    : Nat
  copy  : Nat
  ptn   : Nat
  ctx   : CtxId
  addr  : Nat
  old   : Bool
  keep  : Bool
  patch : Table Byte
deriving DecidableEq, Repr

/-- A memory channel (R447 to R450, R454): STATE and RATE of MEM_CHAN_STATUS, training step, refresh, counters. -/
structure Chan where
  state   : Nat
  rate    : Nat
  trial   : Nat
  refresh : Nat
  banks   : Table Nat
  periodFix : Table Nat
  counters : Table DWord
deriving DecidableEq, Repr

/-- A channel migration in progress (R450): partition, channel, partition frames still to move, and the writer's role,
agent and certificate serial. -/
structure Migration where
  ptn    : Nat
  chan   : Nat
  frames : List Nat
  role   : Nat
  agent  : Nat
  serial : Nat
deriving DecidableEq, Repr

/-! ### Partitions and their objects -/

/-- The state of a memory object or slot (R339). -/
inductive ObjState where
  | settled
  | inFlight
  | unsettled
deriving DecidableEq, Repr

/-- One slot: its state, running writers, whether a writer ended otherwise since it was last settled, readers (R169). -/
structure SlotState where
  st      : ObjState
  writers : Nat
  failed  : Bool
  readers : Nat
deriving DecidableEq, Repr

/-- A memory object or weight object (R338, R339, R169). bases holds the page addresses in 4 KiB units, slot by slot; gen is
its current generation; dying the order of its destroy request, 0 for none (R364). -/
structure MemObj where
  ctx   : CtxId
  big   : Bool
  host  : Bool
  pages : Nat
  bases : List Nat
  slots : List SlotState
  gen   : Nat
  updating : Bool
  dying : Nat
deriving DecidableEq, Repr

/-- A program object (R341, R380). -/
structure Prog where
  ctx        : CtxId
  image      : List Byte
  nreg       : Nat
  gpb        : Nat
  deckBytes  : Nat
  stashPeak  : Nat
  codeBytes  : Nat
  entry      : Nat
  argsVa     : Nat
  frames     : List Nat
  dying      : Nat
deriving DecidableEq, Repr

/-- A remote wait registered on a fence (R347, R413): the waiter's package, partition, context and tag, and the die
of its queue manager as its packet gives it (R420, log entry 22). -/
structure Waiter where
  pkg : Nat
  ptn : Nat
  ctx : CtxId
  tag : Nat
  die : Nat
deriving DecidableEq, Repr

/-- A remote wait registered on the drain fence of an object's slot (R170, R347). -/
structure DrainWait where
  obj    : Nat
  slot   : Nat
  waiter : Waiter
deriving DecidableEq, Repr

/-- A fence (R342). waiters lists the remote waits registered on it (R347); dying is the order of its destroy request, 0 for none
(R364); revoked says that a revocation of its owner or the teardown of its context names it (R366). -/
structure Fence where
  ctx       : CtxId
  owner     : Word
  signalled : Bool
  error     : Bool
  pending   : Nat
  waiters   : List Waiter
  dying     : Nat
  revoked   : Bool
deriving DecidableEq, Repr

/-- A completion record (R356). -/
structure Completion where
  status : Nat
  tag    : Word
  seq    : Nat
  sqHead : Word
  detail : Word
  info   : DWord
  notify : Bool
deriving DecidableEq, Repr

/-- A queue (R350, R356 to R360). records counts completion records written; dying is the order of its QUEUE_DESTROY, 0 for none
(R364, R365); slotWait says that its next entry waits for a hardware fence slot (R348); seen is the first 8 bytes of its doorbell
line as last read, or as they stood when it was registered (R358). -/
structure Queue where
  ctx      : CtxId
  cls      : Nat
  stopOnError : Bool
  vector   : Nat
  owner    : Word
  sqLog2   : Nat
  cqLog2   : Nat
  sqBase   : Nat
  cqBase   : Nat
  doorbell : Nat
  registered : Bool
  sqHead   : Word
  sqTail   : Word
  cqHead   : Word
  records  : Word
  held     : List Completion
  stopped  : Bool
  revoked  : Bool
  dying    : Nat
  slotWait : Bool
  seen     : DWord
deriving DecidableEq, Repr

/-- Where a command stands in R375: entry read; header checked and waiting; body checked; running; ended with a status;
started again after pre-emption counts as running. -/
inductive Stage where
  | read
  | waiting
  | ready
  | running
  | ended
deriving DecidableEq, Repr

/-- A command read from its queue and not yet retired (R375). seq is its order of reading, raw the 64-byte entry, args the
bytes of the structures the body check read (R374), writes the object slots it writes as object index and slot, whole
those a FILL or COPY writes every byte of (R339), sig the fence whose PENDING it counts in (R343), names the handles it
names, as partition x 2^32 + handle (R364). -/
structure Cmd where
  queue  : Nat
  entry  : Nat
  seq    : Nat
  raw    : List Byte
  stage  : Stage
  status : Nat
  detail : Word
  info   : DWord
  args   : List Byte
  writes : List (Nat × Nat)
  whole  : List (Nat × Nat)
  startSeq : Nat
  sig    : List Nat
  names  : List Nat
deriving DecidableEq, Repr

/-- A generation a dispatch is bound to (R171 to R174): object index, generation, and whether its count is released at
retirement; pin is the context pin to empty then. -/
structure Bound where
  obj     : Nat
  gen     : Nat
  release : Bool
  pin     : List Nat
deriving DecidableEq, Repr

/-- A running dispatch (R383, R214, R158). granules is its stash reservation. -/
structure Disp where
  cid    : Cid
  ctx    : CtxId
  prog   : Nat
  blocks : Nat
  next   : Nat
  ended  : Nat
  bounds : List Bound
  arg    : List Nat
  granules : List Nat
  granted : Bool
  status : Nat
  info   : DWord
deriving DecidableEq, Repr

/-- How far an update has come (R176, R195). -/
inductive UpdStage where
  | draining
  | open_
  | computed
deriving DecidableEq, Repr

/-- A peer's open notice (R195): package, partition and context, the context it was sent to, the generation, the global
addresses of its slot's data and scales. -/
structure PeerOpen where
  pkg    : Nat
  ptn    : Nat
  ctx    : CtxId
  own    : CtxId
  gen    : Nat
  data   : Nat
  scales : Nat
deriving DecidableEq, Repr

/-- A running update (R176, R195): gen is the generation it reads; units [first, last) of nu are its own; owners are its
peers as package and partition; pushed those its new bytes have been sent to; arrived the addresses, in its own context's
space, of the bytes that peers have pushed. -/
structure Upd where
  cid    : Cid
  ctx    : CtxId
  obj    : Nat
  gen    : Nat
  stage  : UpdStage
  nu     : Nat
  first  : Nat
  last   : Nat
  stepped : Nat
  owners : List (Nat × Nat)
  pushed : List (Nat × Nat)
  arrived : List Nat
  published : Bool
deriving DecidableEq, Repr

/-- An open notice sent (R195): the object whose slot is open, for which generation, and to which package and partition. -/
structure Opened where
  obj : Nat
  gen : Nat
  pkg : Nat
  ptn : Nat
deriving DecidableEq, Repr

/-- A running PRECOND_ROOT between two of its blocks, each a tile (R205): the next block, the blocks that failed and the
greatest iteration count so far. -/
structure RootJob where
  cid    : Cid
  ctx    : CtxId
  next   : Nat
  failed : Nat
  most   : Nat
deriving DecidableEq, Repr

/-- The bytes of other packages that a running COPY, FILL or ACCUMULATE reads and writes (R386 to R389): the core whose
far-request slots it uses, the bytes fetched by address, whether it has gone on to its writes, and the destination bytes
written. -/
structure Move where
  cid     : Cid
  core    : Nat
  got     : Table Byte
  writing : Bool
  bytes   : Nat
deriving DecidableEq, Repr

/-- A stash reservation (R158): the command and its granules, in the order of its stash offsets (R159). -/
structure Resv where
  cid      : Cid
  granules : List Nat
deriving DecidableEq, Repr

/-- The pre-empted work of one core (R352). -/
structure Saved where
  core : Nat
  work : Work
deriving DecidableEq, Repr

/-- A slot of a partition's fix area (R489, R491): client context, whether it holds the last fix, the stream's length. -/
structure FixSlot where
  ctx   : CtxId
  last  : Bool
  bytes : Nat
deriving DecidableEq, Repr

/-- A fix being sent to the partner (R393, R489): bytes acknowledged and of the whole stream, packets not yet acknowledged,
objects streamed. -/
structure FixRun where
  cid    : Cid
  ctx    : CtxId
  acked  : Nat
  total  : Nat
  out    : Nat
  objects : Nat
deriving DecidableEq, Repr

/-- A restore in progress from the partner (R490, R491): the context restored, where its stream begins in the partner's fix
area, the bytes read so far, the identity the stream must name, and the start of the list of new handles under REMAP. -/
structure Restore where
  ctx  : CtxId
  base : Nat
  got  : List Byte
  old  : CtxId
  list : List Nat
deriving DecidableEq, Repr

/-- A wait of a command on a fence of another package (R347, R426): which of its two waits, the fence's package, partition
and handle, the TAG of the notice that registers it. -/
structure RemoteWait where
  cid   : Cid
  which : Nat
  pkg   : Nat
  ptn   : Nat
  handle : Word
  tag   : Nat
  acked : Bool
  signalled : Bool
  error : Bool
  invalid : Bool
deriving DecidableEq, Repr

/-- A partition (R455, R456). deal holds the channels its frames were dealt to when it opened, in order, frameMap the
frames that have moved since (R444), and gone the channels retired from it (R450). save holds the frames of the save area
(R353), fenceTab the 64 KiB pages of the fence table by address in 4 KiB units (R348). -/
structure Ptn where
  ready    : Bool
  halted   : Bool
  deal     : List Nat
  gone     : List Nat
  frameMap : Table (Nat × Nat)
  save     : List Nat
  fenceTab : List Nat
  objs     : Table MemObj
  progs    : Table Prog
  queues   : Table Queue
  fences   : Table Fence
  qGens    : Table Nat
  fGens    : Table Nat
  oGens    : Table Nat
  pGens    : Table Nat
  cmds     : List Cmd
  disps    : List Disp
  updates  : List Upd
  opens    : List PeerOpen
  opened   : List Opened
  roots    : List RootJob
  moves    : List Move
  resv     : List Resv
  waitResv : List Cid
  written  : List Nat
  saved    : List Saved
  fixes    : Table FixSlot
  fixRuns  : List FixRun
  restores : List Restore
  remoteWaits : List RemoteWait
  drains   : List DrainWait
  counters : Table DWord
  draining : Bool
  lastTurn : Table Nat
deriving DecidableEq, Repr

/-- A pin of a context's pin table (R172, R175). -/
structure Pin where
  obj   : Nat
  gen   : Nat
  owner : Word
deriving DecidableEq, Repr

/-- An entry of a context's peer table (R421). -/
structure Peer where
  ptn : Nat
  ctx : Nat
  gen : Nat
deriving DecidableEq, Repr

/-- A context (R334). l3 holds 2 MiB leaf entries by VA div 2 MiB, l4 64 KiB entries by VA div 64 KiB, each the 8-byte
translation entry of R337; owners the queue owner tag that made each mapping (R366); torn is the order of the CTX_DESTROY that
tears it down (R364, R367), 0 while open; tabs says where its translation tables lie: level, the address bits that choose the
table, and its address in the partition's compute memory in 4 KiB units. -/
structure Ctx where
  gen   : Nat
  ptn   : Nat
  job   : Nat
  l3    : Table DWord
  l4    : Table DWord
  owners : Table Word
  peers : Table Peer
  pins  : Table Pin
  sink  : List Nat
  torn  : Nat
  by_   : List Cid
  tabs  : List (Nat × Nat × Nat)
deriving DecidableEq, Repr

/-! ### Links -/

/-- A frame as it goes out (R410): its trailer and the packets in its slots, in order. down says that it tells the neighbour that
the port goes down (R427). -/
structure TxFrame where
  seq     : Nat
  ack     : Nat
  nak     : Bool
  cvc     : Nat
  credits : Nat
  crc     : Word
  down    : Bool
  packets : List Packet
deriving DecidableEq, Repr

/-- A Nivan port (R406 to R412). state and width are coded as in NV_PORT_STATUS; lane0 is the lowest lane in use. naks counts the
NAKs sent for SEQ nakSeq, rxNaks those received for SEQ rxNakSeq (R409); replay holds the frames sent and not acknowledged
(R411), wire those that the last event sent or sent again; rx counts the slots in use of each channel's receive buffer, owed
those that have left it and whose credit has not gone back yet (R412). -/
structure Port where
  state    : Nat
  width    : Nat
  lane0    : Nat
  good     : BitVec 8
  neighbour : Nat
  excluded : BitVec 8
  byNak    : Bool
  txSeq    : Nat
  rxSeq    : Nat
  naks     : Nat
  nakSeq   : Nat
  rxNaks   : Nat
  rxNakSeq : Nat
  sendNak  : Bool
  replay   : List TxFrame
  wire     : List TxFrame
  credits  : Table Nat
  rx       : Table Nat
  owed     : Table Nat
  draining : Bool
  counters : Table DWord
deriving DecidableEq, Repr

/-- A packet waiting for a port (R417), with the port it was given; asked is the packet as it came to be routed and lastDim the
dimension it came in by, 3 for none, so that it can be routed anew (R418, R427). -/
structure Sent where
  port    : Nat
  packet  : Packet
  asked   : Packet
  lastDim : Nat
deriving DecidableEq, Repr

/-- A packet received, with the port it came on. -/
structure Recv where
  port   : Nat
  packet : Packet
deriving DecidableEq, Repr

/-- The links of the package. detours is keyed by package number (DIR, VALID; R419). -/
structure Links where
  ports   : Table Port
  detours : Table (Nat × Bool)
  inbox   : List Recv
  outbox  : List Sent
  notices : List Packet
  counters : Table DWord
deriving DecidableEq, Repr

/-! ### Set-up space, mailboxes, sessions -/

/-- A mailbox channel (R368). -/
structure Mbx where
  owner : Nat
  msg   : DWord
  full  : Bool
  dest  : Nat
deriving DecidableEq, Repr

/-- What an accepted, logged change does once its logbook entry is stored (R525). A sealWrite is the change of one field of an
RWS register. -/
inductive Change where
  | reg (offset : Nat) (value : DWord)
  | nothing
  | holdMode (n : Nat) (value : DWord)
  | bearing (value : DWord)
  | portDown (port : Nat) (value : DWord)
  | portRetrain (port : Nat) (value : DWord)
  | detour (value : DWord)
  | retire (c : Nat)
  | layout (value : DWord)
  | ptnOpen (n : Nat) (value : DWord)
  | ptnClose (n : Nat) (value : DWord)
  | inject (value : DWord)
  | firmware (value : DWord)
  | powerOff
  | powerOn (straps : BitVec 22)
  | settle (n obj slot : Nat)
  | sealWrite (offset hi lo value : Nat)
  | sessionOpen (agent role : Nat) (serials : List Nat)
  | sessionClose (agent : Nat)
  | revoke (serial : Nat)
  | meterImage (image : List Byte)
deriving DecidableEq, Repr

/-- A change waiting for its logbook entry (R525, R555): the entry's fields, the register it holds, the change. -/
structure Pending where
  kind   : Nat
  lr     : Bool
  role   : Nat
  agent  : Nat
  serial : Nat
  item   : DWord
  old    : DWord
  new_   : DWord
  digest : List Byte
  offset : Nat
  change : Change
  reply  : List Nat
deriving DecidableEq, Repr

/-- A role session (R521): role and the serials of its chain. -/
structure Session where
  role    : Nat
  serials : List Nat
deriving DecidableEq, Repr

/-- A session being opened (R521): the nonce, the role, the leaf key and the serials of the chain. -/
structure Opening where
  nonce   : List Byte
  role    : Nat
  modulus : Nat
  serials : List Nat
deriving DecidableEq, Repr

/-- A write that waits behind a logged one to the same register (R555), with the straps as they are sampled if it powers
the package on. -/
structure HeldWrite where
  offset : Nat
  w      : RegWrite
  straps : BitVec 22
deriving DecidableEq, Repr

/-- The set-up block: registers by offset (those at their defaults unlisted), COUNTER_SEL of each agent, the word each
agent's last read returned, the changes waiting for the logbook, and the writes waiting behind them. -/
structure Setup where
  regs     : Table DWord
  sel      : Table DWord
  reads    : Table DWord
  mbx      : Table Mbx
  waiting  : List Pending
  behind   : List HeldWrite
deriving DecidableEq, Repr

/-! ### Faults -/

/-- An error record (R480). slot is its number in the ring, none when it was lost. -/
structure ErrRec where
  slot     : List Nat
  detector : Nat
  cls      : Nat
  injected : Bool
  solo     : Bool
  closed   : Bool
  status   : Nat
  reporters : Nat
  seq      : Nat
  closeSeq : Nat
  suspect  : Nat
  reporter : Nat
  ctx      : List CtxId
  ptn      : List Nat
  paceUs   : Nat
  d0       : DWord
  d1       : DWord
  map      : DWord
deriving DecidableEq, Repr

/-- The levels of the reset ladder (R485). -/
inductive Level where
  | engine
  | partition
  | die
  | package
deriving DecidableEq, Repr

/-- A reset ordered and not completed (R485): its level and target. -/
structure Reset where
  level  : Level
  target : Nat
deriving DecidableEq, Repr

/-- Corruption armed by an injection (R492): the detector, the unit and the writes or frames left. -/
structure Armed where
  detector : Nat
  target   : Nat
  count    : Nat
deriving DecidableEq, Repr

/-- The names of what the Dealer raises (R463 and the events named throughout the spec). -/
inductive EventKind where
  | completion | fence | objectState | objectUnsettled | errorRecord | errorClosed | meterRecord | logbookEntry
  | pathChange | paceUncalibrated | paceCalibrated | helmFallback | meterFramesLost | thermalCeiling | wearLimited
  | doorbellInvalid | mailboxDropped | nvPortUp | nvPortNarrowed | nvPortDown | nvBearingMismatch
  | memChannelUp | memChannelDegraded | memChannelRetired | layoutInvalid | ptnOpened | sealTimingLost
  | sealTimingRestored | ptnTablesLost | ptnResetDone | fixRestored | setupDenied | startComplete | strapInvalid
  | generation | fwSignature | thermalTrip | mirrorRewrite
deriving DecidableEq, Repr

/-- A Dealer event (R463): its sequence number, its name and what it names. -/
structure Event where
  seq  : Nat
  kind : EventKind
  a    : Nat
  b    : Nat
deriving DecidableEq, Repr

/-- The gap of an interrupt vector (R484): whether it is in its gap and whether a cause is held. -/
structure IrqGap where
  inGap : Bool
  held  : Bool
deriving DecidableEq, Repr

/-- The Dealer and the faults logic. irqs counts the interrupts fired per vector at the host die's
interrupt controller, msix those sent as MSI-X on PCIe port 0 (R361); mbxIrqs per agent. -/
structure Dealer where
  seq      : Nat
  events   : List Event
  records  : List ErrRec
  kept     : List ErrRec
  gaps     : Table IrqGap
  irqs     : Table Nat
  msix     : Table Nat
  mbxIrqs  : Table Nat
  resets   : List Reset
  armed    : List Armed
  dieCounters : Table DWord
deriving DecidableEq, Repr

/-! ### Dies, Helm, meter, package -/

/-- Calibration of a die's pace counter (R38, R39). -/
inductive PaceCal where
  | never
  | strobed
  | lost
deriving DecidableEq, Repr

/-- A die (R35, R45, R50, R51, R57, R58). scale is the oscillator periods per millisecond of the last calibration; target
is the VCORE a rail change in progress leads to; helmBrake is the brake the Helm had set before a fallback; stepMv and stepTj
are the VCORE set and the reading taken in its latest control step (R70). Dies 0 to 3 are CD0 to CD3, 4 is HD. -/
structure Die where
  pace      : DWord
  err       : Int
  scale     : Nat
  cal       : PaceCal
  vcore     : Nat
  vsram     : Nat
  target    : List Nat
  brake     : Nat
  cause     : Nat
  tj        : Nat
  throttled : Bool
  ceiling   : Bool
  tripped   : Bool
  forceCeiling : Bool
  fallback  : Bool
  helmBrake : Nat
  wearLtd   : Bool
  sealLost  : Bool
  clock8    : Nat
  stepped   : Bool
  stepMv    : Nat
  stepTj    : Nat
deriving DecidableEq, Repr

/-- The Helm (R48, R52, R54, R66). frames are the energies of the package's frames in nJ, newest first, at most 10,000
(500 ms); sprint is the number of frames the sprint in progress has lasted, since the number of frames from the start of the
last sprint whose average is still to be judged; limits holds the HELM_LIMIT value that each die's last control step took;
judged the limit in W that averages are judged against where a change of CLASS has ended a sprint (R65). -/
structure Helm where
  limits   : Table DWord
  lead     : Nat
  framesLost : Bool
  frames   : List Nat
  sprint   : List Nat
  since    : List Nat
  judged   : List Nat
  exceeded : Bool
deriving DecidableEq, Repr

/-- Energy of a context this interval and what it carries (R508, R509), in nJ, with the units counted. -/
structure Bucket where
  compute : Nat
  shared  : Nat
  units   : Nat
  usedC   : Bool
deriving DecidableEq, Repr

/-- A logbook entry stored (R524), as its 1,024 bytes with its number and section. -/
structure LogEntry where
  no    : Nat
  lr    : Bool
  bytes : List Byte
deriving DecidableEq, Repr

/-- An image the meter die has verified (R527, R528). -/
structure Image where
  version : Nat
  svn     : Nat
  digest  : List Byte
  slotB   : Bool
  fromHost : Bool
  running : Bool
deriving DecidableEq, Repr

/-- A meter request taken from a mailbox (R523). -/
structure MtrReq where
  agent   : Nat
  ch      : Nat
  pointer : DWord
deriving DecidableEq, Repr

/-- The meter die (R498 to R529). total is keyed by input, the serving channel's energy of the interval in nJ, and by
16 + input, the other channel's; window the same for the window in progress; frame the serving channel's energy since the
last frame; second is keyed by input for channel A and 16 + input for channel B, with the sum of the serving channel's
voltages at 32 + input and a mark at 48 where a channel did not measure the whole second. ended holds the energies of the
window that ended last until its four count frames are in; arrived the dies whose frame is, lostDies those whose frame was
lost. Bits 16 + r of flags mark a disagreement of input r. images is keyed 0 to 15 for partition firmware, 16 helm, 17 keeper,
18 host boot, 19 service core, 20 legally relevant, 21 the legally relevant image to switch in, 32 + k the image that
firmware update k writes. -/
structure Meter where
  total    : Table Nat
  window   : Table Nat
  frame    : Table Nat
  second   : Table Nat
  lastI    : Table Nat
  windowNo : Nat
  startMs  : Nat
  ended    : List (List Nat)
  counts   : Table (List (Nat × Nat × Nat))
  activity : Table (List (Nat × Nat × Nat))
  arrived  : List Nat
  lostDies : List Nat
  buckets  : List (CtxId × Bucket)
  gensSeen : Table (List Nat)
  unCompute : Nat
  unShared : Nat
  flags    : BitVec 32
  early    : Bool
  recordNo : Nat
  cycles   : Nat
  sealNo   : Nat
  logNo    : Nat
  lrLog    : List LogEntry
  genLog   : List LogEntry
  revoked  : List Nat
  wear     : Table (List Nat)
  wearNow  : Table (Nat × Nat)
  minSvn   : Table Nat
  images   : Table Image
  retired  : List Nat
  nvExt    : List DWord
  nvCoord  : Table Nat
  requests : List MtrReq
  sessions : Table Session
  openings : Table Opening
  intervalS : Nat
deriving DecidableEq, Repr

/-- Where the package stands in R538 to R542. -/
inductive Start where
  | rails (n : Nat)
  | railFail
  | boot
  | bootWindow
  | recovery
  | helm
  | training
  | complete
  | off
  | heldTest
deriving DecidableEq, Repr

/-- The package: straps as sampled (R534), start-up, pins (R533), joints (R21), a firmware update in progress (its target and
the number of its image in Meter.images). joints lists the joints that are down; recov says that the host die runs the recovery image
(R541), keeperB that keeper runs its other image; vhost is the VHOST setpoint in mV, once the Helm has set it (R44). -/
structure Pkg where
  recov    : Bool
  straps   : BitVec 22
  start    : Start
  railEn   : BitVec 4
  stbyOk   : Bool
  thermtrip : Bool
  railFails : Nat
  joints   : Table Bool
  keeperB  : Bool
  flash    : Memory
  fw       : List (Nat × Nat)
  vhost    : List Nat
deriving DecidableEq, Repr

/-- The whole machine. pending is the queue of commands, first in first out; fresh numbers the free values drawn. -/
structure State where
  pending : List Instr
  fresh   : Nat
  cores   : Table Core
  hold    : Table Memory
  cache   : List CacheLine
  fills   : List Fill
  cmem    : Memory
  hmem    : Memory
  poison  : List Nat
  flips   : Table Nat
  chans   : Table Chan
  migr    : List Migration
  ptns    : Table Ptn
  ctxs    : Table Ctx
  ctxGens : Table Nat
  cooling : List Nat
  links   : Links
  setup   : Setup
  dealer  : Dealer
  dies    : Table Die
  helm    : Helm
  meter   : Meter
  pkg     : Pkg
deriving DecidableEq, Repr

/-! ### Reset -/

/-- An idle vector engine with zero state (R246). -/
def Engine.reset : Engine := ⟨[], [], [], .nobody, [], [], [], []⟩

/-- An array with every entry +0 (R133), streak 0 (R150) and no weights (R117). -/
def MxArray.reset : MxArray := ⟨[], [], [], [], [], 0, [], []⟩

/-- A core's work after engine reset (R485): nothing resident, deck zero. -/
def Work.reset : Work := ⟨[], [], [], [], [], [], Engine.reset, [], [], [], []⟩

/-- A core after reset (R485, R97, R33). It issues nothing until the Helm's first control step (R57).
Log entry 8 (DESIGN CHOICE). -/
def Core.reset : Core := ⟨Work.reset, [], [], [], [], 0, [], 0, false⟩

/-- A channel that no training has brought into service: MEM_CHAN_STATUS.STATE 0 (its table). Log entry 8 (DESIGN CHOICE). -/
def Chan.reset : Chan := ⟨0, 0, 4, 0, [], [], []⟩

/-- A partition with nothing in it (R468, package reset). -/
def Ptn.reset : Ptn :=
  ⟨false, false, [], [], [], [], [], [], [], [], [], [], [], [], [], [], [], [], [], [], [], [], [], [], [], [], [], [], [], [],
    [], [], false, []⟩

/-- A port that is down (NV_PORT_STATUS defaults), sequence 0 (R406 step 5). -/
def Port.reset : Port := ⟨0, 0, 0, 0, 0, 0, false, 0, 0, 0, 0, 0, 0, false, [], [], [], [], [], false, []⟩

/-- A die at the start values of R539: VCORE 0.60 V, VSRAM 0.75 V, brake open (R70), no strobe yet (R38).
Log entry 8 (DESIGN CHOICE). -/
def Die.reset : Die :=
  ⟨0, 0, 400000, .never, 600, 750, [], 64, 0, 0, false, false, false, false, false, 64, false, false, 8, false, 0, 0⟩

/-- The meter die as made, at its first power-up (log entry 6). -/
def Meter.reset : Meter :=
  { total := [], window := [], frame := [], second := [], lastI := [], windowNo := 0, startMs := 0,
    ended := [], counts := [], activity := [], arrived := [], lostDies := [], buckets := [], gensSeen := [], unCompute := 0,
    unShared := 0, flags := 0, early := false, recordNo := 0, cycles := 1, sealNo := 0, logNo := 0, lrLog := [],
    genLog := [], revoked := [], wear := [], wearNow := [], minSvn := [], images := [],
    retired := [], nvExt := [], nvCoord := [], requests := [], sessions := [],
    openings := [], intervalS := 60 }

/-- The package right after its first power-on with every strap ball open (R535; log entry 5): set-up registers at
their defaults, the meter die running, the first rail group enabled (R539 step 1), every memory zero.
Log entry 4 (DESIGN CHOICE). Log entry 8 (DESIGN CHOICE). -/
def State.reset : State :=
  { pending := [], fresh := 0, cores := [], hold := [], cache := [], fills := [], cmem := [], hmem := [], poison := [], flips := [],
    chans := [], migr := [], ptns := [], ctxs := [], ctxGens := [], cooling := [],
    links := ⟨[], [], [], [], [], []⟩,
    setup := ⟨[], [], [], [], [], []⟩,
    dealer := ⟨0, [], [], [], [], [], [], [], [], [], []⟩,
    dies := [],
    helm := ⟨[], 0, false, [], [], [], [], false⟩,
    meter := Meter.reset,
    pkg := ⟨false, 0, .rails 0, 1, true, false, 0, [], false, [], [], []⟩ }

end Sys2Proof.Machine
end

