-- ==== Sys2Proof/Machine/Store.lean ====
section
/-! DEFINITION. The plain operations on tables, byte memories, bit fields and little-endian words (R7, R8). -/

namespace Sys2Proof.Machine

/-! ### Tables -/

/-- The thing numbered k, if listed. -/
def Tab.get? {α : Type} : Table α → Nat → Option α
  | [], _ => none
  | (j, x) :: t, k => if j = k then some x else Tab.get? t k

/-- The thing numbered k, or d where unlisted. -/
def Tab.get {α : Type} (t : Table α) (k : Nat) (d : α) : α := (Tab.get? t k).getD d

/-- The table with x at k. -/
def Tab.set {α : Type} : Table α → Nat → α → Table α
  | [], k, x => [(k, x)]
  | (j, y) :: t, k, x =>
    if k < j then (k, x) :: (j, y) :: t
    else if k = j then (k, x) :: t
    else (j, y) :: Tab.set t k x

/-- The table without k. -/
def Tab.erase {α : Type} (t : Table α) (k : Nat) : Table α := t.filter (fun e => e.1 != k)

/-- The numbers listed. -/
def Tab.keys {α : Type} (t : Table α) : List Nat := t.map (·.1)

/-- The table with every listed thing changed. -/
def Tab.mapVals {α : Type} (f : α → α) (t : Table α) : Table α := t.map (fun e => (e.1, f e.2))

/-- The smallest of the numbers below n not listed. -/
def Tab.lowestFree {α : Type} (t : Table α) (n : Nat) : Option Nat :=
  (List.range n).find? (fun k => (Tab.get? t k).isNone)

/-! ### Byte memories -/

/-- The byte at a; a byte never listed reads zero (R447 step 4, R460, R485; log entry 4). -/
def Mem.read : Memory → Nat → Byte
  | [], _ => 0
  | (b, x) :: m, a => if b = a then x else Mem.read m a

/-- The memory without the byte at a. -/
def Mem.drop : Memory → Nat → Memory
  | [], _ => []
  | (b, x) :: m, a => if b = a then m else if a < b then (b, x) :: m else (b, x) :: Mem.drop m a

/-- The memory with the byte x listed at a, in address order. -/
def Mem.put : Memory → Nat → Byte → Memory
  | [], a, x => [(a, x)]
  | (b, y) :: m, a, x =>
    if a < b then (a, x) :: (b, y) :: m
    else if a = b then (a, x) :: m
    else (b, y) :: Mem.put m a x

/-- Writes a byte, keeping the canonical form: a zero byte is not listed. -/
def Mem.write (m : Memory) (a : Nat) (x : Byte) : Memory := if x = 0 then Mem.drop m a else Mem.put m a x

/-- The canonical form: addresses strictly rising, no zero byte listed. -/
abbrev Mem.wf (m : Memory) : Prop := m.Pairwise (fun c d => c.1 < d.1) ∧ ∀ c ∈ m, c.2 ≠ 0

/-- Sets every byte in [lo, hi) to zero. -/
def Mem.clear (m : Memory) (lo hi : Nat) : Memory := m.filter (fun c => c.1 < lo || hi ≤ c.1)

/-- The n bytes from a on. -/
def Mem.bytes (m : Memory) (a n : Nat) : List Byte := (List.range n).map (fun i => Mem.read m (a + i))

/-- Writes bytes from a on. -/
def Mem.writeBytes : Memory → Nat → List Byte → Memory
  | m, _, [] => m
  | m, a, x :: xs => Mem.writeBytes (Mem.write m a x) (a + 1) xs

/-! ### Numbers, bytes and fields -/

/-- The number that little-endian bytes hold (R8). -/
def leNat : List Byte → Nat
  | [] => 0
  | x :: xs => x.toNat + 256 * leNat xs

/-- The n low bytes of a number, little-endian (R8). -/
def natLe : Nat → Nat → List Byte
  | 0, _ => []
  | n + 1, v => BitVec.ofNat 8 v :: natLe n (v / 256)

/-- The n low bytes of a number, most significant first. -/
def natBe (n v : Nat) : List Byte := (natLe n v).reverse

/-- The number that most-significant-first bytes hold. -/
def beNat (l : List Byte) : Nat := leNat l.reverse

/-- Bits [hi:lo] of a number (R7). -/
def bits (v hi lo : Nat) : Nat := (v / 2 ^ lo) % 2 ^ (hi + 1 - lo)

/-- Bit n of a number (R7). -/
def bit (v n : Nat) : Bool := (v / 2 ^ n) % 2 == 1

/-- v with bits [hi:lo] replaced by x. -/
def setBits (v hi lo x : Nat) : Nat :=
  v - bits v hi lo * 2 ^ lo + (x % 2 ^ (hi + 1 - lo)) * 2 ^ lo

/-- A number read as two's complement of the given width. -/
def signed (width v : Nat) : Int :=
  let u := v % 2 ^ width
  if 2 * u < 2 ^ width then (u : Int) else (u : Int) - (2 ^ width : Nat)

/-- An integer reduced to a natural number of the given width, two's complement. -/
def unsigned (width : Nat) (v : Int) : Nat := (v % (2 ^ width : Nat)).toNat

/-- Field [hi:lo] of a 64-bit register as a number. -/
def fld (r : DWord) (hi lo : Nat) : Nat := bits r.toNat hi lo

/-- A 64-bit register with field [hi:lo] set. -/
def setFld (r : DWord) (hi lo x : Nat) : DWord := BitVec.ofNat 64 (setBits r.toNat hi lo x)

/-- 1 for true. -/
def b2n (b : Bool) : Nat := if b then 1 else 0

/-- Ceiling division. -/
def ceilDiv (a b : Nat) : Nat := (a + b - 1) / b

/-- The little-endian number in n bytes of a byte list at an offset; bytes past its end read zero. -/
def leAt (l : List Byte) (off n : Nat) : Nat := leNat ((l.drop off).take n)

/-- Bytes of a list at an offset, padded with zero to n. -/
def sliceAt (l : List Byte) (off n : Nat) : List Byte :=
  let x := (l.drop off).take n
  x ++ List.replicate (n - x.length) 0

/-- Replaces the element at index i. -/
def setAt {α : Type} : List α → Nat → α → List α
  | [], _, _ => []
  | _ :: l, 0, x => x :: l
  | y :: l, i + 1, x => y :: setAt l i x

/-- Removes the element at index i. -/
def dropAt {α : Type} : List α → Nat → List α
  | [], _ => []
  | _ :: l, 0 => l
  | y :: l, i + 1 => y :: dropAt l i

end Sys2Proof.Machine
end

