-- ==== Sys2Proof/Machine/Digest.lean ====
section
/-! DEFINITION. The checks and digests that the spec takes from other standards: the IEEE 802.3 CRC-32 (R410, R413,
R489, R506), SHA-512 (R511, R512, R528) and RSASSA-PSS verification with SHA-512, MGF1 with SHA-512 and a 64-byte salt
(R512), public exponent 65,537 (R519). -/

namespace Sys2Proof.Machine

/-- One bit of the reflected CRC-32 division by 0xEDB8_8320. -/
def crcBit (c : Word) : Word := if c.getLsbD 0 then (c >>> 1) ^^^ 0xEDB88320 else c >>> 1

/-- One byte into the CRC-32 remainder. -/
def crcByte (c : Word) (b : Byte) : Word := Nat.repeat crcBit 8 (c ^^^ b.zeroExtend 32)

/-- IEEE 802.3 CRC-32 of bytes. -/
def crc32 (l : List Byte) : Word := ~~~ (l.foldl crcByte 0xFFFFFFFF)

/-- The largest number whose e-th power is at most x, found bit by bit from 2^(k − 1) down. -/
def rootFloor (e x : Nat) : Nat → Nat → Nat
  | 0, r => r
  | k + 1, r => rootFloor e x k (if (r + 2 ^ k) ^ e ≤ x then r + 2 ^ k else r)

/-- The first prime numbers, as many as SHA-512 has rounds. -/
def shaPrimes : List Nat := (List.range 410).filter (fun p => 2 ≤ p && (List.range p).all (fun d => d < 2 || p % d != 0))

/-- The first 64 bits of the fractional part of an e-th root. -/
def rootBits (e p : Nat) : DWord := BitVec.ofNat 64 (rootFloor e (p * 2 ^ (64 * e)) 70 0)

/-- The round constants of SHA-512 (FIPS 180-4 section 4.2.3): cube roots of the first 80 primes. -/
def shaRoundKeys : List DWord := shaPrimes.map (rootBits 3)

/-- The exclusive or of rotations of a word to the right. -/
def turns (x : DWord) (l : List Nat) : DWord := l.foldl (fun y n => y ^^^ x.rotateRight n) 0

/-- SHA-512 between two rounds, seen as shift registers, newest word first: top holds the working variables a to d, low e to h;
coming holds the next 16 words of the message schedule, the next one first. -/
structure ShaRun where
  top    : List DWord
  low    : List DWord
  coming : List DWord
deriving DecidableEq, Repr

/-- One round with its constant (FIPS 180-4 sections 6.4.2 and 4.1.3): a new word enters each register, and the schedule grows
by the word that its window determines. -/
def ShaRun.round (r : ShaRun) (key : DWord) : ShaRun :=
  let up (i : Nat) : DWord := r.top.getD i 0
  let lo (i : Nat) : DWord := r.low.getD i 0
  let w (i : Nat) : DWord := r.coming.getD i 0
  let choice := lo 2 ^^^ (lo 0 &&& (lo 1 ^^^ lo 2))
  let majority := (up 0 &&& (up 1 ||| up 2)) ||| (up 1 &&& up 2)
  let into := w 0 + key + choice + turns (lo 0) [14, 18, 41] + lo 3
  let fresh := turns (w 14) [19, 61] ^^^ (w 14 >>> 6)
  let aged := turns (w 1) [1, 8] ^^^ (w 1 >>> 7)
  { top := (majority + turns (up 0) [28, 34, 39] + into) :: r.top.dropLast
    low := (up 3 + into) :: r.low.dropLast
    coming := r.coming.tail ++ [fresh + w 9 + aged + w 0] }

/-- The big-endian 64-bit words of bytes, at most k of them. -/
def wordsBe : Nat → List Byte → List DWord
  | 0, _ => []
  | k + 1, l => BitVec.ofNat 64 (beNat (l.take 8)) :: wordsBe k (l.drop 8)

/-- The chaining value after k more blocks of 128 bytes: the first half of the hash words and the second. -/
def shaAbsorb : Nat → List DWord × List DWord → List Byte → List DWord × List DWord
  | 0, h, _ => h
  | k + 1, h, l =>
    let r := shaRoundKeys.foldl ShaRun.round ⟨h.1, h.2, wordsBe 16 l⟩
    shaAbsorb k (List.zipWith (· + ·) h.1 r.top, List.zipWith (· + ·) h.2 r.low) (l.drop 128)

/-- SHA-512 (FIPS 180-4), 64 bytes: the hash starts from the square roots of the first 8 primes; the message is followed by a 1
bit, zeros, and its length in bits, to whole blocks. -/
def sha512 (m : List Byte) : List Byte :=
  let fill := (239 - m.length % 128) % 128
  let start := (shaPrimes.take 8).map (rootBits 2)
  let h := shaAbsorb ((m.length + fill + 17) / 128) (start.take 4, start.drop 4)
    (m ++ 0x80 :: (List.replicate fill 0 ++ natBe 16 (8 * m.length)))
  (h.1 ++ h.2).flatMap (fun x => natBe 8 x.toNat)

/-- The first k hash blocks of MGF1 with SHA-512 from a counter on (RFC 8017 B.2.1). -/
def mgf1 (seed : List Byte) : Nat → Nat → List Byte
  | 0, _ => []
  | k + 1, c => sha512 (seed ++ natBe 4 c) ++ mgf1 seed k (c + 1)

/-- x to the power 2^k modulo n, by k squarings. -/
def powSq : Nat → Nat → Nat → Nat
  | 0, x, n => x % n
  | k + 1, x, n => powSq k (x * x % n) n

/-- RSAVP1 with exponent 65,537 (RFC 8017 5.2.2, R519). -/
def rsaPublic (n s : Nat) : Nat := powSq 16 s n * s % n

/-- RSASSA-PSS verification for a 4,096-bit modulus, SHA-512, 64-byte salt (RFC 8017 8.1.2, 9.1.2; R512). sig is the
signature's bytes, most significant first. -/
def pssVerify (n : Nat) (m : List Byte) (sig : List Byte) : Bool :=
  let s := beNat sig
  let em := natBe 512 (rsaPublic n s)
  let db := em.take 447
  let h := (em.drop 447).take 64
  let x := List.zipWith (· ^^^ ·) db (mgf1 h 7 0)
  let y := match x with
    | [] => []
    | b :: t => (b &&& 0x7F) :: t
  n / 2 ^ 4095 == 1 && s < n && em.length == 512 && (em.drop 511) == [0xBC] &&
    ((em.headD 0).toNat < 128) && y.take 383 == (List.replicate 382 (0 : Byte) ++ [1]) &&
    sha512 (List.replicate 8 0 ++ sha512 m ++ y.drop 383) == h

end Sys2Proof.Machine
end

