-- ==== Sys2Proof/Machine/Flt.lean ====
section
/-! DEFINITION. The linear formats binary32, binary16 and bfloat16 (R84): exact values, rounding to a format's grid
(R85, R86, R93), and the arithmetic of R238 and R253, each operation exact and then rounded once. -/

namespace Sys2Proof.Machine

/-- A linear format: fraction bits, exponent bits (R84). -/
structure Lin where
  frac : Nat
  expo : Nat
deriving DecidableEq, Repr

/-- IEEE 754 binary32. -/
def f32 : Lin := ⟨23, 8⟩
/-- IEEE 754 binary16. -/
def f16 : Lin := ⟨10, 5⟩
/-- bfloat16. -/
def bf16 : Lin := ⟨7, 8⟩

/-- Bits of an element. -/
def Lin.width (f : Lin) : Nat := 1 + f.expo + f.frac
/-- Exponent bias. -/
def Lin.bias (f : Lin) : Nat := 2 ^ (f.expo - 1) - 1
/-- Pattern of +infinity. -/
def Lin.infBits (f : Lin) : Nat := (2 ^ f.expo - 1) * 2 ^ f.frac
/-- The canonical quiet NaN, sign 0 (R85). -/
def Lin.nan (f : Lin) : Nat := f.infBits + 2 ^ (f.frac - 1)
/-- The sign bit's weight. -/
def Lin.signBit (f : Lin) : Nat := 2 ^ (f.width - 1)

/-- An exact value: NaN, a signed infinity, or sign, mantissa and binary exponent (mant x 2^exp). -/
inductive Val where
  | nan
  | inf (neg : Bool)
  | fin (neg : Bool) (mant : Nat) (exp : Int)
deriving DecidableEq, Repr

/-- The value an element's bits hold (R84), subnormals included (R85). -/
def Lin.decode (f : Lin) (b : Nat) : Val :=
  let neg := bit b (f.width - 1)
  let e := bits b (f.width - 2) f.frac
  let m := b % 2 ^ f.frac
  if e = 2 ^ f.expo - 1 then (if m = 0 then .inf neg else .nan)
  else if e = 0 then .fin neg m (1 - (f.bias : Int) - f.frac)
  else .fin neg (2 ^ f.frac + m) ((e : Int) - f.bias - f.frac)

/-- How to choose between two neighbours on a grid (R93): nearest with ties to even, or stochastic with n random bits
whose draw is rnd. -/
inductive Rnd where
  | nearest
  | stochastic (n rnd : Nat)
deriving DecidableEq, Repr

/-- R93 on a grid of integers: v = num / den; answers lo or lo + 1. even says whether lo is even. -/
def Rnd.up (r : Rnd) (even : Bool) (rem den : Nat) : Bool :=
  if rem = 0 then false
  else match r with
    | .nearest => if 2 * rem = den then !even else den < 2 * rem
    | .stochastic n rnd => rnd < rem * 2 ^ n / den

/-- floor(log2(num / den)) for positive num and den. -/
def log2Ratio (num den : Nat) : Int :=
  let d := (Nat.log2 num : Int) - Nat.log2 den
  -- num / den lies in (2^(d-1), 2^(d+1))
  let ge := if 0 ≤ d then den * 2 ^ d.toNat ≤ num else den ≤ num * 2 ^ (-d).toNat
  if ge then d else d - 1

/-- Rounds the positive value num / den x 2^exp to the format's magnitude bits (R93): a result at or past 2^(emax+1)
is the infinity's pattern. -/
def Lin.roundMag (f : Lin) (r : Rnd) (num den : Nat) (exp : Int) : Nat :=
  if num = 0 then 0
  else
    let e := log2Ratio num den + exp
    let qmin : Int := 1 - (f.bias : Int) - f.frac
    let q := max (e - f.frac) qmin
    -- the value in units of 2^q
    let sh := exp - q
    let n := if 0 ≤ sh then num * 2 ^ sh.toNat else num
    let d := if 0 ≤ sh then den else den * 2 ^ (-sh).toNat
    let lo := n / d
    let m := if r.up (lo % 2 == 0) (n % d) d then lo + 1 else lo
    let b := (q - qmin).toNat * 2 ^ f.frac + m
    min b f.infBits

/-- Element bits of a sign and magnitude bits. -/
def Lin.signed (f : Lin) (neg : Bool) (mag : Nat) : Nat := if neg then f.signBit + mag else mag

/-- Rounds a ratio with a sign to nearest. -/
def Lin.roundRatio (f : Lin) (neg : Bool) (num den : Nat) (exp : Int) : Nat :=
  f.signed neg (f.roundMag .nearest num den exp)

/-- Rounds a value to the format under a rounding choice; SATF as R87: a finite value that overflows becomes the
largest finite value. -/
def Lin.encode (f : Lin) (r : Rnd) (satf : Bool) : Val → Nat
  | .nan => f.nan
  | .inf neg => f.signed neg f.infBits
  | .fin neg m e =>
    let b := f.roundMag r m 1 e
    f.signed neg (if satf && b == f.infBits then f.infBits - 1 else b)

/-- Whether a finite value overflows the format when rounded (R263). -/
def Lin.overflows (f : Lin) (r : Rnd) : Val → Bool
  | .fin _ m e => f.roundMag r m 1 e == f.infBits
  | _ => false

/-- Rounds to nearest without SATF: the rule of R238 and R253. -/
def Lin.near (f : Lin) (v : Val) : Nat := f.encode .nearest false v

/-! ### Exact sums and products -/

/-- The signed mantissa of a finite value. -/
def mantInt (neg : Bool) (m : Nat) : Int := if neg then -(m : Int) else (m : Int)

/-- Exact sum of two finite values; an exact zero of opposite signs is +0 under nearest rounding (IEEE 754 6.3). -/
def addFin (n1 : Bool) (m1 : Nat) (e1 : Int) (n2 : Bool) (m2 : Nat) (e2 : Int) : Val :=
  let e := min e1 e2
  let s := mantInt n1 (m1 * 2 ^ (e1 - e).toNat) + mantInt n2 (m2 * 2 ^ (e2 - e).toNat)
  if s = 0 then .fin (n1 && n2) 0 e else .fin (s < 0) s.natAbs e

/-- Exact sum. -/
def Val.add : Val → Val → Val
  | .nan, _ => .nan
  | _, .nan => .nan
  | .inf a, .inf b => if a = b then .inf a else .nan
  | .inf a, .fin _ _ _ => .inf a
  | .fin _ _ _, .inf b => .inf b
  | .fin n1 m1 e1, .fin n2 m2 e2 => addFin n1 m1 e1 n2 m2 e2

/-- Sign reversed. -/
def Val.neg : Val → Val
  | .nan => .nan
  | .inf a => .inf (!a)
  | .fin n m e => .fin (!n) m e

/-- Exact product. -/
def Val.mul : Val → Val → Val
  | .nan, _ => .nan
  | _, .nan => .nan
  | .inf a, .inf b => .inf (a != b)
  | .inf a, .fin b m _ => if m = 0 then .nan else .inf (a != b)
  | .fin a m _, .inf b => if m = 0 then .nan else .inf (a != b)
  | .fin n1 m1 e1, .fin n2 m2 e2 => .fin (n1 != n2) (m1 * m2) (e1 + e2)

/-- Integer square root of n by binary digits, k digits to go. -/
def isqrtAux : Nat → Nat → Nat → Nat
  | 0, _, r => r
  | k + 1, n, r => let c := r + 2 ^ k; isqrtAux k n (if c * c ≤ n then c else r)

/-- floor of the square root. -/
def isqrt (n : Nat) : Nat := isqrtAux (Nat.log2 n / 2 + 1) n 0

/-! ### Operations of one rounding -/

/-- a + b (R238, R253). -/
def Lin.add (f : Lin) (a b : Nat) : Nat := f.near ((f.decode a).add (f.decode b))
/-- a − b. -/
def Lin.sub (f : Lin) (a b : Nat) : Nat := f.near ((f.decode a).add (f.decode b).neg)
/-- a × b. -/
def Lin.mul (f : Lin) (a b : Nat) : Nat := f.near ((f.decode a).mul (f.decode b))
/-- a × b + c with one rounding. -/
def Lin.fma (f : Lin) (a b c : Nat) : Nat := f.near (((f.decode a).mul (f.decode b)).add (f.decode c))

/-- a ÷ b, correctly rounded (IEEE 754: x ÷ 0 an infinity, 0 ÷ 0 and inf ÷ inf a NaN). -/
def Lin.div (f : Lin) (a b : Nat) : Nat :=
  match f.decode a, f.decode b with
  | .nan, _ => f.nan
  | _, .nan => f.nan
  | .inf _, .inf _ => f.nan
  | .inf x, .fin y _ _ => f.signed (x != y) f.infBits
  | .fin x _ _, .inf y => f.signed (x != y) 0
  | .fin x m1 e1, .fin y m2 e2 =>
    if m2 = 0 then (if m1 = 0 then f.nan else f.signed (x != y) f.infBits)
    else f.roundRatio (x != y) m1 m2 (e1 - e2)

/-- √a, correctly rounded; a negative finite nonzero or −inf gives NaN, −0 gives −0 (IEEE 754). The root is taken to
over twice the format's digits with a sticky half below. -/
def Lin.sqrt (f : Lin) (a : Nat) : Nat :=
  match f.decode a with
  | .nan => f.nan
  | .inf neg => if neg then f.nan else f.infBits
  | .fin neg m e =>
    if m = 0 then f.signed neg 0
    else if neg then f.nan
    else
      let odd := e % 2 != 0
      let m1 := if odd then 2 * m else m
      let e1 := if odd then e - 1 else e
      let k := 2 * f.frac + 6
      let s := m1 * 2 ^ (2 * k)
      let r := isqrt s
      let twice := if r * r = s then 2 * r else 2 * r + 1
      f.roundRatio false twice 2 (e1 / 2 - k)

/-- 1 ÷ a, correctly rounded. -/
def Lin.rcp (f : Lin) (a : Nat) : Nat := f.div (f.bias * 2 ^ f.frac) a

/-- Whether the element is a NaN. -/
def Lin.isNan (f : Lin) (a : Nat) : Bool := f.decode a == .nan

/-- Whether the element is finite. -/
def Lin.isFin (f : Lin) (a : Nat) : Bool :=
  match f.decode a with
  | .fin _ _ _ => true
  | _ => false

/-- An order on elements that are not NaN in which −0 lies below +0: sign and magnitude as an integer. -/
def Lin.rank (f : Lin) (a : Nat) : Int :=
  let m := a % f.signBit
  if bit a (f.width - 1) then -(m : Int) - 1 else m

/-- a < b as numbers: −0 equals +0; false on a NaN. -/
def Lin.lt (f : Lin) (a b : Nat) : Bool :=
  !f.isNan a && !f.isNan b && (f.rank a < f.rank b) && !(a % f.signBit == 0 && b % f.signBit == 0)

/-- a = b as numbers. -/
def Lin.eq (f : Lin) (a b : Nat) : Bool :=
  !f.isNan a && !f.isNan b && (a == b || (a % f.signBit == 0 && b % f.signBit == 0))

/-- Minimum or maximum: a NaN operand yields the other operand (two give the NaN), −0 below +0 (R238, R253).
Log entry 65 (DEDUCED). -/
def Lin.minmax (f : Lin) (isMax : Bool) (a b : Nat) : Nat :=
  if f.isNan a then (if f.isNan b then f.nan else b)
  else if f.isNan b then a
  else if isMax then (if f.rank a < f.rank b then b else a)
  else (if f.rank b < f.rank a then b else a)

/-- An integer as a value. -/
def Val.ofInt (i : Int) : Val := .fin (i < 0) i.natAbs 0

/-- A value truncated toward zero to an integer, saturated to [lo, hi]; NaN gives 0 (R238 FCVT 2, R257 SUB 5). -/
def Val.toIntSat (lo hi : Int) : Val → Int
  | .nan => 0
  | .inf neg => if neg then lo else hi
  | .fin neg m e =>
    let t : Nat := if 0 ≤ e then m * 2 ^ (min e.toNat 200) else m / 2 ^ (-e).toNat
    max lo (min hi (mantInt neg t))

/-- binary32 operations on words. -/
def fadd32 (a b : Word) : Word := BitVec.ofNat 32 (f32.add a.toNat b.toNat)
/-- binary32 difference. -/
def fsub32 (a b : Word) : Word := BitVec.ofNat 32 (f32.sub a.toNat b.toNat)
/-- binary32 product. -/
def fmul32 (a b : Word) : Word := BitVec.ofNat 32 (f32.mul a.toNat b.toNat)
/-- binary32 quotient. -/
def fdiv32 (a b : Word) : Word := BitVec.ofNat 32 (f32.div a.toNat b.toNat)
/-- binary32 square root. -/
def fsqrt32 (a : Word) : Word := BitVec.ofNat 32 (f32.sqrt a.toNat)

end Sys2Proof.Machine
end

