-- ==== Sys2Proof/Machine/LFmt.lean ====
section
/-! DEFINITION. The logarithmic formats (R73 to R83): decoding (R88), choice of a scale (R89), encoding (R90 to R94),
the stochastic-rounding generator (R95, R96), and the element formats by FMT code (R71). -/

namespace Sys2Proof.Machine

/-- An L format: element width, codes per octave, largest code (R73). -/
structure LF where
  width : Nat
  k     : Nat
  cmax  : Nat
deriving DecidableEq, Repr

/-- The L format of an FMT code 4, 5 or 6 (R71, R73). -/
def lfmt (fmt : Nat) : LF :=
  if fmt = 4 then ⟨4, 2, 7⟩ else if fmt = 5 then ⟨8, 8, 127⟩ else ⟨16, 256, 32767⟩

/-- Whether an FMT code names an L format. -/
def isL (fmt : Nat) : Bool := fmt == 4 || fmt == 5 || fmt == 6

/-- Whether an FMT code names a linear format. -/
def isLin (fmt : Nat) : Bool := fmt ≤ 2

/-- The linear format of an FMT code 0, 1 or 2. -/
def linFmt (fmt : Nat) : Lin := if fmt = 0 then f32 else if fmt = 1 then f16 else bf16

/-- Bits of an element of an FMT code (R71). -/
def fmtWidth (fmt : Nat) : Nat := if isL fmt then (lfmt fmt).width else (linFmt fmt).width

/-- Whether the table of R71 allows an FMT and SHAPE pair (R72). -/
def fmtShapeOk (fmt shape : Nat) : Bool := (isLin fmt && shape == 0) || (isL fmt && (shape == 1 || shape == 2))

/-- Products per cell per beat, P (R104). -/
def prodP (fmt : Nat) : Nat := if fmt = 4 then 4 else if fmt = 5 then 2 else 1

/-- One binary digit of M[j]: the largest m with (2m − 1)^256 ≤ 2^(24 x 256 + j), that is m ≤ 2^(23 + j/256) + 1/2. -/
def mAux (j : Nat) : Nat → Nat → Nat
  | 0, m => m
  | k + 1, m => let c := m + 2 ^ k; mAux j k (if (2 * c - 1) ^ 256 ≤ 2 ^ (6144 + j) then c else m)

/-- The fraction table M of R78: 2^(j/256) x 2^23 rounded to the nearest integer. -/
def mTab (j : Nat) : Nat := mAux j 24 0

/-- The magnitude of code c at scale e as mantissa and exponent (R88): none for code 0. -/
def LF.mag (f : LF) (e : Int) (c : Nat) : Nat × Int :=
  if c = 0 then (0, 0)
  else
    let t := e * f.k - ((f.cmax : Int) - c)
    let o := Int.fdiv t f.k
    let r := (t - o * f.k).toNat
    (mTab (r * (256 / f.k)), o - 23)

/-- Decodes an L element (R75, R88). -/
def LF.decode (f : LF) (e : Int) (b : Nat) : Val :=
  let c := b % (f.cmax + 1)
  if c = 0 then .fin false 0 0
  else let g := f.mag e c; .fin (bit b (f.width - 1)) g.1 g.2

/-- Compares m1 x 2^e1 with m2 x 2^e2. -/
def leMag (m1 : Nat) (e1 : Int) (m2 : Nat) (e2 : Int) : Bool :=
  let e := min e1 e2
  m1 * 2 ^ (e1 - e).toNat ≤ m2 * 2 ^ (e2 - e).toNat

/-- The largest code whose grid value is at or below m x 2^x, by binary digits. -/
def LF.codeAux (f : LF) (e : Int) (m : Nat) (x : Int) : Nat → Nat → Nat
  | 0, c => c
  | k + 1, c =>
    let c1 := c + 2 ^ k
    let g := f.mag e c1
    f.codeAux e m x k (if leMag g.1 g.2 m x then c1 else c)

/-- Encodes a magnitude at most 2^E (R90, R93): the code chosen. -/
def LF.encodeMag (f : LF) (e : Int) (r : Rnd) (m : Nat) (x : Int) : Nat :=
  if m = 0 then 0
  else
    let c := f.codeAux e m x (f.width - 1) 0
    if c = f.cmax then c
    else
      let lo := f.mag e c
      let hi := f.mag e (c + 1)
      let y := min x (min hi.2 (if c = 0 then hi.2 else lo.2))
      let lo' := if c = 0 then 0 else lo.1 * 2 ^ (lo.2 - y).toNat
      let hi' := hi.1 * 2 ^ (hi.2 - y).toNat
      let v' := m * 2 ^ (x - y).toNat
      if r.up (c % 2 == 0) (v' - lo') (hi' - lo') then c + 1 else c

/-- The result of encoding one element: its bits, whether it saturated, whether it was a NaN input (R91, R263). -/
structure Enc where
  bits : Nat
  sat  : Bool
  nan  : Bool
deriving DecidableEq, Repr

/-- Encodes a value into an L format at scale e (R90, R91, R93). -/
def LF.encode (f : LF) (e : Int) (r : Rnd) : Val → Enc
  | .nan => ⟨0, false, true⟩
  | .inf neg => ⟨f.cmax + b2n neg * (f.cmax + 1), true, false⟩
  | .fin neg m x =>
    if leMag m x 1 e then
      let c := f.encodeMag e r m x
      ⟨c + (if c = 0 then 0 else b2n neg * (f.cmax + 1)), false, false⟩
    else ⟨f.cmax + b2n neg * (f.cmax + 1), true, false⟩

/-- The smallest integer E with m x 2^x ≤ 2^E, clamped to [−128, 127] (R89); −128 for zero. -/
def scaleOfMag (m : Nat) (x : Int) : Int :=
  if m = 0 then -128
  else
    let l := (Nat.log2 m : Int)
    let e := (if 2 ^ Nat.log2 m = m then l else l + 1) + x
    max (-128) (min 127 e)

/-- The scale R89 chooses for a block of values: the largest finite magnitude decides; −128 with none. -/
def chooseScale (vs : List Val) : Int :=
  vs.foldl (fun e v => match v with
    | .fin _ m x => max e (scaleOfMag m x)
    | _ => e) (-128)

/-- A scale byte as a signed number (R79). -/
def scaleInt (b : Nat) : Int := signed 8 b

/-- A scale as its byte (R79). -/
def scaleByte (e : Int) : Nat := unsigned 8 e

/-- Decodes an element of any FMT code; the scale matters to L formats only. -/
def decodeElem (fmt : Nat) (e : Int) (b : Nat) : Val := if isL fmt then (lfmt fmt).decode e b else (linFmt fmt).decode b

/-- An exact value rounded to binary32 nearest (R88, R93). -/
def toF32 (v : Val) : Word := BitVec.ofNat 32 (f32.near v)

/-! ### The stochastic-rounding generator -/

/-- One step of the generator state (R95). -/
def genStep (x : DWord) : DWord :=
  let a := x ^^^ (x >>> 12)
  let b := a ^^^ (a <<< 25)
  b ^^^ (b >>> 27)

/-- The top n bits of the output after a step (R95). -/
def genOut (x : DWord) (n : Nat) : Nat := ((x * 0x2545F4914F6CDD1D) >>> (64 - n)).toNat

/-- The state R96 gives lane of core p for seed s. -/
def genSeed (p : Nat) (s : DWord) (lane : Nat) : DWord :=
  let z := s + BitVec.ofNat 64 (128 * p + lane + 1) * 0x9E3779B97F4A7C15
  let z := (z ^^^ (z >>> 30)) * 0xBF58476D1CE4E5B9
  let z := (z ^^^ (z >>> 27)) * 0x94D049BB133111EB
  let z := z ^^^ (z >>> 31)
  if z = 0 then 1 else z

/-- Lane's generator state: R97's where none is listed. -/
def genGet (p : Nat) (gens : Table DWord) (lane : Nat) : DWord := Tab.get gens lane (genSeed p 0 lane)

/-! ### The conversion control byte (R87) -/

/-- RMODE: stochastic. -/
def ctlStoch (ctl : Nat) : Bool := bit ctl 0
/-- The number of random bits. -/
def ctlBits (ctl : Nat) : Nat := bits ctl 4 1 + 1
/-- SATF. -/
def ctlSatf (ctl : Nat) : Bool := bit ctl 5
/-- SCALE_SRC: scales supplied. -/
def ctlSupplied (ctl : Nat) : Bool := bit ctl 6

/-- One draw of lane for an element under a control byte (R94, R95): the rounding choice and the generators after. -/
def drawRnd (p : Nat) (ctl lane : Nat) (gens : Table DWord) : Rnd × Table DWord :=
  if ctlStoch ctl then
    let x := genStep (genGet p gens lane)
    (.stochastic (ctlBits ctl) (genOut x (ctlBits ctl)), Tab.set gens lane x)
  else (.nearest, gens)

end Sys2Proof.Machine
end

