-- ==== Sys2Proof/Machine/Regs.lean ====
section
/-! DEFINITION. The set-up space: addresses (R550), field maps with access and role codes (R11, R12 and the map of each
chapter), and defaults (R17, R556). -/

namespace Sys2Proof.Machine

/-! ### Addresses (R550) -/

namespace Reg
/-- SETUP_ID. -/
def setupId : Nat := 0x0
/-- SETUP_ERR. -/
def setupErr : Nat := 0x8
/-- SETUP_ROLE. -/
def setupRole : Nat := 0x10
/-- STRAP_STATUS. -/
def strapStatus : Nat := 0x18
/-- PKG_POWER. -/
def pkgPower : Nat := 0x20
/-- PTN_LAYOUT. -/
def ptnLayout : Nat := 0x28
/-- HELM_LIMIT. -/
def helmLimit : Nat := 0x30
/-- HELM_STATUS. -/
def helmStatus : Nat := 0x38
/-- MEM_CFG. -/
def memCfg : Nat := 0x40
/-- FLT_CFG. -/
def fltCfg : Nat := 0x48
/-- FLT_RING. -/
def fltRing : Nat := 0x50
/-- FLT_RING_PTR. -/
def fltRingPtr : Nat := 0x58
/-- FLT_INJECT. -/
def fltInject : Nat := 0x60
/-- FW_CTL. -/
def fwCtl : Nat := 0x68
/-- MTR_CFG. -/
def mtrCfg : Nat := 0x70
/-- MTR_SEAL. -/
def mtrSeal : Nat := 0x78
/-- MTR_STATUS. -/
def mtrStatus : Nat := 0x80
/-- COUNTER_SEL. -/
def counterSel : Nat := 0x88
/-- COUNTER_DATA. -/
def counterData : Nat := 0x90
/-- HOST_POOL. -/
def hostPool : Nat := 0x98
/-- NV_BEARING. -/
def nvBearing : Nat := 0x1000
/-- NV_DETOUR. -/
def nvDetour : Nat := 0x1008
/-- NV_PEER. -/
def nvPeer : Nat := 0x1010
/-- NV_PORT_CTL of port k. -/
def nvPortCtl (k : Nat) : Nat := 0x1100 + 8 * k
/-- NV_PORT_STATUS of port k. -/
def nvPortStatus (k : Nat) : Nat := 0x1200 + 8 * k
/-- MEM_CHAN_CTL of channel c. -/
def memChanCtl (c : Nat) : Nat := 0x2000 + 8 * c
/-- MEM_CHAN_STATUS of channel c. -/
def memChanStatus (c : Nat) : Nat := 0x2800 + 8 * c
/-- MTR_CAL of sense input r. -/
def mtrCal (r : Nat) : Nat := 0x3000 + 8 * r
/-- The first register of mailbox channel ch. -/
def mbx (ch : Nat) : Nat := 0x4000 + 64 * ch
/-- Offset o of the block of partition n. -/
def ptn (n o : Nat) : Nat := 0x10000 + 0x1000 * n + o
/-- PTN_CTL. -/
def ptnCtl (n : Nat) : Nat := ptn n 0x0
/-- PTN_SEAL. -/
def ptnSeal (n : Nat) : Nat := ptn n 0x8
/-- PASS_SCHED. -/
def passSched (n : Nat) : Nat := ptn n 0x10
/-- STASH_CFG. -/
def stashCfg (n : Nat) : Nat := ptn n 0x18
/-- STASH_STATUS. -/
def stashStatus (n : Nat) : Nat := ptn n 0x20
/-- HOLD_MODE. -/
def holdMode (n : Nat) : Nat := ptn n 0x28
/-- FLT_SOLO. -/
def fltSolo (n : Nat) : Nat := ptn n 0x30
/-- FIX_PARTNER. -/
def fixPartner (n : Nat) : Nat := ptn n 0x38
/-- FIX_AREA. -/
def fixArea (n : Nat) : Nat := ptn n 0x40
/-- FIX_RESTORE. -/
def fixRestore (n : Nat) : Nat := ptn n 0x48
/-- FENCE_MIRROR. -/
def fenceMirror (n : Nat) : Nat := ptn n 0x50
/-- ADMINQ_CTL. -/
def adminqCtl (n : Nat) : Nat := ptn n 0x58
/-- ADMINQ_SQ_BASE. -/
def adminqSq (n : Nat) : Nat := ptn n 0x60
/-- ADMINQ_CQ_BASE. -/
def adminqCq (n : Nat) : Nat := ptn n 0x68
/-- ADMINQ_DOORBELL. -/
def adminqDoorbell (n : Nat) : Nat := ptn n 0x70
/-- FIX_REMAP. -/
def fixRemap (n : Nat) : Nat := ptn n 0x78
/-- HOLD_OWNER. -/
def holdOwner (n : Nat) : Nat := ptn n 0x80
end Reg

/-! ### Field maps -/

/-- Access codes (R11). -/
inductive Access where
  | ro
  | rw
  | w1c
  | wo
  | rws
deriving DecidableEq, Repr

/-- A field: its bits, access and the roles that may write it (1 operator, 2 installer, 3 maker; R12, R519). -/
structure Field where
  hi    : Nat
  lo    : Nat
  acc   : Access
  roles : List Nat
deriving DecidableEq, Repr

/-- A register's form: whether it is 64 bits wide, and its writable and status fields; every other bit is reserved or RO. -/
structure RegForm where
  wide   : Bool
  fields : List Field
deriving DecidableEq, Repr

/-- Shorthand for an RW field. -/
def rwF (hi lo : Nat) (roles : List Nat) : Field := ⟨hi, lo, .rw, roles⟩
/-- Shorthand for a W1C bit. -/
def wcF (b : Nat) (roles : List Nat) : Field := ⟨b, b, .w1c, roles⟩
/-- Shorthand for a WO bit. -/
def woF (b : Nat) (roles : List Nat) : Field := ⟨b, b, .wo, roles⟩

/-- Field map of a package register (the maps of chapters 02, 13 to 19). -/
def pkgForm (o : Nat) : Option RegForm :=
  if o = Reg.setupId then some ⟨true, []⟩
  else if o = Reg.setupErr then some ⟨true, [wcF 63 [1, 2]]⟩
  else if o = Reg.setupRole then some ⟨false, []⟩
  else if o = Reg.strapStatus then some ⟨false, []⟩
  else if o = Reg.pkgPower then some ⟨false, [woF 0 [1, 2], woF 1 [1, 2], wcF 31 [1, 2]]⟩
  else if o = Reg.ptnLayout then some ⟨false, [rwF 1 0 [1], wcF 31 [1]]⟩
  else if o = Reg.helmLimit then some ⟨false, [rwF 11 0 [1, 2], rwF 12 12 [1, 2], rwF 17 16 [2]]⟩
  else if o = Reg.helmStatus then some ⟨false, [wcF 22 [1, 2]]⟩
  else if o = Reg.memCfg then some ⟨false, [rwF 2 0 [2], rwF 10 3 [1, 2], wcF 31 [1, 2]]⟩
  else if o = Reg.fltCfg then some ⟨false, [rwF 15 0 [1, 2], rwF 19 16 [2], rwF 29 20 [1, 2], wcF 31 [1, 2]]⟩
  else if o = Reg.fltRing then some ⟨true, [rwF 4 0 [1], rwF 15 5 [1], rwF 55 16 [1], wcF 63 [1]]⟩
  else if o = Reg.fltRingPtr then some ⟨true, [rwF 63 32 [1]]⟩
  else if o = Reg.fltInject then
    some ⟨true, [rwF 15 0 [1, 2, 3], rwF 47 16 [1, 2, 3], rwF 55 48 [1, 2, 3], woF 56 [1, 2, 3], wcF 63 [1, 2, 3]]⟩
  else if o = Reg.fwCtl then some ⟨true, [rwF 1 0 [1, 2], rwF 5 2 [1, 2], woF 6 [1, 2], rwF 59 20 [1, 2]]⟩
  else if o = Reg.mtrCfg then some ⟨true, [rwF 9 0 [2], rwF 17 10 [1], rwF 57 18 [1], wcF 63 [1, 2]]⟩
  else if o = Reg.mtrSeal then some ⟨true, []⟩
  else if o = Reg.mtrStatus then some ⟨true, [wcF 5 [1, 2], wcF 7 [1, 2], wcF 8 [3]]⟩
  else if o = Reg.counterSel then some ⟨false, [rwF 2 0 [1], rwF 15 8 [1], rwF 21 16 [1]]⟩
  else if o = Reg.counterData then some ⟨true, []⟩
  else if o = Reg.hostPool then some ⟨true, [rwF 19 0 [1], rwF 39 20 [1], wcF 63 [1]]⟩
  else none

/-- Field map of a register of arrays and blocks (chapters 13, 14, 17). Mailbox registers follow R369 and are not here. -/
def arrayForm (o : Nat) : Option RegForm :=
  if o = Reg.nvBearing then
    some ⟨false, [rwF 3 0 [2], rwF 7 4 [2], rwF 11 8 [2], rwF 15 12 [2], rwF 19 16 [2], rwF 23 20 [2], rwF 24 24 [2],
      wcF 31 [2]]⟩
  else if o = Reg.nvDetour then some ⟨false, [rwF 11 0 [1], rwF 14 12 [1], rwF 15 15 [1], woF 16 [1]]⟩
  else if o = Reg.nvPeer then
    some ⟨true, [rwF 11 0 [1], rwF 23 12 [1], rwF 27 24 [1], rwF 39 28 [1], rwF 47 40 [1], rwF 48 48 [1], woF 49 [1],
      wcF 63 [1]]⟩
  else if 0x1100 ≤ o ∧ o < 0x11C0 then some ⟨false, [rwF 0 0 [1, 2], woF 1 [1, 2], rwF 3 2 [2]]⟩
  else if 0x1200 ≤ o ∧ o < 0x12C0 then some ⟨false, [wcF 24 [1, 2]]⟩
  else if 0x2000 ≤ o ∧ o < 0x2640 then some ⟨false, [woF 0 [1, 2], woF 1 [1, 2], woF 2 [2], wcF 31 [1, 2]]⟩
  else if 0x2800 ≤ o ∧ o < 0x2E40 then some ⟨false, []⟩
  else if 0x3000 ≤ o ∧ o < 0x3060 then
    some ⟨true, [⟨15, 0, .rws, [3]⟩, ⟨31, 16, .rws, [3]⟩, ⟨51, 32, .rws, [3]⟩]⟩
  else none

/-- Field map at an offset of a partition block (chapters 05, 09, 15, 16, 19). -/
def ptnForm (o : Nat) : Option RegForm :=
  if o = 0x0 then some ⟨false, [rwF 0 0 [1], wcF 31 [1]]⟩
  else if o = 0x8 then
    some ⟨false, [rwF 0 0 [1], rwF 4 1 [1], rwF 8 5 [1], rwF 18 9 [1], rwF 26 19 [1], rwF 30 27 [1], wcF 31 [1]]⟩
  else if o = 0x10 then some ⟨false, [rwF 1 0 [1], rwF 5 2 [1], wcF 31 [1]]⟩
  else if o = 0x18 then some ⟨true, [rwF 19 0 [1], rwF 39 20 [1], rwF 43 40 [1], wcF 63 [1]]⟩
  else if o = 0x20 then some ⟨true, []⟩
  else if o = 0x28 then some ⟨false, [rwF 0 0 [2], rwF 3 1 [2], rwF 4 4 [1], wcF 31 [1, 2]]⟩
  else if o = 0x30 then some ⟨false, [rwF 11 0 [1], rwF 12 12 [1], wcF 31 [1]]⟩
  else if o = 0x38 then some ⟨false, [rwF 11 0 [1], rwF 15 12 [1], rwF 16 16 [1], wcF 31 [1]]⟩
  else if o = 0x40 then
    some ⟨true, [rwF 11 0 [1], rwF 15 12 [1], rwF 35 16 [1], rwF 55 36 [1], rwF 62 56 [1], wcF 63 [1]]⟩
  else if o = 0x48 then some ⟨true, [rwF 11 0 [1], rwF 12 12 [1], woF 13 [1], rwF 19 19 [1], rwF 59 20 [1]]⟩
  else if o = 0x50 then some ⟨true, [rwF 0 0 [1], rwF 51 12 [1], wcF 63 [1]]⟩
  else if o = 0x58 then
    some ⟨false, [rwF 0 0 [1], rwF 5 1 [1], rwF 10 6 [1], rwF 21 11 [1], wcF 22 [1], wcF 31 [1]]⟩
  else if o = 0x60 then some ⟨true, [rwF 63 0 [1]]⟩
  else if o = 0x68 then some ⟨true, [rwF 63 0 [1]]⟩
  else if o = 0x70 then some ⟨true, [rwF 63 0 [1]]⟩
  else if o = 0x78 then some ⟨true, [rwF 11 0 [1], rwF 19 12 [1], rwF 59 20 [1]]⟩
  else if o = 0x80 then some ⟨false, [rwF 11 0 [1], rwF 19 12 [1], rwF 20 20 [1], wcF 31 [1]]⟩
  else none

/-- The partition whose block holds an offset. -/
def ptnOfOffset (o : Nat) : Option Nat := if 0x10000 ≤ o ∧ o < 0x20000 then some ((o - 0x10000) / 0x1000) else none

/-- The form of the register at an assigned offset (R549, R550); mailbox registers answer a form with no writable field. -/
def regForm (o : Nat) : Option RegForm :=
  if o % 8 ≠ 0 then none
  else match ptnOfOffset o with
    | some _ => ptnForm (o % 0x1000)
    | none =>
      if o < 0x1000 then pkgForm o
      else if 0x4000 ≤ o ∧ o < 0x5000 then
        (if o % 64 = 0 ∨ o % 64 = 16 ∨ o % 64 = 24 then some ⟨false, []⟩ else if o % 64 = 8 then some ⟨true, []⟩ else none)
      else arrayForm o

/-! ### Straps and defaults -/

/-- BEARING_X strap (R534). -/
def strapX (st : BitVec 22) : Nat := bits st.toNat 3 0
/-- BEARING_Y strap. -/
def strapY (st : BitVec 22) : Nat := bits st.toNat 7 4
/-- BEARING_Z strap. -/
def strapZ (st : BitVec 22) : Nat := bits st.toNat 11 8
/-- HOSTMODE strap: endpoint mode. -/
def strapEndpoint (st : BitVec 22) : Bool := bit st.toNat 12
/-- MEMPOP strap. -/
def strapMempop (st : BitVec 22) : Nat := bits st.toNat 14 13
/-- COOLCLASS strap. -/
def strapClass (st : BitVec 22) : Nat := bits st.toNat 16 15
/-- PTNLAYOUT strap. -/
def strapLayout (st : BitVec 22) : Nat := bits st.toNat 18 17
/-- BOOTSRC strap. -/
def strapBoot (st : BitVec 22) : Nat := bits st.toNat 20 19
/-- TESTMODE strap. -/
def strapTest (st : BitVec 22) : Bool := bit st.toNat 21

/-- Sustained limit of a cooling class in W (R53). -/
def sustained (cls : Nat) : Nat := if cls = 0 then 2000 else if cls = 1 then 1400 else if cls = 2 then 900 else 500

/-- Sprint ceiling of a cooling class in W (R53). -/
def sprintCeiling (cls : Nat) : Nat := if cls = 0 then 2400 else if cls = 1 then 1680 else if cls = 2 then 1080 else 600

/-- The number of partitions of a LAYOUT code (R455); code 3 holds none. -/
def layoutCount (code : Nat) : Nat := if code = 0 then 1 else if code = 1 then 4 else if code = 2 then 16 else 0

/-- NV_BEARING's value at power-on and package reset (R431, R556): kept coordinates and extents, else straps and 0. -/
def bearingDefault (st : BitVec 22) (ext : List DWord) (coord : Table Nat) : DWord :=
  let x := Tab.get coord 0 (strapX st)
  let y := Tab.get coord 1 (strapY st)
  let z := Tab.get coord 2 (strapZ st)
  BitVec.ofNat 64 (x + 16 * y + 256 * z) ||| (ext.headD 0)

/-- Default of a package register (R17). -/
def pkgDefault (st : BitVec 22) (o : Nat) : DWord :=
  if o = Reg.setupId then 0x0000000100000192
  else if o = Reg.strapStatus then st.zeroExtend 64
  else if o = Reg.pkgPower then 0x8
  else if o = Reg.ptnLayout then BitVec.ofNat 64 (strapLayout st)
  else if o = Reg.helmLimit then BitVec.ofNat 64 (sustained (strapClass st) + 0x1000 + strapClass st * 0x10000)
  else if o = Reg.helmStatus then BitVec.ofNat 64 (64 * 2 ^ 24)
  else if o = Reg.memCfg then BitVec.ofNat 64 (4 + 24 * 8)
  else if o = Reg.fltCfg then BitVec.ofNat 64 (1000 + 2 * 2 ^ 16 + 100 * 2 ^ 20)
  else if o = Reg.mtrCfg then 60
  else 0

/-- Default of the register at an offset (R17, R556). Log entry 6 (DESIGN CHOICE). -/
def regDefault (st : BitVec 22) (ext : List DWord) (coord : Table Nat) (o : Nat) : DWord :=
  match ptnOfOffset o with
  | some n =>
    let r := o % 0x1000
    if r = 0 then (if n < layoutCount (strapLayout st) then 1 else 0)
    else if r = 0x10 then BitVec.ofNat 64 (4 * 4)
    else if r = 0x40 then BitVec.ofNat 64 (2 ^ 56)
    else 0
  | none =>
    if o < 0x1000 then pkgDefault st o
    else if o = Reg.nvBearing then bearingDefault st ext coord
    else if 0x1100 ≤ o ∧ o < 0x11C0 then 0xC
    else 0

end Sys2Proof.Machine
end

