-- ==== Sys2Proof/Machine/Flags.lean ====
section
/-! DEFINITION. Status codes (R399), detectors and classes (R475, R477), unit codes (R476), and the comparisons that
yield a flag of 1 or 0 (R238, R253). -/

namespace Sys2Proof.Machine

/-! ### Status codes (R399) -/

namespace St
/-- OK. -/
def ok : Nat := 0
/-- MALFORMED_COMMAND. -/
def malformed : Nat := 0x0101
/-- HANDLE_INVALID. -/
def handleInvalid : Nat := 0x0102
/-- DESCRIPTOR_INVALID. -/
def descriptorInvalid : Nat := 0x0103
/-- PROGRAM_INVALID. -/
def programInvalid : Nat := 0x0104
/-- SHARD_MAP_INVALID. -/
def shardMapInvalid : Nat := 0x0105
/-- UPDATE_TABLE_INVALID. -/
def updateTableInvalid : Nat := 0x0106
/-- ILLEGAL_STATE. -/
def illegalState : Nat := 0x0107
/-- MAP_CONFLICT. -/
def mapConflict : Nat := 0x0108
/-- OUT_OF_CONTEXTS. -/
def outOfContexts : Nat := 0x0201
/-- OUT_OF_QUEUES. -/
def outOfQueues : Nat := 0x0202
/-- OUT_OF_FENCES. -/
def outOfFences : Nat := 0x0203
/-- OUT_OF_MEMORY. -/
def outOfMemory : Nat := 0x0204
/-- STASH_TOO_LARGE. -/
def stashTooLarge : Nat := 0x0205
/-- BLOCK_TOO_LARGE. -/
def blockTooLarge : Nat := 0x0206
/-- DOORBELL_INVALID. -/
def doorbellInvalid : Nat := 0x0207
/-- FENCE_ERROR. -/
def fenceError : Nat := 0x0301
/-- FENCE_INVALID. -/
def fenceInvalid : Nat := 0x0302
/-- UNSETTLED. -/
def unsettled : Nat := 0x0401
/-- ADDRESS_UNMAPPED. -/
def unmapped : Nat := 0x0402
/-- ADDRESS_PROTECTION. -/
def protection : Nat := 0x0403
/-- WEIGHT_GEN_READ_ONLY. -/
def weightReadOnly : Nat := 0x0404
/-- DECK_RANGE. -/
def deckRange : Nat := 0x0405
/-- HOLD_RANGE. -/
def holdRange : Nat := 0x0406
/-- STASH_OVERFLOW. -/
def stashOverflow : Nat := 0x0407
/-- ADDRESS_ALIGNMENT. -/
def alignment : Nat := 0x0408
/-- MEMORY_UNCORRECTABLE. -/
def uncorrectable : Nat := 0x0409
/-- ILLEGAL_INSTRUCTION. -/
def illegalInstruction : Nat := 0x0501
/-- GROUP_DIVERGENT. -/
def groupDivergent : Nat := 0x0502
/-- DIVERGENCE_DEPTH. -/
def divergenceDepth : Nat := 0x0503
/-- MATRIX_OPERAND. -/
def matrixOperand : Nat := 0x0504
/-- SCALE_AXIS_MISMATCH. -/
def scaleAxis : Nat := 0x0505
/-- ROOT_NOT_CONVERGED. -/
def rootNotConverged : Nat := 0x0601
/-- UPDATE_PEER_TIMEOUT. -/
def updatePeerTimeout : Nat := 0x0602
/-- CANCELLED_OWNER_GONE. -/
def ownerGone : Nat := 0x0701
/-- CANCELLED_QUEUE_DESTROYED. -/
def queueDestroyed : Nat := 0x0702
/-- HANG_DETECTED. -/
def hangDetected : Nat := 0x0703
/-- HANG_REPEATED. -/
def hangRepeated : Nat := 0x0704
/-- RESET_CUT_OFF. -/
def resetCutOff : Nat := 0x0705
/-- REMOTE_UNREACHABLE. -/
def unreachable : Nat := 0x0801
end St

/-! ### Unit codes (R476) and detectors (R477) -/

/-- The unit code of KIND, DIE and INDEX (R476). -/
def unitCode (kind die index : Nat) : Nat := kind + 16 * die + 256 * index

/-- Unit code of core p. -/
def coreUnit (p : Nat) : Nat := unitCode 1 (p / 48) (p % 48)

/-- Unit code of a die: 0 to 3 compute, 4 host (KIND 12). -/
def dieUnit (d : Nat) : Nat := unitCode 12 d 0

/-- Unit code of memory channel c, numbered as MEM_CHAN_CTL. -/
def chanUnit (c : Nat) : Nat := if c < 192 then unitCode 7 (c / 48) (c % 48) else unitCode 7 4 (c - 192)

/-- Unit code of Nivan port 6d + dir. -/
def portUnit (k : Nat) : Nat := unitCode 8 (k / 6) (k % 6)

/-- Unit code of a package by number (KIND 15, DIE 0). -/
def packageUnit (pkg : Nat) : Nat := unitCode 15 0 pkg

/-- Unit code of a sensed rail; the die of a compute rail names itself (R500). -/
def railUnit (r : Nat) : Nat := unitCode 14 (if r < 8 then r % 4 else 4) r

/-- The class of a detector (R475, R477), 0 COUNTED to 7 METER; SUPPLY_LOW and REGULATOR_FAULT are classed by rail. -/
def detClass (det : Nat) : Nat :=
  if det ∈ [0x01, 0x04, 0x06, 0x07, 0x0B, 0x0D, 0x0E, 0x12] then 0
  else if det ∈ [0x09, 0x0A, 0x0C, 0x0F, 0x10, 0x11, 0x19, 0x1A, 0x1B, 0x1C, 0x20, 0x22, 0x23] then 1
  else if det ∈ [0x05, 0x08, 0x13, 0x14, 0x21] then 2
  else if det ∈ [0x02, 0x03, 0x16] then 3
  else if det = 0x15 then 4
  else if det = 0x17 then 5
  else if det = 0x24 then 7
  else 6

/-- The KIND of unit that a detector targets (R477). -/
def detKind (det : Nat) : Nat :=
  if det = 0x01 ∨ det = 0x02 then 5
  else if det = 0x03 ∨ det = 0x14 ∨ det = 0x15 ∨ det = 0x16 then 1
  else if det = 0x04 ∨ det = 0x05 then 6
  else if det ∈ [0x06, 0x07, 0x08, 0x09, 0x0A, 0x21] then 7
  else if det = 0x0B ∨ det = 0x0C then 9
  else if det ∈ [0x0D, 0x0E, 0x0F, 0x10, 0x11] then 8
  else if det = 0x12 ∨ det = 0x13 ∨ det = 0x25 then 15
  else if det = 0x17 then 11
  else if det = 0x19 then 10
  else if det = 0x1A ∨ det = 0x24 then 13
  else if det ∈ [0x1B, 0x1C, 0x1D, 0x20, 0x22, 0x23] then 12
  else 14

/-! ### Comparison flags -/

/-- 1 or 0 as a word. -/
def flag (b : Bool) : Word := if b then 1 else 0

/-- ICMP by SUB (R238): none for a code without a meaning. -/
def icmpFlag (sub : Nat) (a b : Word) : Option Bool :=
  if sub = 0 then some (a == b)
  else if sub = 1 then some (a != b)
  else if sub = 2 then some (BitVec.slt a b)
  else if sub = 3 then some (BitVec.sle a b)
  else if sub = 4 then some (BitVec.ult a b)
  else if sub = 5 then some (BitVec.ule a b)
  else none

/-- FCMP by SUB, codes 0 to 3; false on unordered except ne (R238). -/
def fcmpFlag (sub : Nat) (a b : Word) : Option Bool :=
  let x := a.toNat
  let y := b.toNat
  if sub = 0 then some (f32.eq x y)
  else if sub = 1 then some (!f32.eq x y)
  else if sub = 2 then some (f32.lt x y)
  else if sub = 3 then some (f32.lt x y || f32.eq x y)
  else none

/-- Whether a value is at or below another as binary32 numbers. -/
def fle32 (a b : Word) : Bool := f32.lt a.toNat b.toNat || f32.eq a.toNat b.toNat

end Sys2Proof.Machine
end

