-- ==== Sys2Proof/WellFormed.lean ====
section
/-! DEFINITION. Which operands a command can have: every number of a unit lies in the range the spec gives that unit
(R20, R103, R207, R293, R309, R332, R350, R368, R434, R435, R455, R476, R500), and host software's writes lie in host
memory (R440). exec stops on a command with an operand outside these ranges, and on no other. -/

namespace Sys2Proof

/-- What an operand names. -/
inductive Operand where
  | core (p : Nat)
  | groupSlot (k : Nat)
  | blockSlot (k : Nat)
  | array (a : Nat)
  | moverChannel (k : Nat)
  | farSlot (k : Nat)
  | ptn (n : Nat)
  | queue (q : Nat)
  | ctx (c : Nat)
  | port (k : Nat)
  | lane (k : Nat)
  | memChannel (c : Nat)
  | bank (b : Nat)
  | computeDie (d : Nat)
  | die (d : Nat)
  | rail (r : Nat)
  | joint (j : Nat)
  | mailbox (ch : Nat)
  | agent (a : Nat)
  | vector (v : Nat)
  | meterChannel (ch : Nat)
  | fwTarget (t : Nat)
  | pciePort (k : Nat)
  | hostWrite (w : HostWrite)
  | doorbellLine (line : Nat)
deriving DecidableEq, Repr

/-- Bytes of host memory data (R440). -/
def hostMemoryBytes : Nat := 76101451776

/-- Whether a unit with that number exists. Log entry 9 (DESIGN CHOICE). -/
def Operand.ok : Operand → Bool
  | .core p => p < 192
  | .groupSlot k => k < 64
  | .blockSlot k => k < 16
  | .array a => a < 4
  | .moverChannel k => k < 4
  | .farSlot k => k < 64
  | .ptn n => n < 16
  | .queue q => q < 64
  | .ctx c => c < 4096
  | .port k => k < 24
  | .lane k => k < 8
  | .memChannel c => c < 200
  | .bank b => b < 32
  | .computeDie d => d < 4
  | .die d => d < 5
  | .rail r => r < 12
  | .joint j => j < 9
  | .mailbox ch => ch < 64
  | .agent a => 1 ≤ a && a < 12
  | .vector v => v < 2048
  | .meterChannel ch => ch < 2
  | .fwTarget t => t < 4
  | .pciePort k => k < 2
  | .hostWrite w => w.addr + w.bytes.length ≤ hostMemoryBytes
  | .doorbellLine l => 64 * l + 64 ≤ hostMemoryBytes

/-- The units a timeout names. -/
def TimeoutOf.operands : TimeoutOf → List Operand
  | .slot p k => [.core p, .farSlot k]
  | .fill p _ => [.core p]
  | .wait n q _ => [.ptn n, .queue q]
  | .fix n q _ => [.ptn n, .queue q]

/-- The units a command names, operand by operand. -/
def Instr.operands : Instr → List Operand
  | .iadd p slot _ => [.core p, .groupSlot slot]
  | .isub p slot _ => [.core p, .groupSlot slot]
  | .imul p slot _ => [.core p, .groupSlot slot]
  | .imulh p slot _ => [.core p, .groupSlot slot]
  | .and p slot _ => [.core p, .groupSlot slot]
  | .or p slot _ => [.core p, .groupSlot slot]
  | .xor p slot _ => [.core p, .groupSlot slot]
  | .shl p slot _ => [.core p, .groupSlot slot]
  | .shr p slot _ => [.core p, .groupSlot slot]
  | .icmp p slot _ => [.core p, .groupSlot slot]
  | .sel p slot _ => [.core p, .groupSlot slot]
  | .iminmax p slot _ => [.core p, .groupSlot slot]
  | .fadd p slot _ => [.core p, .groupSlot slot]
  | .fmul p slot _ => [.core p, .groupSlot slot]
  | .ffma p slot _ => [.core p, .groupSlot slot]
  | .fcmp p slot _ => [.core p, .groupSlot slot]
  | .fminmax p slot _ => [.core p, .groupSlot slot]
  | .fcvt p slot _ => [.core p, .groupSlot slot]
  | .fsqrt p slot _ => [.core p, .groupSlot slot]
  | .frcp p slot _ => [.core p, .groupSlot slot]
  | .ldd p slot _ => [.core p, .groupSlot slot]
  | .std p slot _ => [.core p, .groupSlot slot]
  | .ldf p slot _ => [.core p, .groupSlot slot]
  | .stf p slot _ => [.core p, .groupSlot slot]
  | .atomf p slot _ => [.core p, .groupSlot slot]
  | .lockg p slot _ => [.core p, .groupSlot slot]
  | .unlockg p slot _ => [.core p, .groupSlot slot]
  | .br p slot _ => [.core p, .groupSlot slot]
  | .jmp p slot _ => [.core p, .groupSlot slot]
  | .joinpt p slot _ => [.core p, .groupSlot slot]
  | .exit p slot _ => [.core p, .groupSlot slot]
  | .barb p slot _ => [.core p, .groupSlot slot]
  | .nop p slot _ => [.core p, .groupSlot slot]
  | .shfl p slot _ => [.core p, .groupSlot slot]
  | .vote p slot _ => [.core p, .groupSlot slot]
  | .movs p slot _ => [.core p, .groupSlot slot]
  | .movt p slot _ => [.core p, .groupSlot slot]
  | .rdsp p slot _ => [.core p, .groupSlot slot]
  | .sadd p slot _ => [.core p, .groupSlot slot]
  | .ssub p slot _ => [.core p, .groupSlot slot]
  | .sand p slot _ => [.core p, .groupSlot slot]
  | .sor p slot _ => [.core p, .groupSlot slot]
  | .sxor p slot _ => [.core p, .groupSlot slot]
  | .sshl p slot _ => [.core p, .groupSlot slot]
  | .sshr p slot _ => [.core p, .groupSlot slot]
  | .sli p slot _ => [.core p, .groupSlot slot]
  | .smov p slot _ => [.core p, .groupSlot slot]
  | .mpass p slot _ => [.core p, .groupSlot slot]
  | .malt p slot _ => [.core p, .groupSlot slot]
  | .mdrain p slot _ => [.core p, .groupSlot slot]
  | .mzero p slot _ => [.core p, .groupSlot slot]
  | .msync p slot _ => [.core p, .groupSlot slot]
  | .vld p slot _ => [.core p, .groupSlot slot]
  | .vst p slot _ => [.core p, .groupSlot slot]
  | .vgath p slot _ => [.core p, .groupSlot slot]
  | .vscat p slot _ => [.core p, .groupSlot slot]
  | .vbcast p slot _ => [.core p, .groupSlot slot]
  | .vperm p slot _ => [.core p, .groupSlot slot]
  | .vadd p slot _ => [.core p, .groupSlot slot]
  | .vsub p slot _ => [.core p, .groupSlot slot]
  | .vmul p slot _ => [.core p, .groupSlot slot]
  | .vfma p slot _ => [.core p, .groupSlot slot]
  | .vminmax p slot _ => [.core p, .groupSlot slot]
  | .vcmp p slot _ => [.core p, .groupSlot slot]
  | .vsel p slot _ => [.core p, .groupSlot slot]
  | .vdiv p slot _ => [.core p, .groupSlot slot]
  | .vsqrt p slot _ => [.core p, .groupSlot slot]
  | .vbit p slot _ => [.core p, .groupSlot slot]
  | .vmask p slot _ => [.core p, .groupSlot slot]
  | .vcvt p slot _ => [.core p, .groupSlot slot]
  | .vcvtl p slot _ => [.core p, .groupSlot slot]
  | .vdecl p slot _ => [.core p, .groupSlot slot]
  | .vreblk p slot _ => [.core p, .groupSlot slot]
  | .vseed p slot _ => [.core p, .groupSlot slot]
  | .red p slot _ => [.core p, .groupSlot slot]
  | .rget p slot _ => [.core p, .groupSlot slot]
  | .vown p slot _ => [.core p, .groupSlot slot]
  | .tcopy p slot _ => [.core p, .groupSlot slot]
  | .twait p slot _ => [.core p, .groupSlot slot]
  | .takeDecision p a => [.core p, .array a]
  | .fold p a => [.core p, .array a]
  | .passComplete p a => [.core p, .array a]
  | .veInstructionStart p => [.core p]
  | .reductionTake p => [.core p]
  | .veOwnerPass p => [.core p]
  | .copyTake p ch => [.core p, .moverChannel ch]
  | .copyComplete p ch _ => [.core p, .moverChannel ch]
  | .farResponse p slot => [.core p, .farSlot slot]
  | .blockPlace n => [.ptn n]
  | .blockEnd p b => [.core p, .blockSlot b]
  | .stashReservationGrant n q _ => [.ptn n, .queue q]
  | .preempt n q _ => [.ptn n, .queue q]
  | .preemptedWorkResume n => [.ptn n]
  | .doorbellWrite wr line _ _ => wr.map .hostWrite ++ [.doorbellLine line]
  | .entryRead n q => [.ptn n, .queue q]
  | .headerCheck n q _ => [.ptn n, .queue q]
  | .bodyCheck n q _ => [.ptn n, .queue q]
  | .progLoad n q _ => [.ptn n, .queue q]
  | .dispatch n q _ => [.ptn n, .queue q]
  | .copy n q _ => [.ptn n, .queue q]
  | .fill n q _ => [.ptn n, .queue q]
  | .accumulate n q _ => [.ptn n, .queue q]
  | .update n q _ => [.ptn n, .queue q]
  | .precondRoot n q _ => [.ptn n, .queue q]
  | .fix n q _ => [.ptn n, .queue q]
  | .barrier n q _ => [.ptn n, .queue q]
  | .map n q _ => [.ptn n, .queue q]
  | .unmap n q _ => [.ptn n, .queue q]
  | .ctxCreate n _ => [.ptn n]
  | .ctxDestroy n _ => [.ptn n]
  | .queueCreate n _ => [.ptn n]
  | .queueDestroy n _ => [.ptn n]
  | .queueResume n _ => [.ptn n]
  | .fenceCreate n _ => [.ptn n]
  | .fenceDestroy n _ => [.ptn n]
  | .fenceReset n _ => [.ptn n]
  | .memCreate n _ => [.ptn n]
  | .memDestroy n _ => [.ptn n]
  | .memSettle n _ => [.ptn n]
  | .revokeOwner n _ => [.ptn n]
  | .teardownTimeout c => [.ctx c]
  | .ctxIdFree c => [.ctx c]
  | .commandRetire n q _ => [.ptn n, .queue q]
  | .slotDrained n q _ => [.ptn n, .queue q]
  | .publish n q _ => [.ptn n, .queue q]
  | .updatePeerTimeout n q _ => [.ptn n, .queue q]
  | .trainingExchange port _ _ _ => [.port port]
  | .trainingRetry port => [.port port]
  | .frameReceived port _ => [.port port]
  | .laneLossOfLock port lane => [.port port, .lane lane]
  | .retrainComplete port _ _ => [.port port]
  | .retrainTimeout port => [.port port]
  | .readRequest _ => []
  | .readResponse _ => []
  | .write _ => []
  | .acknowledgement _ => []
  | .atomic _ => []
  | .atomicResponse _ => []
  | .fenceNotice _ => []
  | .openNotice _ => []
  | .packetForward _ => []
  | .fenceNoticeResend _ => []
  | .remoteTimeout t => t.operands
  | .channelTrained c => [.memChannel c]
  | .rateStepDown c => [.memChannel c]
  | .perBankRefresh c bank => [.memChannel c, .bank bank]
  | .refreshRateCheck c _ => [.memChannel c]
  | .patrolScrub c _ => [.memChannel c]
  | .frameMigrated => []
  | .channelRetrainDone c => [.memChannel c]
  | .deviceCorrectionRead c _ => [.memChannel c]
  | .helmLimitWrite w => [.agent w.agent]
  | .passSchedWrite n w => [.ptn n, .agent w.agent]
  | .stashCfgWrite n w => [.ptn n, .agent w.agent]
  | .holdModeWrite n w => [.ptn n, .agent w.agent]
  | .holdOwnerWrite n w => [.ptn n, .agent w.agent]
  | .nvBearingWrite w => [.agent w.agent]
  | .nvPortCtlDown port w => [.port port, .agent w.agent]
  | .nvPortCtlRetrain port w => [.port port, .agent w.agent]
  | .nvDetourCommit w => [.agent w.agent]
  | .nvDetourLoad w => [.agent w.agent]
  | .nvPeerCommit w => [.agent w.agent]
  | .nvPeerLoad w => [.agent w.agent]
  | .memChanCtlRetire c w => [.memChannel c, .agent w.agent]
  | .memChanCtlRetrain c w => [.memChannel c, .agent w.agent]
  | .memChanCtlClearRetired c w => [.memChannel c, .agent w.agent]
  | .ptnLayoutWrite w => [.agent w.agent]
  | .ptnOpen n w => [.ptn n, .agent w.agent]
  | .ptnClose n w => [.ptn n, .agent w.agent]
  | .ptnSealWrite n w => [.ptn n, .agent w.agent]
  | .fltRingWrite w => [.agent w.agent]
  | .fltInjectArm w => [.agent w.agent]
  | .fixRestoreGo n w => [.ptn n, .agent w.agent]
  | .fwCtlGo w => [.agent w.agent]
  | .imageRunning target _ => [.fwTarget target]
  | .imageTimeout target => [.fwTarget target]
  | .pkgPowerOff w => [.agent w.agent]
  | .pkgPowerOn w _ => [.agent w.agent]
  | .setupErrClear w => [.agent w.agent]
  | .counterDataRead agent _ => [.agent agent]
  | .adminqCtlWrite n w => [.ptn n, .agent w.agent]
  | .fenceMirrorWrite n w => [.ptn n, .agent w.agent]
  | .hostPoolWrite w => [.agent w.agent]
  | .mbxLockRead agent ch => [.agent agent, .mailbox ch]
  | .mbxMsgWrite agent ch _ => [.agent agent, .mailbox ch]
  | .mbxMsgRead agent ch => [.agent agent, .mailbox ch]
  | .mbxPostDest wr agent ch _ => wr.map .hostWrite ++ [.agent agent, .mailbox ch]
  | .mbxPostUnlock agent ch => [.agent agent, .mailbox ch]
  | .registerWrite _ w => [.agent w.agent]
  | .logbookEntry => []
  | .openSession => []
  | .prove => []
  | .closeSession => []
  | .attest => []
  | .sink => []
  | .revoke => []
  | .readLogbook => []
  | .selfRecalibrate => []
  | .installMeterImage => []
  | .sessionProveTimeout agent => [.agent agent]
  | .meterSample _ => []
  | .referenceStrobe _ => []
  | .countFrame die _ => [.computeDie die]
  | .meterFrame => []
  | .channelCompare => []
  | .intervalEnd => []
  | .periodicRecalibration ch => [.meterChannel ch]
  | .recalibrationDone ch => [.meterChannel ch]
  | .wearBucket => []
  | .helmControlStep die _ => [.computeDie die]
  | .regulatorSettled die => [.computeDie die]
  | .helmStep die => [.computeDie die]
  | .meterFrames => []
  | .paceStrobe die => [.die die]
  | .thermalTrip die _ => [.die die]
  | .supplyLow rail => [.rail rail]
  | .regulatorFault rail => [.rail rail]
  | .hang n q _ => [.ptn n, .queue q]
  | .handshake p => [.core p]
  | .qmStall n => [.ptn n]
  | .keeperWatchdog => []
  | .resetEntered _ => []
  | .resetHang _ => []
  | .errorRecordClose _ => []
  | .irqGapEnd vector => [.vector vector]
  | .jointDown j => [.joint j]
  | .pcieError port => [.pciePort port]
  | .powerOn _ => []
  | .railCheck _ => []
  | .railRetry => []
  | .powerLoss => []
  | .bootWindowLoad _ => []
  | .hostSoftwareRestart agent => [.agent agent]
  | .hostBootImageLoaded _ => []

/-- A well-formed command: every unit it names exists. -/
def Instr.wf (i : Instr) : Bool := i.operands.all Operand.ok

end Sys2Proof
end

