-- ==== Sys2Proof/Machine/Ops.lean ====
section
/-! DEFINITION. The named operations on the state that every family of commands shares: units by number, registers,
free choices, Dealer events, interrupts, main memory with its ECC, partitions' frames, object states, fences, error
records and the logbook. -/

namespace Sys2Proof.Machine

/-- The outcome of a step. -/
abbrev Out := Host.Outcome State Fault Refusal

/-- A command that names a unit that does not exist stops (Fault.noSuchUnit); every other one answers s. -/
def onWf (i : Instr) (s : State) : Out := if i.wf then .next s else .fault .noSuchUnit

/-! ### Units by number -/

/-- Core p. -/
def State.core (s : State) (p : Nat) : Core := Tab.get s.cores p Core.reset
/-- Replaces core p. -/
def State.setCore (s : State) (p : Nat) (c : Core) : State := { s with cores := Tab.set s.cores p c }
/-- Partition n. -/
def State.ptn (s : State) (n : Nat) : Ptn := Tab.get s.ptns n Ptn.reset
/-- Replaces partition n. -/
def State.setPtn (s : State) (n : Nat) (x : Ptn) : State := { s with ptns := Tab.set s.ptns n x }
/-- Die d. -/
def State.die (s : State) (d : Nat) : Die := Tab.get s.dies d Die.reset
/-- Replaces die d. -/
def State.setDie (s : State) (d : Nat) (x : Die) : State := { s with dies := Tab.set s.dies d x }
/-- Memory channel c. -/
def State.chan (s : State) (c : Nat) : Chan := Tab.get s.chans c Chan.reset
/-- Replaces channel c. -/
def State.setChan (s : State) (c : Nat) (x : Chan) : State := { s with chans := Tab.set s.chans c x }
/-- Nivan port k. -/
def State.port (s : State) (k : Nat) : Port := Tab.get s.links.ports k Port.reset
/-- Replaces port k. -/
def State.setPort (s : State) (k : Nat) (x : Port) : State :=
  { s with links := { s.links with ports := Tab.set s.links.ports k x } }
/-- The open context named by id and generation. -/
def State.ctx? (s : State) (c : CtxId) : Option Ctx :=
  (Tab.get? s.ctxs c.id).bind (fun x => if x.gen = c.gen then some x else none)
/-- Replaces context id. -/
def State.setCtx (s : State) (id : Nat) (x : Ctx) : State := { s with ctxs := Tab.set s.ctxs id x }
/-- Changes the meter die's state. -/
def State.setMeter (s : State) (m : Meter) : State := { s with meter := m }
/-- Changes the Dealer's state. -/
def State.setDealer (s : State) (d : Dealer) : State := { s with dealer := d }
/-- Changes the links' state. -/
def State.setLinks (s : State) (l : Links) : State := { s with links := l }
/-- Changes the set-up block. -/
def State.setSetup (s : State) (u : Setup) : State := { s with setup := u }
/-- Changes the package. -/
def State.setPkg (s : State) (p : Pkg) : State := { s with pkg := p }

/-- Array a of a core's work. -/
def Work.array (w : Work) (a : Nat) : MxArray := Tab.get w.arrays a MxArray.reset
/-- Replaces array a. -/
def Work.setArray (w : Work) (a : Nat) (x : MxArray) : Work := { w with arrays := Tab.set w.arrays a x }
/-- Channel ch of the tensor mover. -/
def Work.chan (w : Work) (ch : Nat) : Channel := Tab.get w.chans ch ⟨[], []⟩
/-- Replaces channel ch. -/
def Work.setChan (w : Work) (ch : Nat) (x : Channel) : Work := { w with chans := Tab.set w.chans ch x }
/-- The group in a slot, if the slot is in use. -/
def Work.group? (w : Work) (slot : Nat) : Option Group := Tab.get? w.groups slot
/-- Replaces the group in a slot. -/
def Work.setGroup (w : Work) (slot : Nat) (g : Group) : Work := { w with groups := Tab.set w.groups slot g }
/-- Replaces a core's work. -/
def Core.setWork (c : Core) (w : Work) : Core := { c with work := w }
/-- Replaces the work of core p. -/
def State.setWork (s : State) (p : Nat) (w : Work) : State := s.setCore p ((s.core p).setWork w)
/-- The work of core p. -/
def State.work (s : State) (p : Nat) : Work := (s.core p).work

/-- Adds k to counter i of a core, modulo 2^64 (R33, R242). -/
def Core.count (c : Core) (i k : Nat) : Core :=
  { c with counters := Tab.set c.counters i (Tab.get c.counters i 0 + BitVec.ofNat 64 k) }
/-- Adds k to counter i of core p. -/
def State.count (s : State) (p i k : Nat) : State := s.setCore p ((s.core p).count i k)
/-- Adds k to a partition counter (R371, R558). -/
def State.countPtn (s : State) (n i k : Nat) : State :=
  let x := s.ptn n
  s.setPtn n { x with counters := Tab.set x.counters i (Tab.get x.counters i 0 + BitVec.ofNat 64 k) }
/-- Adds k to a package counter (R558). -/
def State.countPkg (s : State) (i k : Nat) : State :=
  s.setLinks { s.links with counters := Tab.set s.links.counters i (Tab.get s.links.counters i 0 + BitVec.ofNat 64 k) }
/-- Adds k to a counter of port j. -/
def State.countPort (s : State) (j i k : Nat) : State :=
  let x := s.port j
  s.setPort j { x with counters := Tab.set x.counters i (Tab.get x.counters i 0 + BitVec.ofNat 64 k) }
/-- Adds k to a counter of memory channel c (R454). -/
def State.countChan (s : State) (c i k : Nat) : State :=
  let x := s.chan c
  s.setChan c { x with counters := Tab.set x.counters i (Tab.get x.counters i 0 + BitVec.ofNat 64 k) }
/-- Adds k to a die counter (R497): entry 0 deck, 1 hold, 2 joint. -/
def State.countDie (s : State) (d i k : Nat) : State :=
  let t := s.dealer.dieCounters
  s.setDealer { s.dealer with dieCounters := Tab.set t (3 * d + i) (Tab.get t (3 * d + i) 0 + BitVec.ofNat 64 k) }

/-! ### Registers -/

/-- The stored value of the register at an offset, or its default (R17). -/
def State.reg (s : State) (o : Nat) : DWord :=
  (Tab.get? s.setup.regs o).getD (regDefault s.pkg.straps s.meter.nvExt s.meter.nvCoord o)
/-- Stores a register value. -/
def State.setReg (s : State) (o : Nat) (v : DWord) : State :=
  s.setSetup { s.setup with regs := Tab.set s.setup.regs o v }
/-- Field [hi:lo] of the register at an offset. -/
def State.field (s : State) (o hi lo : Nat) : Nat := fld (s.reg o) hi lo
/-- Sets field [hi:lo] of the register at an offset. -/
def State.setField (s : State) (o hi lo x : Nat) : State := s.setReg o (setFld (s.reg o) hi lo x)

/-- The number of partitions of the present layout (R455). -/
def State.ptnCount (s : State) : Nat := layoutCount (s.field Reg.ptnLayout 1 0)
/-- Partition n is open: PTN_CTL.OPEN and opened (R460). -/
def State.isOpen (s : State) (n : Nat) : Bool :=
  n < s.ptnCount && s.field (Reg.ptnCtl n) 0 0 == 1 && (s.ptn n).ready
/-- The number of memory devices per compute die; MEMPOP 3 trains none (R536). -/
def State.devices (s : State) : Nat :=
  let m := strapMempop s.pkg.straps
  if m = 3 then 0 else m + 4
/-- This package's number (R415). -/
def State.pkgNo (s : State) : Nat := s.field Reg.nvBearing 11 0
/-- The extents, each less one, by dimension 0 X, 1 Y, 2 Z (R431). -/
def State.ext (s : State) (dim : Nat) : Nat := s.field Reg.nvBearing (15 + 4 * dim) (12 + 4 * dim)
/-- Whether a package number names a package (R415): each coordinate below its extent, extents set. -/
def State.namesPkg (s : State) (pkg : Nat) : Bool :=
  s.field Reg.nvBearing 24 24 == 1 && bits pkg 3 0 ≤ s.ext 0 && bits pkg 7 4 ≤ s.ext 1 && bits pkg 11 8 ≤ s.ext 2

/-! ### Ownership (R456, R457) -/

/-- The partition that owns core p. -/
def State.ptnOfCore (s : State) (p : Nat) : Nat :=
  let l := s.field Reg.ptnLayout 1 0
  if l = 0 then 0 else if l = 1 then p / 48 else 4 * (p / 48) + (p % 48) / 12
/-- The cores of partition n in ascending physical number. -/
def State.coresOf (s : State) (n : Nat) : List Nat := (List.range 192).filter (fun p => s.ptnOfCore p == n)
/-- The hold quarters of partition n, numbered 4 x die + quarter, ascending. -/
def State.quartersOf (s : State) (n : Nat) : List Nat :=
  let l := s.field Reg.ptnLayout 1 0
  if l = 0 then List.range 16 else if l = 1 then (List.range 4).map (4 * n + ·) else [n]
/-- The partition that owns compute channel c. -/
def State.ptnOfChan (s : State) (c : Nat) : Option Nat :=
  let l := s.field Reg.ptnLayout 1 0
  let n := s.devices
  if 8 * n ≤ c % 48 then none
  else if l = 0 then some 0
  else if l = 1 then some (c / 48)
  else some (4 * (c / 48) + (c % 48) / (2 * n))
/-- The channels of partition n in the order of R457, those in service only. -/
def State.chansOf (s : State) (n : Nat) : List Nat :=
  let all := if s.field Reg.ptnLayout 1 0 = 0 then (List.range 192).map (fun i => 48 * (i % 4) + i / 4) else List.range 192
  all.filter (fun c => s.ptnOfChan c == some n && ((s.chan c).state == 2 || (s.chan c).state == 3))
/-- The dies that partition n has cores on. -/
def State.diesOf (s : State) (n : Nat) : List Nat :=
  let l := s.field Reg.ptnLayout 1 0
  if l = 0 then List.range 4 else if l = 1 then [n] else [n / 4]

/-! ### Free choices (log entry 7) -/

/-- Draws one of the listed choices, as the Peray chooses: none when there is none. Log entry 7 (DESIGN CHOICE). -/
def State.pick (s : State) (l : List Nat) : Option Nat :=
  if l.length = 0 then none else l[Config.choice s.fresh % l.length]?
/-- Marks a draw as made. Log entry 7 (DESIGN CHOICE). -/
def State.drawn (s : State) : State := { s with fresh := s.fresh + 1 }

/-- The first number at or after a start, cyclically below n, that passes a test; fuel bounds the tries. -/
def nextFree (n : Nat) (ok : Nat → Bool) : Nat → Nat → Option Nat
  | 0, _ => none
  | fuel + 1, i => if ok (i % n) then some (i % n) else nextFree n ok fuel (i + 1)

/-- A free index of a table with n places, which one the Peray chooses (R333): the choice is free among free indexes.
Log entry 7 (DESIGN CHOICE). -/
def State.pickIndex (s : State) {α : Type} (t : Table α) (n : Nat) (also : Nat → Bool) : Option Nat :=
  if n = 0 then none
  else nextFree n (fun i => (Tab.get? t i).isNone && also i) n (Config.choice s.fresh % n)

/-! ### The Dealer -/

/-- Takes a Dealer event with the next sequence number (R463). -/
def State.raise (s : State) (k : EventKind) (a b : Nat) : State :=
  s.setDealer { s.dealer with seq := s.dealer.seq + 1, events := s.dealer.events ++ [⟨s.dealer.seq + 1, k, a, b⟩] }

/-- Takes the next Dealer number for something that orders events but is none itself (R463). -/
def State.tick (s : State) : State := s.setDealer { s.dealer with seq := s.dealer.seq + 1 }

/-- An interrupt of a vector goes to the host die's interrupt controller in self-hosted mode, and to MSI-X on PCIe port 0 in
endpoint mode (R361). -/
def State.fireIrq (s : State) (v : Nat) : State :=
  let d := s.dealer
  s.setDealer (if strapEndpoint s.pkg.straps then { d with msix := Tab.set d.msix v (Tab.get d.msix v 0 + 1) }
    else { d with irqs := Tab.set d.irqs v (Tab.get d.irqs v 0 + 1) })

/-- Raises an interrupt vector (R361, R484): within the gap the cause is held, else it fires and the gap begins. -/
def State.irq (s : State) (v : Nat) : State :=
  let inGap := (Tab.get s.dealer.gaps v ⟨false, false⟩).inGap
  let s1 := s.setDealer { s.dealer with gaps := Tab.set s.dealer.gaps v ⟨true, inGap⟩ }
  if inGap then s1 else s1.fireIrq v

/-! ### Main memory -/

/-- Data bytes of one channel: CHECK_BASE (R439). -/
def checkBase : Nat := 9512681472
/-- Bytes of host memory data (R440): 8 channels of data. -/
def hostBytes : Nat := 8 * checkBase
/-- Bytes of a frame (R444). -/
def frameBytes : Nat := 2097152

/-- Key of a compute memory byte: channel and channel offset. -/
def cmemKey (c q : Nat) : Nat := c * 2 ^ 34 + q

/-- Key of the 128-byte unit that holds a place's byte (R438); host units follow the compute channels. -/
def unitOf : Place → Nat
  | .chan c q => c * 2 ^ 27 + q / 128
  | .host a => 192 * 2 ^ 27 + a / 128
  | .remote _ _ => 0

/-- The memory channel that holds a place, numbered as MEM_CHAN_CTL (R446). -/
def chanOf : Place → Nat
  | .chan c _ => c
  | .host a => 192 + (a / 4096) % 8
  | .remote _ _ => 0

/-- The place i bytes further on. -/
def Place.plus : Place → Nat → Place
  | .chan c q, i => .chan c (q + i)
  | .host a, i => .host (a + i)
  | .remote p a, i => .remote p (a + i)

/-- The byte held at a place, after correction (R442). -/
def State.byteAt (s : State) : Place → Byte
  | .chan c q => Mem.read s.cmem (cmemKey c q)
  | .host a => Mem.read s.hmem a
  | .remote _ _ => 0

/-- n bytes from a place on. -/
def State.bytesAt (s : State) (pl : Place) (n : Nat) : List Byte := (List.range n).map (fun i => s.byteAt (pl.plus i))

/-- Stores one byte at a place. -/
def State.putByte (s : State) (pl : Place) (x : Byte) : State :=
  match pl with
  | .chan c q => { s with cmem := Mem.write s.cmem (cmemKey c q) x }
  | .host a => { s with hmem := Mem.write s.hmem a x }
  | .remote _ _ => s

/-- Stores bytes from a place on. -/
def State.putBytes (s : State) (pl : Place) : List Byte → State
  | [] => s
  | x :: xs => (s.putByte pl x).putBytes (pl.plus 1) xs

/-- The units that n bytes from a place touch. -/
def unitsOf (pl : Place) (n : Nat) : List Nat :=
  let u := unitOf pl
  (List.range (unitOf (pl.plus (n - 1)) - u + 1)).map (u + ·)

/-- The units that n bytes from a place cover whole (R441, R442). -/
def unitsWhole (pl : Place) (n : Nat) : List Nat :=
  let off := match pl with
    | .chan _ q => q
    | .host a => a
    | .remote _ _ => 0
  let u := unitOf pl
  (unitsOf pl n).filter (fun v => off ≤ (off / 128 + (v - u)) * 128 && (off / 128 + (v - u)) * 128 + 128 ≤ off + n)

/-- A write of a unit whose storage detector is armed corrupts one unit or word: one bit for the first detector listed,
two bits for the others (R492). -/
def State.corrupt (s : State) (dets : List Nat) (target key : Nat) : State :=
  match s.dealer.armed.find? (fun a => dets.contains a.detector && a.target == target && a.count != 0) with
  | none => s
  | some a =>
    let less (b : Armed) : Armed :=
      if b.detector == a.detector && b.target == a.target then { b with count := b.count - 1 } else b
    let s1 := { s with flips := Tab.set s.flips key (if dets.head? = some a.detector then 1 else 2) }
    s1.setDealer { s1.dealer with armed := s1.dealer.armed.map less }

/-- A write at a place (R441, R442): the bytes are stored; units covered whole get a good check word. An armed storage
detector of the channel then corrupts one unit of the write (R492). -/
def State.store (s : State) (pl : Place) (bs : List Byte) : State :=
  if bs.length = 0 then s
  else
    let s1 := s.putBytes pl bs
    let w := unitsWhole pl bs.length
    let s2 := { s1 with poison := s1.poison.filter (fun u => !w.contains u),
                        flips := s1.flips.filter (fun e => !w.contains e.1) }
    s2.corrupt [0x07, 0x08, 0x21] (chanUnit (chanOf pl)) (unitOf pl)

/-- Writes host memory as the Dealer, the meter die or a queue manager does. -/
def State.hostWrite (s : State) (a : Nat) (bs : List Byte) : State := s.store (.host a) bs
/-- Reads host memory. Log entry 63 (DEDUCED). -/
def State.hostRead (s : State) (a n : Nat) : List Byte := Mem.bytes s.hmem a n

/-- Frames of one channel (R439). -/
def chanFrames : Nat := 4536

/-- The channel frame of a partition frame (R444): dealt in turn, or as moved since; none where removed (R450). -/
def Ptn.frame? (x : Ptn) (f : Nat) : Option (Nat × Nat) :=
  let k := x.deal.length
  let at_ := match Tab.get? x.frameMap f with
    | some e => some e
    | none => if f < k * chanFrames then (x.deal[f % k]?).map (fun c => (c, f / k)) else none
  at_.filter (fun e => !x.gone.contains e.1)

/-- The number of frames the partition was dealt. -/
def Ptn.frameCount (x : Ptn) : Nat := x.deal.length * chanFrames

/-- The partition frame that lies at a channel frame. -/
def Ptn.frameAt (x : Ptn) (c i : Nat) : Option Nat :=
  match x.frameMap.find? (fun e => e.2 == (c, i)) with
  | some e => some e.1
  | none =>
    (x.deal.findIdx? (· == c)).bind (fun k =>
      let f := i * x.deal.length + k
      if (Tab.get? x.frameMap f).isNone && i < chanFrames && !x.gone.contains c then some f else none)

/-- Where offset a of partition n's compute memory lies (R444, R445). -/
def State.ptnPlace (s : State) (n a : Nat) : Option Place :=
  ((s.ptn n).frame? (a / frameBytes)).map (fun cf => .chan cf.1 (cf.2 * frameBytes + a % frameBytes))

/-- The bank of R309 that a place lies in: channel, rank and bank as one number (R445). -/
def bankOf (pl : Place) : Nat :=
  let q := match pl with
    | .chan _ q => q
    | .host a => (a / 32768) * 4096 + a % 4096
    | .remote _ _ => 0
  chanOf pl * 32 + (q / 32768 % 2) * 16 + q / 2048 % 16

/-! ### Objects (R338 to R341, R465) -/

/-- Slot k of an object. -/
def MemObj.slot (o : MemObj) (k : Nat) : SlotState := (o.slots[k]?).getD ⟨.settled, 0, false, 0⟩
/-- Replaces slot k. -/
def MemObj.setSlot (o : MemObj) (k : Nat) (x : SlotState) : MemObj := { o with slots := setAt o.slots k x }
/-- Bytes of a page. -/
def MemObj.pageBytes (o : MemObj) : Nat := if o.big then 2097152 else 65536
/-- Bytes of one slot. -/
def MemObj.bytes (o : MemObj) : Nat := o.pages * o.pageBytes
/-- The slot of the current generation (R169): 0 for a plain object. -/
def MemObj.current (o : MemObj) : Nat := if o.slots.length ≤ 1 then 0 else o.gen % o.slots.length
/-- Whether it is a weight object (R338). -/
def MemObj.isWeight (o : MemObj) : Bool := 1 < o.slots.length

/-- A handle (R331). -/
def mkHandle (kind gen index : Nat) : Nat := index + 2 ^ 20 * gen + 2 ^ 28 * kind

/-- Replaces object i of partition n. -/
def State.setObj (s : State) (n i : Nat) (o : MemObj) : State :=
  let x := s.ptn n
  s.setPtn n { x with objs := Tab.set x.objs i o }

/-- Puts slot k of object i in a state, raising the change and OBJECT_UNSETTLED where it becomes so (R463, R465). -/
def State.setObjState (s : State) (n i k : Nat) (st : ObjState) : State :=
  match Tab.get? (s.ptn n).objs i with
  | none => s
  | some o =>
    let sl := o.slot k
    if sl.st = st then s
    else
      let s1 := s.setObj n i (o.setSlot k { sl with st := st })
      let h := mkHandle 3 (Tab.get (s.ptn n).oGens i 0) i
      let s2 := s1.raise .objectState h k
      if st = .unsettled then s2.raise .objectUnsettled h k else s2

/-- A command that writes slot k of object i starts (R339). -/
def State.startWriter (s : State) (n : Nat) (w : Nat × Nat) : State :=
  match Tab.get? (s.ptn n).objs w.1 with
  | none => s
  | some o =>
    let sl := o.slot w.2
    let s1 := s.setObj n w.1 (o.setSlot w.2 { sl with writers := sl.writers + 1 })
    if sl.st = .settled then s1.setObjState n w.1 w.2 .inFlight else s1

/-- A writer of slot k of object i ends (R339): ok says it ended as the settling rows ask; full that it is a FILL or COPY
that wrote every byte. -/
def State.endWriter (s : State) (n : Nat) (ok full : Bool) (w : Nat × Nat) : State :=
  match Tab.get? (s.ptn n).objs w.1 with
  | none => s
  | some o =>
    let sl := o.slot w.2
    let rest := sl.writers - 1
    let bad := sl.failed || !ok
    let sl' := { sl with writers := rest, failed := bad }
    let s1 := s.setObj n w.1 (o.setSlot w.2 sl')
    if !ok then s1.setObjState n w.1 w.2 .unsettled
    else if rest = 0 && sl.st = .inFlight && !bad then s1.setObjState n w.1 w.2 .settled
    else if rest = 0 && full then
      (s1.setObj n w.1 (o.setSlot w.2 { sl' with failed := false })).setObjState n w.1 w.2 .settled
    else s1

/-- Makes slot k of object i settled outright (MEM_SETTLE, a restore; R339, R363, R490). -/
def State.settleSlot (s : State) (n i k : Nat) : State :=
  match Tab.get? (s.ptn n).objs i with
  | none => s
  | some o => (s.setObj n i (o.setSlot k { o.slot k with failed := false })).setObjState n i k .settled

/-- The object of partition n whose pages hold byte a of the partition's compute memory, with the slot. -/
def Ptn.objAt (x : Ptn) (host : Bool) (a : Nat) : Option (Nat × Nat) :=
  (x.objs.find? (fun e => e.2.host == host && e.2.bases.any (fun b => 4096 * b ≤ a && a < 4096 * b + e.2.pageBytes))).map
    (fun e => (e.1, ((e.2.bases.findIdx (fun b => 4096 * b ≤ a && a < 4096 * b + e.2.pageBytes)) / max e.2.pages 1)))

/-- The partition address of a channel byte: the frame mapped there (R444). -/
def Ptn.addrOf (x : Ptn) (c q : Nat) : Option Nat :=
  (x.frameAt c (q / frameBytes)).map (fun f => f * frameBytes + q % frameBytes)

/-- The object and slot that hold a place, for partition n. -/
def State.objOf (s : State) (n : Nat) (pl : Place) : Option (Nat × Nat) :=
  let x := s.ptn n
  match pl with
  | .chan c q => (x.addrOf c q).bind (fun a => x.objAt false a)
  | .host a => x.objAt true a
  | .remote _ _ => none

/-- A running command writes an object slot from now on (R339). -/
def State.writes (s : State) (c : Cid) (w : Nat × Nat) : State :=
  let x := s.ptn c.ptn
  let mine (k : Cmd) : Bool := k.queue == c.queue && k.entry == c.entry
  if x.cmds.any (fun k => mine k && !k.writes.contains w) then
    (s.setPtn c.ptn { x with
      cmds := x.cmds.map (fun k => if mine k then { k with writes := k.writes ++ [w] } else k) }).startWriter c.ptn w
  else s

/-- A running command writes the object that holds a place: a dispatch writes an object from its first write there on. -/
def State.noteWrite (s : State) (c : Cid) (pl : Place) : State :=
  match s.objOf c.ptn pl with
  | none => s
  | some w => s.writes c w

/-! ### Fences (R342 to R349) -/

/-- The mirror word of a fence (R349). -/
def mirrorWord (f : Fence) (seq : Nat) : Nat := b2n f.signalled + 2 * b2n f.error + 2 ^ 16 * (seq % 2 ^ 48)

/-- Writes the mirror word of fence i when the mirror is set (R349, R561). Log entry 56 (DEDUCED). -/
def State.mirror (s : State) (n i : Nat) (f : Fence) : State :=
  let r := s.reg (Reg.fenceMirror n)
  if fld r 0 0 = 1 then s.hostWrite (fld r 51 12 * 4096 + 8 * i) (natLe 8 (mirrorWord f s.dealer.seq)) else s

/-- Stores a fence without an event. -/
def State.putFence (s : State) (n i : Nat) (f : Fence) : State :=
  let x := s.ptn n
  s.setPtn n { x with fences := Tab.set x.fences i f }

/-- Changes a fence: every step is one Dealer event (R343), and a change of its state writes its mirror word (R349). -/
def State.setFence (s : State) (n i : Nat) (f : Fence) : State :=
  let changed := match Tab.get? (s.ptn n).fences i with
    | none => true
    | some g => g.signalled != f.signalled || g.error != f.error
  let s1 := (s.putFence n i f).raise .fence (mkHandle 5 (Tab.get (s.ptn n).fGens i 0) i) (b2n f.signalled + 2 * b2n f.error)
  if changed then s1.mirror n i f else s1

/-- Bytes of an IEEE packet header for the end-to-end CRC (R413): VC, DETOUR, DIE, HOPS and E2E_CRC taken as 0. -/
def pktCrcBytes (p : Packet) : List Byte :=
  natLe 4 (p.type + 2 ^ 8 * p.dest + 2 ^ 20 * p.src) ++
  natLe 4 (p.job + 2 ^ 20 * p.destPtn + 2 ^ 24 * p.srcPtn) ++
  natLe 4 (p.destCtx + 2 ^ 12 * p.destGen + 2 ^ 20 * p.srcCtx) ++
  natLe 4 (p.srcGen + 2 ^ 8 * p.tag + 2 ^ 29 * p.op) ++
  natLe 8 (p.addr + 2 ^ 52 * p.lenM1) ++ natLe 4 p.status ++ natLe 4 0 ++ p.payload

/-- The bytes of a packet in its slots (R413): header and payload, zeros to the end of its last slot. -/
def pktWire (p : Packet) : List Byte :=
  natLe 4 (p.type + 2 ^ 4 * p.vc + 2 ^ 7 * b2n p.detour + 2 ^ 8 * p.dest + 2 ^ 20 * p.src) ++
  natLe 4 (p.job + 2 ^ 20 * p.destPtn + 2 ^ 24 * p.srcPtn + 2 ^ 28 * p.die) ++
  natLe 4 (p.destCtx + 2 ^ 12 * p.destGen + 2 ^ 20 * p.srcCtx) ++
  natLe 4 (p.srcGen + 2 ^ 8 * p.tag + 2 ^ 24 * p.hops + 2 ^ 29 * p.op) ++
  natLe 8 (p.addr + 2 ^ 52 * p.lenM1) ++ natLe 4 p.status ++ natLe 4 p.e2eCrc.toNat ++ p.payload ++
  List.replicate ((32 - p.payload.length % 32) % 32) 0

/-- A packet with its end-to-end CRC set. -/
def pktSeal (p : Packet) : Packet := { p with e2eCrc := crc32 (pktCrcBytes p) }

/-- Virtual channel bit 1 of a packet type: responses and acknowledgements (R418). -/
def respType (t : Nat) : Bool := t == 2 || t == 4 || t == 6

/-! ### Routing out of the package (R417 to R419) -/

/-- Coordinate dim of a package number. -/
def coord (pkg dim : Nat) : Nat := bits pkg (4 * dim + 3) (4 * dim)

/-- The direction (0 +X to 5 −Z) R417 takes from here to a destination: the first dimension that differs, the shorter
way, + when equal; none when it is reached. -/
def State.direction (s : State) (dest : Nat) : Option Nat :=
  let go (d : Nat) : Option Nat :=
    let e := s.ext d + 1
    let up := (coord dest d + e - coord s.pkgNo d % e) % e
    if up = 0 then none else if 2 * up ≤ e then some (2 * d) else some (2 * d + 1)
  (go 0).orElse (fun _ => (go 1).orElse (fun _ => go 2))

/-- Port k is up or retraining in place and not being taken out of service, so routing may choose it (R417, R427). -/
def State.portUp (s : State) (k : Nat) : Bool :=
  let x := s.port k
  (x.state == 2 || x.state == 3) && !x.draining

/-- Whether compute die d belongs to a sealed partition, and which (R473). -/
def State.sealedDie (s : State) (d : Nat) : Option Nat :=
  (List.range s.ptnCount).find? (fun n => s.isOpen n && s.field (Reg.ptnSeal n) 0 0 == 1 && (s.diesOf n).contains d)

/-- Whether traffic of partition n may cross compute die x without entering another party's sealed die (R473). -/
def State.dieFree (s : State) (x n : Nat) : Bool :=
  match s.sealedDie x with
  | none => true
  | some m => m == n

/-- The ring joint of two adjacent compute dies, numbered as R476 numbers it. -/
def ringJoint (a b : Nat) : Nat :=
  if min a b = 0 then (if max a b = 1 then 0 else 3) else if min a b = 1 then 1 else 2

/-- Die i can carry the traffic from compute die a to b: both its joints are up (R23). -/
def State.jointsUp (s : State) (a i b : Nat) : Bool :=
  (Tab.get? s.pkg.joints (ringJoint a i)).isNone && (Tab.get? s.pkg.joints (ringJoint i b)).isNone

/-- The intermediate die that traffic of partition n takes from compute die a to b, none where they are joined: the die in
the source's row, unless a joint on that path is down or another party's sealed die lies there and the other intermediate
die has its joints up (R22, R23, R473). -/
def State.via (s : State) (a b n : Nat) : List Nat :=
  if a + b != 3 || 4 ≤ a || 4 ≤ b then []
  else
    let l := [a ^^^ 1, a ^^^ 2]
    match l.filter (fun i => s.jointsUp a i b && s.dieFree i n) ++ l.filter (fun i => s.jointsUp a i b) with
    | i :: _ => [i]
    | [] => [a ^^^ 1]

/-- The order in which dies are tried for a packet of DIE d: d, d + 1, d + 2, d + 3 (R417); traffic of a party other than
a sealed die's own takes unsealed dies first (R473). -/
def State.dieOrder (s : State) (d ptn : Nat) : List Nat :=
  let l := [d % 4, (d + 1) % 4, (d + 2) % 4, (d + 3) % 4]
  l.filter (fun x => s.dieFree x ptn) ++ l.filter (fun x => !s.dieFree x ptn)

/-- The port a direction is served by, starting from DIE d (R417); in a dimension of extent 2 the other direction serves
when every port of the first is down. -/
def State.portFor (s : State) (d dir ptn : Nat) : Option Nat :=
  let try_ (r : Nat) : Option Nat := ((s.dieOrder d ptn).map (fun x => 6 * x + r)).find? (fun k => s.portUp k)
  (try_ dir).orElse (fun _ => if s.ext (dir / 2) = 1 then try_ (dir / 2 * 2 + (1 - dir % 2)) else none)

/-- The die that a request of partition n from compute die a passes through on its way to a place (R22): to the die whose channel
it is, or to the one whose port its packet leaves by (R417). -/
def State.viaPlace (s : State) (a n : Nat) : Place → List Nat
  | .chan c _ => s.via a (c / 48) n
  | .host _ => []
  | .remote pkg _ => match (s.direction pkg).bind (fun d => s.portFor a d n) with
    | some k => s.via a (k / 6) n
    | none => []

/-- VC bit 0 after leaving in a direction (R418): set at the dateline, cleared on a turn to another dimension. -/
def State.datelineVc (s : State) (dir vc lastDim : Nat) : Nat :=
  let d := dir / 2
  let here := coord s.pkgNo d
  let cross := if dir % 2 = 0 then here == s.ext d else here == 0
  let keep := if lastDim = d then vc % 2 else 0
  if cross then 1 else keep

/-- Sends a packet on its next hop (R417 to R420), or drops it where R419 does. lastDim is the dimension it came in by,
3 for none. Log entry 48 (DEDUCED). -/
def State.sendPacket (s : State) (p : Packet) (lastDim : Nat) : State :=
  match s.direction p.dest with
  | none => s
  | some dir =>
    let put (k dir' : Nat) (det : Bool) : State :=
      let vc := s.datelineVc dir' p.vc lastDim + (if respType p.type then 2 else 0) + (if det then 4 else 0)
      let q : Packet := { p with vc := vc, detour := det, die := k / 6 }
      s.setLinks { s.links with outbox := s.links.outbox ++ [⟨k, q, p, lastDim⟩] }
    match s.portFor p.die dir p.srcPtn with
    | some k => put k dir p.detour
    | none =>
      if p.detour then s.countPkg 1 1
      else
        let e := Tab.get s.links.detours p.dest (0, false)
        let dir2 := if e.2 && e.1 < 6 then e.1 else (2 * (dir / 2 + 1)) % 6
        match s.portFor p.die dir2 p.srcPtn with
        | some k => (put k dir2 true).countPkg 2 1
        | none => s.countPkg 1 1

/-- The signal notice of a fence, by handle and context, to a remote waiter (R347, R413). Its TAG is the waiter's with bit 15
set (log entry 13). -/
def State.signalNotice (s : State) (n h : Nat) (ctx : CtxId) (err : Bool) (w : Waiter) : Packet :=
  pktSeal
    { type := 7, vc := 0, detour := false, dest := w.pkg, src := s.pkgNo, job := ((s.ctx? ctx).map (·.job)).getD 0,
      destPtn := w.ptn, srcPtn := n, die := w.die, destCtx := w.ctx.id, destGen := w.ctx.gen,
      srcCtx := ctx.id, srcGen := ctx.gen, tag := 2 ^ 15 + w.tag % 2 ^ 15, hops := 0, op := 1, addr := 0, lenM1 := 15,
      status := 0, e2eCrc := 0,
      payload := natLe 4 h ++ natLe 4 (1 + 2 * b2n err) ++ natLe 4 w.tag ++ natLe 4 0 }

/-- Sends signal notices to remote waiters; each is kept until it is acknowledged (R426). -/
def State.notify (s : State) (n h : Nat) (ctx : CtxId) (err : Bool) (ws : List Waiter) : State :=
  ws.foldl (fun t w =>
    let p := t.signalNotice n h ctx err w
    (t.setLinks { t.links with notices := t.links.notices ++ [p] }).sendPacket p 3) s

/-- Signals a fence, sending a signal notice to each remote waiter (R343, R347). -/
def State.signalFence (s : State) (n i : Nat) (f : Fence) : State :=
  (s.setFence n i { f with signalled := true, waiters := [] }).notify n (mkHandle 5 (Tab.get (s.ptn n).fGens i 0) i) f.ctx
    f.error f.waiters

/-! ### Error records (R480 to R484) -/

/-- The ring record bytes of R480. -/
def ErrRec.bytes (r : ErrRec) (log2 : Nat) : List Byte :=
  let phase := (r.slot.headD 0 / 2 ^ log2 + 1) % 2
  natLe 4 (r.detector + 2 ^ 8 * r.cls + 2 ^ 11 * b2n r.injected + 2 ^ 12 * b2n r.closed + 2 ^ 13 * b2n r.solo +
      2 ^ 15 * phase + 2 ^ 16 * r.status) ++
  natLe 4 r.reporters ++ natLe 8 r.seq ++ natLe 8 r.closeSeq ++ natLe 4 r.suspect ++ natLe 4 r.reporter ++
  natLe 4 ((r.ctx.headD ⟨0, 0⟩).id + 2 ^ 12 * (r.ctx.headD ⟨0, 0⟩).gen + 2 ^ 20 * r.ptn.headD 0 + 2 ^ 24 * r.ptn.length) ++
  natLe 4 r.paceUs ++ natLe 8 r.d0.toNat ++ natLe 8 r.d1.toNat ++ natLe 8 r.map.toNat

/-- Writes a record that has a place in the ring into host memory. -/
def State.writeRecord (s : State) (r : ErrRec) : State :=
  let f := s.reg Reg.fltRing
  let log2 := fld f 4 0
  match r.slot with
  | [] => s
  | k :: _ => s.hostWrite (fld f 55 16 * 4096 + 64 * (k % 2 ^ log2)) (r.bytes log2)

/-- The REPORTER_MAP bit of a unit code (R480). -/
def reporterBit (u : Nat) : Nat :=
  let kind := bits u 3 0
  let die := bits u 6 4
  let idx := bits u 19 8
  if kind = 1 then (48 * die + idx) / 4
  else if die = 4 then 52 else if die = 5 then 53 else 48 + die

/-- Takes a place in the ring for a record, or counts it lost (R481). -/
def State.placeRecord (s : State) (r : ErrRec) : State × ErrRec :=
  let log2 := s.field Reg.fltRing 4 0
  let w := s.field Reg.fltRingPtr 31 0
  let c := s.field Reg.fltRingPtr 63 32
  if log2 = 0 ∨ (w + 2 ^ 32 - c) % 2 ^ 32 = 2 ^ log2 then (s.countPkg 4 1, { r with slot := [] })
  else (s.setField Reg.fltRingPtr 31 0 ((w + 1) % 2 ^ 32), { r with slot := [w] })

/-- Closes record number i of the open records (R483): CLOSE_SEQ, CLOSED, and an interrupt (R484). -/
def State.closeRecord (s : State) (i : Nat) : State :=
  match s.dealer.records[i]? with
  | none => s
  | some r =>
    let s1 := s.raise .errorClosed r.detector r.suspect
    let r' := { r with closed := true, closeSeq := s1.dealer.seq }
    let s2 := (s1.setDealer { s1.dealer with records := dropAt s1.dealer.records i }).writeRecord r'
    if r.slot = [] then s2 else s2.irq (s2.field Reg.fltRing 15 5)

/-- What a report says (R480). -/
structure Report where
  detector : Nat
  cls      : Nat
  status   : Nat
  suspect  : Nat
  reporter : Nat
  ctx      : List CtxId
  ptn      : List Nat
  d0       : DWord
  d1       : DWord
  injected : Bool
  solo     : Bool
deriving DecidableEq, Repr

/-- A plain report of a detector about a unit, by that unit. -/
def report (det suspect : Nat) : Report :=
  ⟨det, detClass det, 0, suspect, suspect, [], [], 0, 0, false, false⟩

/-- Pace time of the die a unit code names, in µs, low 32 bits (R480). -/
def State.paceUs (s : State) (u : Nat) : Nat := (s.die (bits u 6 4)).pace.toNat / 1000 % 2 ^ 32

/-- Partition n is in solo mode (R487). -/
def State.soloMode (s : State) (n : Nat) : Bool := s.field (Reg.fltSolo n) 12 12 == 1

/-- Reports to the Dealer (R483): folds into the open record of the same detector and suspect, or opens a record; a
seventeenth open record closes the oldest. COUNTED and METER reports make no record (R475). -/
def State.reportErr (s : State) (r : Report) : State :=
  if r.cls = 0 ∨ r.cls = 7 then s
  else
    match s.dealer.records.findIdx? (fun o => o.detector == r.detector && o.suspect == r.suspect) with
    | some i =>
      match s.dealer.records[i]? with
      | none => s
      | some o =>
        let o' := { o with reporters := o.reporters + 1,
                           map := o.map ||| (1 <<< reporterBit r.reporter) }
        (s.setDealer { s.dealer with records := setAt s.dealer.records i o' }).writeRecord o'
    | none =>
      let s0 := if s.dealer.records.length = 16 then s.closeRecord 0 else s
      let s1 := s0.raise .errorRecord r.detector r.suspect
      let rec0 : ErrRec := ⟨[], r.detector, r.cls, r.injected, r.solo || r.ptn.any s.soloMode, false, r.status, 1, s1.dealer.seq, 0, r.suspect,
        r.reporter, r.ctx, r.ptn, s1.paceUs r.reporter, r.d0, r.d1, 1 <<< reporterBit r.reporter⟩
      let (s2, r1) := s1.placeRecord rec0
      let s3 := (s2.setDealer { s2.dealer with records := s2.dealer.records ++ [r1] }).writeRecord r1
      if r1.slot = [] then s3 else s3.irq (s3.field Reg.fltRing 15 5)

/-- Uses up one report of an armed injection (R492): whether there was one. -/
def State.useArmed (s : State) (det target : Nat) : State × Bool :=
  let mine (a : Armed) : Bool := a.detector == det && a.target == target && a.count != 0
  if s.dealer.armed.any mine then
    (s.setDealer { s.dealer with armed := s.dealer.armed.map (fun a => if mine a then { a with count := a.count - 1 } else a) }, true)
  else (s, false)

/-! ### The logbook (R524, R525) -/

/-- Queues a change for the logbook (R525): it takes effect when LOGBOOK_ENTRY stores the entry. Log entry 112 (DEDUCED). -/
def State.pend (s : State) (p : Pending) : State := s.setSetup { s.setup with waiting := s.setup.waiting ++ [p] }

/-- A pending entry with no credential, digest or reply. -/
def pending (kind : Nat) (item old new_ : DWord) (c : Change) : Pending :=
  ⟨kind, false, 0, 0, 0, item, old, new_, [], 0, c, []⟩

/-- The role of an agent's session (R521, R522): 0 for none. -/
def State.roleOf (s : State) (agent : Nat) : Nat := ((Tab.get? s.meter.sessions agent).map (·.role)).getD 0
/-- The leaf certificate's serial of an agent's session. -/
def State.credOf (s : State) (agent : Nat) : Nat := ((Tab.get? s.meter.sessions agent).bind (·.serials.head?)).getD 0

/-! ### Activity counts (R506, R507) -/

/-- Adds units for a context on a die's counters. -/
def addUnits (l : List (Nat × Nat × Nat)) (c : CtxId) (u : Nat) : List (Nat × Nat × Nat) :=
  match l with
  | [] => [(c.id, c.gen, u)]
  | (i, g, v) :: t => if i = c.id ∧ g = c.gen then (i, g, v + u) :: t else (i, g, v) :: addUnits t c u

/-- A compute die counts units for the context whose command issued the work (R507); work for no context counts nothing. -/
def State.activity (s : State) (die : Nat) (c : List CtxId) (units : Nat) : State :=
  match c with
  | [] => s
  | x :: _ =>
    let t := Tab.set s.meter.activity die (addUnits (Tab.get s.meter.activity die []) x units)
    s.setMeter { s.meter with activity := t }

end Sys2Proof.Machine
end

