-- ==== Sys2Proof/Machine/Operands.lean ====
section
/-! DEFINITION. The 64-bit instruction words (R235 to R237, R136, R252, R291): their fields, the registers each names
(R217, R221), the encodings that are reserved, and the operands a thread instruction reads. -/

namespace Sys2Proof.Machine

/-! ### Fields -/

/-- OPCODE (R235). -/
def wOp (w : DWord) : Nat := fld w 7 0
/-- DST of the thread and scalar formats (R236). -/
def wDst (w : DWord) : Nat := fld w 15 8
/-- SRCA. -/
def wA (w : DWord) : Nat := fld w 23 16
/-- SRCB. -/
def wB (w : DWord) : Nat := fld w 31 24
/-- SRCC. -/
def wC (w : DWord) : Nat := fld w 39 32
/-- BSEL. -/
def wBsel (w : DWord) : Nat := fld w 41 40
/-- SUB of the thread format. -/
def wSub (w : DWord) : Nat := fld w 45 42
/-- IMM16. -/
def wImm (w : DWord) : Nat := fld w 63 48
/-- IMM16 sign-extended. -/
def wImmS (w : DWord) : Int := signed 16 (wImm w)

/-- VD of the vector format (R252). -/
def vVd (w : DWord) : Nat := fld w 12 8
/-- VA. -/
def vVa (w : DWord) : Nat := fld w 17 13
/-- VB. -/
def vVb (w : DWord) : Nat := fld w 22 18
/-- VC. -/
def vVc (w : DWord) : Nat := fld w 27 23
/-- MK. -/
def vMk (w : DWord) : Nat := fld w 30 28
/-- MEN. -/
def vMen (w : DWord) : Bool := fld w 31 31 == 1
/-- MZ. -/
def vMz (w : DWord) : Bool := fld w 32 32 == 1
/-- TY. -/
def vTy (w : DWord) : Nat := fld w 34 33
/-- SS. -/
def vSs (w : DWord) : Nat := fld w 40 35
/-- SUB of the vector format. -/
def vSub (w : DWord) : Nat := fld w 44 41
/-- PART. -/
def vPart (w : DWord) : Nat := fld w 47 45
/-- FMT. -/
def vFmt (w : DWord) : Nat := fld w 51 48
/-- SHAPE. -/
def vShape (w : DWord) : Nat := fld w 53 52
/-- CTL. -/
def vCtl (w : DWord) : Nat := fld w 61 54

/-- ARR of the matrix formats (R136). -/
def mArr (w : DWord) : Nat := fld w 9 8
/-- FMT of MPASS and MALT. -/
def mFmt (w : DWord) : Nat := fld w 13 10
/-- FMT of MDRAIN and MZERO. -/
def dFmt (w : DWord) : Nat := fld w 27 24

/-! ### Classes -/

/-- A vector-engine instruction of R253. -/
def isVector (op : Nat) : Bool := 0x80 ≤ op && op ≤ 0x9C && !(op ∈ [0x86, 0x87, 0x93, 0x99])
/-- A matrix instruction of R136. -/
def isMatrix (op : Nat) : Bool := 0xA0 ≤ op && op ≤ 0xA4
/-- A tensor-mover instruction of R291. -/
def isMover (op : Nat) : Bool := op == 0xC0 || op == 0xC1
/-- A thread or control or cooperation instruction of R238. -/
def isThread (op : Nat) : Bool :=
  op ≤ 0x0B || (0x10 ≤ op && op ≤ 0x17) || (0x40 ≤ op && op ≤ 0x44) || op == 0x50 || op == 0x51 ||
  (0x60 ≤ op && op ≤ 0x65) || (0x70 ≤ op && op ≤ 0x74)
/-- A scalar instruction of R238. -/
def isScalar (op : Nat) : Bool := 0xD0 ≤ op && op ≤ 0xD8
/-- An opcode that R235 and the tables it names give no meaning. -/
def opReserved (op : Nat) : Bool := !(isVector op || isMatrix op || isMover op || isThread op || isScalar op)

/-- A group-wide instruction, by the opcode ranges of R225. -/
def groupWide (op : Nat) : Bool :=
  (0xA0 ≤ op && op ≤ 0xA7) || (0x80 ≤ op && op ≤ 0x9F) || (0xC0 ≤ op && op ≤ 0xCF) || op == 0x64

/-- A far access of the thread engine (R238, R232). -/
def isFar (w : DWord) : Bool :=
  let op := wOp w
  op == 0x42 || op == 0x43 || op == 0x44 || ((op == 0x50 || op == 0x51) && wSub w % 2 == 1)

/-- An acquire (R317). -/
def isAcquire (w : DWord) : Bool :=
  let op := wOp w
  ((op == 0x42 || op == 0x44) && 8 ≤ wSub w) || op == 0x50

/-- A release (R316). -/
def isRelease (w : DWord) : Bool :=
  let op := wOp w
  ((op == 0x43 || op == 0x44) && 8 ≤ wSub w) || op == 0x51

/-- An instruction that accesses memory: what an acquire holds back (R317). -/
def isAccess (w : DWord) : Bool :=
  let op := wOp w
  (0x40 ≤ op && op ≤ 0x5F) || (groupWide op && op != 0x64 && op != 0xA4 && op != 0xC1)

/-! ### Registers named -/

/-- The registers an instruction reads and writes: thread registers and scalar registers. -/
structure Uses where
  tr : List Nat
  sr : List Nat
  tw : List Nat
  sw : List Nat
deriving DecidableEq, Repr

/-- The register that BSEL names for operand b (R236). -/
def usesB (w : DWord) : Uses :=
  if wBsel w = 0 then ⟨[wB w], [], [], []⟩ else if wBsel w = 1 then ⟨[], [wB w % 64], [], []⟩ else ⟨[], [], [], []⟩

/-- Both. -/
def Uses.plus (a b : Uses) : Uses := ⟨a.tr ++ b.tr, a.sr ++ b.sr, a.tw ++ b.tw, a.sw ++ b.sw⟩

/-- Registers of a thread-format instruction (R238 and the rules it names): those its operation uses. A field that it does not
use names no register in the sense of R217, which is the model's reading (log entry 128). -/
def usesThread (w : DWord) : Uses :=
  let op := wOp w
  let a := wA w
  let d := wDst w
  let sub := wSub w
  if op ≤ 0x17 then
    let c := if op = 0x0A ∨ op = 0x12 then [wC w] else []
    (if op < 0x15 then usesB w else ⟨[], [], [], []⟩).plus ⟨a :: c, [], [d], []⟩
  else if op = 0x40 then ⟨[a], [], [d], []⟩
  else if op = 0x41 then (usesB w).plus ⟨[a], [], [], []⟩
  else if op = 0x42 then
    ⟨[a, a + 1], if 8 ≤ sub ∧ wB w / 64 = 1 then [wB w % 64, wB w % 64 + 1] else [], [d], []⟩
  else if op = 0x43 then (usesB w).plus ⟨[a, a + 1], [], [], []⟩
  else if op = 0x44 then (usesB w).plus ⟨[a, a + 1] ++ (if sub % 8 = 4 then [wC w] else []), [], [d], []⟩
  else if op = 0x50 then ⟨a :: (if sub % 2 = 1 then [a + 1] else []), [], [d, d + 1], []⟩
  else if op = 0x51 then ⟨a :: (if sub % 2 = 1 then [a + 1] else []), [], [d], []⟩
  else if op = 0x60 then ⟨[a], [], [], []⟩
  else if op = 0x70 then
    (if sub % 8 = 3 then ⟨[], [], [], []⟩ else usesB w).plus
      ⟨a :: (if sub = 1 ∨ sub = 2 then [wC w] else []), [], [d], []⟩
  else if op = 0x71 then (if 8 ≤ sub then usesB w else ⟨[], [], [], []⟩).plus ⟨[a], [], [d], []⟩
  else if op = 0x72 then ⟨a :: (if sub = 2 then [a + 1] else []), [], [], [d]⟩
  else if op = 0x73 then ⟨[], [a], d :: (if sub = 2 then [d + 1] else []), []⟩
  else if op = 0x74 then ⟨[], [], [d], []⟩
  else ⟨[], [], [], []⟩

/-- Registers of a scalar-format instruction (R237, R238). -/
def usesScalar (w : DWord) : Uses :=
  let op := wOp w
  let b := if wBsel w = 0 then [wB w % 64] else []
  if op = 0xD7 then ⟨[], [wDst w % 64], [], [wDst w % 64]⟩
  else if op = 0xD8 then ⟨[], b, [], [wDst w % 64]⟩
  else ⟨[], wA w % 64 :: b, [], [wDst w % 64]⟩

/-- Whether a vector-engine instruction takes its operand s[SS] from the group at issue (R253 to R260). -/
def veReadsS (w : DWord) : Bool :=
  let op := wOp w
  let sub := vSub w
  (0x80 ≤ op && op ≤ 0x83) || (op == 0x84 && sub == 0) || (op == 0x92 && 5 ≤ sub && sub ≤ 7) || op == 0x95 ||
    op == 0x96 || op == 0x97 || op == 0x98

/-- Whether a vector-engine instruction writes s[SS] when the engine runs it (R256, R258, R260, R266). -/
def veWritesS (w : DWord) : Bool :=
  let op := wOp w
  let sub := vSub w
  (op == 0x92 && (sub == 8 || sub == 9)) || ((op == 0x95 || op == 0x97) && !ctlSupplied (vCtl w)) ||
    (op == 0x9B && sub < 4)

/-- The registers an instruction names. -/
def uses (w : DWord) : Uses :=
  let op := wOp w
  if isThread op then usesThread w
  else if isScalar op then usesScalar w
  else if isVector op then ⟨[], if veReadsS w then [vSs w] else [], [], if veWritesS w then [vSs w] else []⟩
  else if op = 0xA0 then ⟨[], [fld w 33 28, fld w 39 34, fld w 45 40, fld w 51 46], [], []⟩
  else if op = 0xA1 then ⟨[], [fld w 24 19, fld w 30 25, fld w 36 31, fld w 42 37, fld w 48 43], [], []⟩
  else if op = 0xA2 then ⟨[], [fld w 33 28, fld w 45 40], [], []⟩
  else if op = 0xA3 then ⟨[], [fld w 45 40], [], []⟩
  else if op = 0xC0 then ⟨[], [fld w 15 10, fld w 21 16, fld w 27 22], [], []⟩
  else ⟨[], [], [], []⟩

/-! ### Reserved encodings of the thread and scalar formats -/

/-- The SUB values that R238, R239 and the rules they name give a meaning. -/
def subOk (op sub : Nat) : Bool :=
  if op ∈ [0x03, 0x08, 0x14, 0x50, 0x51, 0x60, 0xD6] then sub ≤ 1
  else if op = 0x09 then sub ≤ 5
  else if op = 0x0B ∨ op = 0x13 ∨ op = 0xD7 then sub ≤ 3
  else if op ∈ [0x15, 0x72, 0x73] then sub ≤ 2
  else if op = 0x40 then sub % 4 ≠ 3 && sub < 8
  else if op = 0x41 then sub < 3
  else if op = 0x42 then sub % 4 ≠ 3
  else if op = 0x43 then sub % 4 ≠ 3 && sub / 4 % 2 = 0
  else if op = 0x44 then sub % 8 ≤ 4
  else if op = 0x70 then sub ≤ 4
  else if op = 0x71 then sub % 8 ≤ 5 || sub = 6
  else sub = 0

/-- Whether a thread register number may be named by a program with NREG registers (R217). -/
def tregOk (nreg r : Nat) : Bool := r == 255 || r < nreg

/-- A thread-format word that is no reserved encoding (R217, R219, R228, R232, R236, R238, R239, R319). -/
def threadLegal (nreg : Nat) (w : DWord) : Bool :=
  let op := wOp w
  let u := usesThread w
  subOk op (wSub w) && fld w 47 46 == 0 && wBsel w != 3 && !(wBsel w == 1 && 64 ≤ wB w) &&
  (u.tr ++ u.tw).all (tregOk nreg) &&
  !(op == 0x42 && 8 ≤ wSub w && (wBsel w != 0 || wB w / 64 == 3 || (wB w / 64 == 1 && wB w % 64 == 63))) &&
  !(isFar w && 253 < wA w) && !(op == 0x50 && 253 < wDst w) && !(op == 0x50 && nreg ≤ wDst w + 1) &&
  !(op == 0x70 && (wImm w / 2048 != 0 || 5 < wImm w / 256 % 8)) && !(op == 0x74 && 12 ≤ wImm w % 16) &&
  !(op == 0x72 && 64 ≤ wDst w) && !(op == 0x73 && 64 ≤ wA w)

/-- A scalar-format word that is no reserved encoding (R237, R238). -/
def scalarLegal (w : DWord) : Bool :=
  subOk (wOp w) (wSub w) && fld w 47 46 == 0 && (wBsel w == 0 || wBsel w == 2) && wC w == 0 &&
  wDst w < 64 && wA w < 64 && wB w < 64

/-! ### Registers of a group -/

/-- Thread register r of a lane: 255 reads zero (R217). -/
def Group.t (g : Group) (r lane : Nat) : Word := if r = 255 then 0 else Tab.get g.tregs (32 * r + lane) 0

/-- Writes thread register r of a lane: 255 discards (R217). -/
def Group.setT (g : Group) (r lane : Nat) (v : Word) : Group :=
  if r = 255 then g else { g with tregs := Tab.set g.tregs (32 * r + lane) v }

/-- Scalar register r (R218). -/
def Group.s (g : Group) (r : Nat) : DWord := Tab.get g.sregs r 0

/-- Writes scalar register r. -/
def Group.setS (g : Group) (r : Nat) (v : DWord) : Group := { g with sregs := Tab.set g.sregs r v }

/-- The active lanes, ascending (R223). -/
def Group.lanes (g : Group) : List Nat := (List.range 32).filter (fun l => g.active.getLsbD l)

/-- Whether every lane that has not exited is active (R223). -/
def Group.converged (g : Group) : Bool := g.active == ~~~ g.exited

/-- Writes register r of each listed lane with a value by lane. -/
def Group.setLanes (g : Group) (r : Nat) (f : Nat → Word) (ls : List Nat) : Group :=
  ls.foldl (fun h l => h.setT r l (f l)) g

/-- Operand b of a lane (R236). -/
def Group.b (g : Group) (w : DWord) (lane : Nat) : Word :=
  if wBsel w = 0 then g.t (wB w) lane
  else if wBsel w = 1 then (g.s (wB w % 64)).truncate 32
  else BitVec.ofInt 32 (wImmS w)

/-- Operand b of a scalar instruction (R237). -/
def Group.bs (g : Group) (w : DWord) : DWord :=
  if wBsel w = 0 then g.s (wB w % 64) else BitVec.ofInt 64 (wImmS w)

/-- The 64-bit address in SRCA and SRCA + 1 of a lane, plus IMM16 (R238). IMM16 is signed, as a branch offset is. -/
def Group.farAddr (g : Group) (w : DWord) (lane : Nat) : Nat :=
  unsigned 64 ((g.t (wA w) lane).toNat + (g.t (wA w + 1) lane).toNat * 2 ^ 32 + wImmS w)

/-- The deck byte address SRCA + IMM16 of a lane (R238), 32 bits. -/
def Group.deckAddr (g : Group) (w : DWord) (lane : Nat) : Nat := unsigned 32 ((g.t (wA w) lane).toNat + wImmS w)

/-! ### Divergence (R224) -/

/-- The reconvergence address nearest the top of a stack, if any. -/
def joinAddr : List DivEntry → Option Nat
  | [] => none
  | .reconv a _ :: _ => some a
  | .pending _ _ :: t => joinAddr t

/-- Runs the stack rules of R224 where the running lanes have reached the address of the top reconvergence entry, or
none of them is left: pending entries above it run in turn, last pushed first, then the entry is popped. The stack's
head is its top. fuel bounds the entries. -/
def Group.settle : Nat → Group → Group
  | 0, g => g
  | fuel + 1, g =>
    if g.active = 0 ∨ joinAddr g.stack = some g.pc then
      match g.stack with
      | [] => g
      | .pending a m :: t => Group.settle fuel { g with stack := t, pc := a, active := m &&& ~~~ g.exited }
      | .reconv a m :: t => Group.settle fuel { g with stack := t, pc := a, active := m &&& ~~~ g.exited }
    else g

/-- The group goes on at a pc (R224, R235). -/
def Group.goto (g : Group) (pc : Nat) : Group := Group.settle 34 { g with pc := pc % 2 ^ 32 }

/-- The group goes on at the next instruction. -/
def Group.advance (g : Group) : Group := g.goto (g.pc + 8)

/-- The address pc + 8 x IMM16, IMM16 signed (R224, R238). -/
def Group.target (g : Group) (w : DWord) : Nat := unsigned 32 ((g.pc : Int) + 8 * wImmS w)

end Sys2Proof.Machine
end

