-- ==== Sys2Proof/Machine/Tensor.lean ====
section
/-! DEFINITION. Tensor descriptors (R287 to R290): reading one, the elements and scales a view touches, the views of a
copy and the conditions of R296, R297, R302 and R303 on them. -/

namespace Sys2Proof.Machine

/-! ### Reading a descriptor (R287) -/

/-- Dimension record d of descriptor bytes. -/
def dimOf (l : List Byte) (d : Nat) : Dim :=
  let a := leAt l (0x20 + 16 * d) 8
  let b := leAt l (0x28 + 16 * d) 8
  ⟨signed 40 a, bits a 63 40, bits b 23 0, signed 24 (bits b 47 24)⟩

/-- The descriptor that 128 bytes hold. -/
def tensorOf (l : List Byte) : Tensor :=
  let c := leAt l 0x14 4
  { base := leAt l 0 8, scaleBase := leAt l 8 8, fill := BitVec.ofNat 32 (leAt l 0x10 4), space := bits c 1 0,
    fmt := bits c 5 2, shape := bits c 7 6, ndim := bits c 10 8, ax0 := bits c 13 11, ax1 := bits c 16 14,
    consume := bit c 17, aliasOk := bit c 18, acc := bit c 19, nocache := bit c 20,
    dims := (List.range (bits c 10 8)).map (dimOf l) }

/-- Bits of FILL that a format uses (R290). -/
def fillMask (fmt : Nat) : Nat :=
  if fmt = 0 then 2 ^ 32 - 1
  else if fmt = 1 ∨ fmt = 2 then 2 ^ 16 - 1
  else (2 ^ fmtWidth fmt - 1) ||| 0xFF0000

/-- The first condition of R296 on one descriptor: reserved fields and values. -/
def tensorReserved (l : List Byte) : Bool :=
  let t := tensorOf l
  let c := leAt l 0x14 4
  bits c 31 21 != 0 || leAt l 0x18 8 != 0 ||
  (List.range 6).any (fun d => if d < t.ndim then bits (leAt l (0x28 + 16 * d) 8) 63 48 != 0
    else leAt l (0x20 + 16 * d) 8 != 0 || leAt l (0x28 + 16 * d) 8 != 0) ||
  t.ndim == 0 || 6 < t.ndim || t.dims.any (fun d => d.bound == 0 || d.extent == 0) ||
  !fmtShapeOk t.fmt t.shape || t.ndim ≤ t.ax0 || t.ndim ≤ t.ax1 || (t.shape == 2 && t.ax0 == t.ax1) ||
  (t.shape != 2 && t.ax1 != 0) || (isLin t.fmt && t.scaleBase != 0) ||
  (t.fill.toNat &&& fillMask t.fmt) != t.fill.toNat

/-- Bytes of an element of a format that is not L4; 1 for L4 (R296). -/
def elemBytes (fmt : Nat) : Nat := max 1 (fmtWidth fmt / 8)

/-- Alignment of BASE and strides (R296, second condition). -/
def tensorMisaligned (t : Tensor) : Bool :=
  let n := elemBytes t.fmt
  t.base % n != 0 || t.dims.any (fun d => d.stride % (n : Int) != 0) ||
  (t.fmt == 4 && ((t.dims.head?).map (·.stride)).getD 1 != 1)

/-! ### Views (R288, R289) -/

/-- Dimension d of a descriptor. -/
def Tensor.dim (t : Tensor) (d : Nat) : Dim := (t.dims[d]?).getD ⟨0, 1, 1, 0⟩

/-- The tensor indices of a view position. -/
def Tensor.index (t : Tensor) (v : List Nat) : List Int := List.zipWith (fun d (x : Nat) => d.offset + Int.ofNat x) t.dims v

/-- Whether a view position is in bounds. -/
def Tensor.inBounds (t : Tensor) (v : List Nat) : Bool :=
  (List.zipWith (fun d i => decide (0 ≤ i ∧ i < (d.bound : Int))) t.dims (t.index v)).all id

/-- The byte address of the element with tensor indices i, in the descriptor's space (R288). -/
def Tensor.byteAddr (t : Tensor) (i : List Int) : Int :=
  let s := (List.zipWith (fun d x => x * d.stride) t.dims i)
  if t.fmt = 4 then (t.base : Int) + (i.headD 0) / 2 + (s.drop 1).foldl (· + ·) 0 else (t.base : Int) + s.foldl (· + ·) 0

/-- An exact byte address as a number. One below 0 is no address of any space: it answers a number past every 64-bit address,
which no mapping covers (R307). -/
def addrNat (a : Int) : Nat := if a < 0 then 2 ^ 64 + a.natAbs else a.toNat

/-- Whether the element is the high nibble of its byte (R75, R288). -/
def Tensor.highNibble (t : Tensor) (i : List Int) : Bool := t.fmt == 4 && (i.headD 0) % 2 == 1

/-- Extent of the scale tensor along d and the block number of index x along it (R82). -/
def Tensor.blockAxis (t : Tensor) (d : Nat) : Bool := (isL t.fmt) && (d == t.ax0 || (t.shape == 2 && d == t.ax1))

/-- The dense index of the block of an element in the scale tensor (R289). -/
def Tensor.blockIndex (t : Tensor) (i : List Int) : Int :=
  let step (acc : Int × Int) (d : Nat) : Int × Int :=
    let x := (i[d]?).getD 0
    let b : Int := (t.dim d).bound
    if t.blockAxis d then (acc.1 + acc.2 * (x / 32), acc.2 * ((b + 31) / 32)) else (acc.1 + acc.2 * x, acc.2 * b)
  ((List.range t.ndim).foldl step (0, 1)).1

/-- The address of the scale byte of an element (R289). -/
def Tensor.scaleAddr (t : Tensor) (i : List Int) : Int := (t.scaleBase : Int) + t.blockIndex i

/-- The lowest in-bounds tensor index along a dimension, and how many positions are in bounds (R288). -/
def Dim.live (d : Dim) : Int × Nat :=
  let lo := max 0 d.offset
  let hi := min (d.bound : Int) (d.offset + d.extent)
  (lo, (hi - lo).toNat)

/-- Whether any position is in bounds. -/
def Tensor.anyLive (t : Tensor) : Bool := t.dims.all (fun d => d.live.2 != 0)

/-- The lowest and one past the highest byte of the data that in-bounds positions touch (R295). -/
def Tensor.span (t : Tensor) : Int × Int :=
  let ends (i : Nat × Dim) : Int × Int :=
    let lo := i.2.live.1
    let hi := lo + i.2.live.2 - 1
    if t.fmt = 4 ∧ i.1 = 0 then (lo / 2, hi / 2)
    else (min (lo * i.2.stride) (hi * i.2.stride), max (lo * i.2.stride) (hi * i.2.stride))
  let l := ((List.range t.ndim).zip t.dims).map ends
  ((t.base : Int) + (l.map (·.1)).foldl (· + ·) 0, (t.base : Int) + (l.map (·.2)).foldl (· + ·) 0 + elemBytes t.fmt)

/-- The same of the scale bytes. -/
def Tensor.scaleSpan (t : Tensor) : Int × Int :=
  (t.scaleAddr (t.dims.map (fun d => d.live.1)), t.scaleAddr (t.dims.map (fun d => d.live.1 + d.live.2 - 1)) + 1)

/-- The byte ranges a view touches: data, and scales of an L tensor. -/
def Tensor.ranges (t : Tensor) : List (Int × Int) :=
  if t.anyLive then t.span :: (if isL t.fmt then [t.scaleSpan] else []) else []

/-- All positions of a view of the given extents, dimension 0 fastest (R298). -/
def positions : List Nat → List (List Nat)
  | [] => [[]]
  | e :: es => (positions es).flatMap (fun r => (List.range e).map (fun x => x :: r))

/-- The view positions of a descriptor in element order. -/
def Tensor.positions (t : Tensor) : List (List Nat) := Machine.positions (t.dims.map (·.extent))

/-! ### The checks of a copy (R296) -/

/-- Digit d of PERM: the source dimension that destination dimension d takes (R291). -/
def permDigit (perm d : Nat) : Nat := bits perm (3 * d + 2) (3 * d)

/-- The source position that destination position v takes: u at PERM_d is v at d (R298). -/
def sourcePos (perm ndim : Nat) (v : List Nat) : List Nat :=
  (List.range ndim).map (fun k => match (List.range ndim).find? (fun d => permDigit perm d == k) with
    | none => 0
    | some d => (v[d]?).getD 0)

/-- R296's third condition: dimensions, formats, PERM and extents match. -/
def permBad (src dst : Tensor) (perm : Nat) : Bool :=
  let n := dst.ndim
  src.ndim != dst.ndim || src.fmt != dst.fmt ||
  !((List.range n).all (fun k => (List.range n).any (fun d => permDigit perm d == k))) ||
  ((List.range 6).any (fun d => n ≤ d && permDigit perm d != 0)) ||
  (List.range n).any (fun d => (dst.dim d).extent != (src.dim (permDigit perm d)).extent)

/-- Along every blocked axis the view starts at a multiple of 32 and ends at one or past BOUND (R302, R303). -/
def Tensor.blockAligned (t : Tensor) : Bool :=
  (List.range t.ndim).all (fun d => !t.blockAxis d ||
    ((t.dim d).offset % 32 == 0 &&
      (((t.dim d).offset + (t.dim d).extent) % 32 == 0 || ((t.dim d).bound : Int) ≤ (t.dim d).offset + (t.dim d).extent)))

/-- Offsets of the blocked axes are multiples of 32 (R302). -/
def Tensor.offsetAligned (t : Tensor) : Bool :=
  (List.range t.ndim).all (fun d => !t.blockAxis d || (t.dim d).offset % 32 == 0)

/-- L data failing R302 or R303; REBLK on linear data. -/
def blockBad (src dst : Tensor) (perm : Nat) (reblk : Bool) : Bool :=
  if !isL src.fmt then reblk
  else if reblk then !dst.blockAligned
  else
    let im (a : Nat) : Nat := permDigit perm a
    src.shape != dst.shape ||
    (if dst.shape = 2 then !((im dst.ax0 == src.ax0 && im dst.ax1 == src.ax1) || (im dst.ax0 == src.ax1 && im dst.ax1 == src.ax0))
     else im dst.ax0 != src.ax0) ||
    !src.offsetAligned || !dst.blockAligned

/-- In-bounds positions along each dimension with the stride in bits (R297). -/
def Tensor.steps (t : Tensor) : List (Nat × Nat) :=
  ((List.range t.ndim).zip t.dims).map
    (fun i => (if t.fmt = 4 ∧ i.1 = 0 then 4 else 8 * i.2.stride.natAbs, i.2.live.2))

/-- Inserts by ascending stride. -/
def insertStep (x : Nat × Nat) : List (Nat × Nat) → List (Nat × Nat)
  | [] => [x]
  | y :: l => if x.1 < y.1 then x :: y :: l else y :: insertStep x l

/-- The non-overlap test of R297. -/
def Tensor.noOverlap (t : Tensor) : Bool :=
  let l := (t.steps.filter (fun x => 1 < x.2)).foldl (fun acc x => insertStep x acc) []
  (l.foldl (fun (r : Nat × Bool) x => (r.1 + x.1 * (x.2 - 1), r.2 && r.1 ≤ x.1)) (fmtWidth t.fmt, true)).2

/-- Whether two byte ranges share a byte. -/
def rangesMeet (a b : Int × Int) : Bool := a.1 < b.2 && b.1 < a.2

/-- The conditions of R296 that a pair of descriptors alone decides: whether it is DESCRIPTOR_INVALID. -/
def pairInvalid (src dst : List Byte) (perm : Nat) (reblk : Bool) : Bool :=
  let a := tensorOf src
  let b := tensorOf dst
  tensorReserved src || tensorReserved dst || tensorMisaligned a || tensorMisaligned b || permBad a b perm ||
  b.consume || (a.consume && a.space != 3) || a.acc || (b.acc && b.fmt != 0) ||
  blockBad a b perm reblk ||
  (b.dims.any (fun d => 1 < d.live.2 && d.stride == 0) && !b.acc) ||
  (!b.noOverlap && !b.aliasOk && !b.acc) ||
  (a.space == 1 && b.space == 1 && a.ranges.any (fun x => b.ranges.any (rangesMeet x)))

/-- Whether every range of a view lies in [lo, hi). -/
def Tensor.inside (t : Tensor) (lo hi : Nat) : Bool := t.ranges.all (fun r => (lo : Int) ≤ r.1 && r.2 ≤ (hi : Int))

end Sys2Proof.Machine
end

