-- ==== Sys2Proof/Machine/Order.lean ====
section
/-! DEFINITION. The bytes each waiting access touches (R295's address envelopes), and core order (R315): an access waits
while an earlier one of its core that touches a byte of its envelope, one of the two writing, has not taken effect. -/

namespace Sys2Proof.Machine

/-- An address envelope: whether it writes, the space (SPACE code of R287), whose stash, and the bytes [lo, hi). -/
structure Env where
  wr    : Bool
  space : Nat
  who   : List Cid
  lo    : Int
  hi    : Int
deriving DecidableEq, Repr

/-- Whether two envelopes overlap and one of them writes (R315). -/
def Env.clash (a b : Env) : Bool := a.space == b.space && a.who == b.who && (a.wr || b.wr) && a.lo < b.hi && b.lo < a.hi

/-- A deck envelope. -/
def deckEnv (wr : Bool) (r : Int × Int) : Env := ⟨wr, 1, [], r.1, r.2⟩

/-! ### Matrix operands (R120, R121, R136) -/

/-- DATA_ADDR of a deck operand word. -/
def opData (o : DWord) : Nat := fld o 21 0
/-- PITCH in bytes. -/
def opPitch (o : DWord) : Nat := 32 * fld o 32 22
/-- SCALE_ADDR. -/
def opScale (o : DWord) : Nat := fld o 54 33
/-- SCALE_PITCH. -/
def opScalePitch (o : DWord) : Nat := fld o 63 55

/-- A stored region (R120): rows and columns stored, scale shape and axis, the operand word and the element width. -/
structure Region where
  o     : DWord
  rows  : Nat
  cols  : Nat
  width : Nat
  shape : Nat
  vax   : Nat
deriving DecidableEq, Repr

/-- Bytes of a stored row. -/
def Region.rowBytes (r : Region) : Nat := ceilDiv (r.cols * r.width) 8
/-- The bytes of the data (R120). -/
def Region.data (r : Region) : Int × Int :=
  ((opData r.o : Int), ((opData r.o + (r.rows - 1) * opPitch r.o + r.rowBytes : Nat) : Int))
/-- The address of the scale of stored row i and column j (R121). -/
def Region.scaleAddr (r : Region) (i j : Nat) : Nat :=
  if r.shape = 2 then opScale r.o + i / 32 * opScalePitch r.o + j / 32
  else if r.vax = 0 then opScale r.o + i * opScalePitch r.o + j / 32
  else opScale r.o + i / 32 * opScalePitch r.o + j
/-- The bytes of the scales. -/
def Region.scales (r : Region) : Int × Int := ((opScale r.o : Int), (r.scaleAddr (r.rows - 1) (r.cols - 1) : Int) + 1)

/-- ROWS of an extents word. -/
def exRows (x : DWord) : Nat := fld x 9 0
/-- KV. -/
def exKv (x : DWord) : Nat := fld x 16 10
/-- NV. -/
def exNv (x : DWord) : Nat := fld x 25 17
/-- ACC_ROW. -/
def exAcc (x : DWord) : Nat := fld x 34 26

/-- Rows of a half for a format (R104, R133). -/
def rowsPerHalf (fmt : Nat) : Nat := 512 / prodP fmt

/-- The stream region of an MPASS (stored-layout table before R120). -/
def passStream (w o x : DWord) : Region :=
  let t := fld w 20 20 == 1
  ⟨o, if t then exKv x else exRows x, if t then exRows x else exKv x, fmtWidth (mFmt w), fld w 15 14, fld w 18 18⟩

/-- The stationary region of an MPASS. -/
def passTile (w o x : DWord) : Region :=
  let t := fld w 21 21 == 1
  ⟨o, if t then exNv x else exKv x, if t then exKv x else exNv x, fmtWidth (mFmt w), fld w 17 16, fld w 19 19⟩

/-- The dY, X and W regions of a MALT (R126, R128). -/
def maltRegions (w y x v : DWord) : List Region :=
  let p := prodP (mFmt w)
  let wd := fmtWidth (mFmt w)
  [⟨y, 64, 64 * p, wd, 2, 0⟩, ⟨x, 64, 64 * p, wd, 2, 0⟩, ⟨v, 64 * p, 64 * p, wd, 2, 0⟩]

/-- The bytes of the mask a matrix instruction reads (R131). -/
def maskRange (maskm rows : Nat) (m : DWord) : List (Int × Int) :=
  if maskm = 1 then [((m.toNat : Int), ((m.toNat + ceilDiv rows 8 : Nat) : Int))] else []

/-- The bytes an MDRAIN writes (R134). -/
def drainRange (o x : DWord) : Int × Int :=
  ((opData o : Int), ((opData o + (exRows x - 1) * opPitch o + 4 * exNv x : Nat) : Int))

/-- The deck bytes a matrix instruction reads, and those it writes. opA to opE are its scalar operands in the order of
its fields: MPASS SS, SW, SX, SM; MALT SY, SXO, SWO, SE, SM; MDRAIN SD, SX; MZERO SX in opB. -/
def mxRanges (w a b c d e : DWord) : List (Int × Int) × List (Int × Int) :=
  if wOp w = 0xA0 then
    ([(passStream w a c).data, (passStream w a c).scales, (passTile w b c).data, (passTile w b c).scales] ++
      maskRange (fld w 25 24) (exRows c) d, [])
  else if wOp w = 0xA1 then
    ((maltRegions w a b c).flatMap (fun r => [r.data, r.scales]) ++ maskRange (fld w 18 17) (64 * prodP (mFmt w)) e, [])
  else if wOp w = 0xA2 then ([], [drainRange a b])
  else ([], [])

/-- The envelopes of a queued matrix instruction (R140). -/
def MxEntry.envs (m : MxEntry) : List Env :=
  let r := mxRanges m.w m.opA m.opB m.opC m.opD m.opE
  r.1.map (deckEnv false) ++ r.2.map (deckEnv true)

/-! ### Vector operands (R254, R255) -/

/-- Base address of a vector deck access. -/
def vBase (s : DWord) : Nat := fld s 21 0
/-- The signed step between lanes in bytes: VLD and VST. -/
def vStep (w s : DWord) : Int := if vSub w = 0 then 4 else 4 * signed 16 (fld s 37 22)
/-- The bound N of VGATH and VSCAT. -/
def vBound (s : DWord) : Nat := fld s 43 22

/-- The bytes a vector deck access can touch. -/
def vRange (w s : DWord) : Int × Int :=
  if wOp w ≤ 0x81 then
    let a : Int := vBase s
    let z := a + 127 * vStep w s
    (min a z, max a z + 4)
  else (vBase s, (vBase s : Int) + vBound s)

/-- The envelopes of a queued vector instruction. -/
def VeEntry.envs (v : VeEntry) : List Env :=
  let op := wOp v.w
  if op ≤ 0x83 then [deckEnv (op == 0x81 || op == 0x83) (vRange v.w v.sval)] else []

/-! ### Copies and far requests -/

/-- The envelopes of a view: reading, or writing. -/
def Tensor.envs (t : Tensor) (wr : Bool) (who : Cid) : List Env :=
  t.ranges.map (fun r => ⟨wr, t.space, if t.space = 3 then [who] else [], r.1, r.2⟩)

/-- The descriptor at a deck address. -/
def deckTensor (deck : Memory) (a : Nat) : Tensor := tensorOf (Mem.bytes deck a 128)

/-- The envelopes of a queued copy: its descriptors and what they name. -/
def copyEnvs (deck : Memory) (who : Cid) (c : CopyEntry) : List Env :=
  [deckEnv false (c.src, c.src + 128), deckEnv false (c.dst, c.dst + 128)] ++
  (deckTensor deck c.src).envs false who ++ (deckTensor deck c.dst).envs true who

/-- Bytes a far action moves. -/
def FarAct.size : FarAct → Nat
  | .load _ _ n _ _ _ => n
  | .store n _ _ => n
  | .run _ _ _ => 0
  | .cmd _ _ _ => 0
  | _ => 4

/-- Whether it writes. -/
def FarAct.writes : FarAct → Bool
  | .load _ _ _ _ _ _ => false
  | .run _ _ _ => false
  | .cmd _ _ _ => false
  | _ => true

/-- The envelope of a thread-engine far request; a mover request is covered by its copy. -/
def FarReq.envs (r : FarReq) : List Env :=
  if r.act.size = 0 then [] else [⟨r.act.writes, 0, [], r.addr, (r.addr : Int) + r.act.size⟩]

/-! ### What is pending on a core -/

/-- The command of a block slot. -/
def Work.cidOf (w : Work) (b : Nat) : Cid := ((Tab.get? w.blocks b).map (·.cid)).getD ⟨0, 0, 0⟩

/-- Every matrix instruction queued on a core. -/
def Work.mxQueued (w : Work) : List MxEntry := w.arrays.flatMap (fun a => a.2.fwd ++ a.2.bwd ++ a.2.accq)

/-- Every far request of a core, waiting or holding a slot. -/
def Work.farAll (w : Work) : List FarReq := w.farWait ++ w.slots.map (·.2)

/-- Every byte of every space: what a copy may touch whose descriptors an earlier access has still to write. -/
def anyEnvs (who : Cid) : List Env :=
  [0, 1, 2, 3].map (fun k => ⟨true, k, if k = 3 then [who] else [], -(2 ^ 80), 2 ^ 80⟩)

/-- Puts a copy behind those issued before it. -/
def insertCopy (c : CopyEntry) : List CopyEntry → List CopyEntry
  | [] => [c]
  | d :: l => if c.stamp < d.stamp then c :: d :: l else d :: insertCopy c l

/-- The copies queued on the channels, in order of issue. -/
def Work.copiesQueued (w : Work) : List CopyEntry :=
  (w.chans.flatMap (fun c => c.2.queue)).foldl (fun l q => insertCopy q l) []

/-- The envelopes of a queued copy behind what is known to be pending: of one whose descriptors are still to be written,
everything (R295). -/
def Work.queuedEnvs (w : Work) (known : List (Nat × Env)) (q : CopyEntry) : List Env :=
  let who := w.cidOf q.block
  let descs := [deckEnv false (q.src, q.src + 128), deckEnv false (q.dst, q.dst + 128)]
  if known.any (fun x => x.1 < q.stamp && descs.any (Env.clash x.2)) then descs ++ anyEnvs who else copyEnvs w.deck who q

/-- The envelopes of every access a core has issued that has not taken effect, with the order of issue. -/
def Work.pendingEnvs (w : Work) : List (Nat × Env) :=
  let base :=
    w.mxQueued.flatMap (fun m => m.envs.map (fun e => (m.stamp, e))) ++
    w.engine.queue.flatMap (fun v => v.envs.map (fun e => (v.stamp, e))) ++
    w.chans.flatMap (fun c =>
      c.2.runs.flatMap (fun r => (r.src.envs false (w.cidOf r.entry.block) ++ r.dst.envs true (w.cidOf r.entry.block)).map
        (fun e => (r.entry.stamp, e)))) ++
    w.farAll.flatMap (fun r => r.envs.map (fun e => (r.stamp, e)))
  w.copiesQueued.foldl (fun k q => k ++ (w.queuedEnvs k q).map (fun e => (q.stamp, e))) base

/-- Whether an access issued at a stamp must wait for an earlier one (R315). -/
def Work.blocked (w : Work) (stamp : Nat) (es : List Env) : Bool :=
  w.pendingEnvs.any (fun x => x.1 < stamp && es.any (Env.clash x.2))

end Sys2Proof.Machine
end

