-- ==== Sys2Proof/Machine/Translate.lean ====
section
/-! DEFINITION. Translation and protection (R307, R337, R173, R384, R416, R421): where an address of a context leads. -/

namespace Sys2Proof.Machine

/-- What translation answers: a place, or the status of R307. -/
inductive Xl where
  | ok (pl : Place)
  | no (status : Nat)
deriving DecidableEq, Repr

/-- The translation entry that covers an address, and the size of its page (R337): a 2 MiB leaf of level 3 or a 64 KiB
page of level 4. Log entry 109 (DESIGN CHOICE). -/
def Ctx.entry (c : Ctx) (va : Nat) : Option (DWord × Nat) :=
  match Tab.get? c.l3 (va / 2097152) with
  | some e => some (e, 2097152)
  | none => (Tab.get? c.l4 (va / 65536)).map (fun e => (e, 65536))

/-- The address bits from which on a table of a level is chosen (R337): one table of level 1 covers [51:0]. -/
def tableShift (level : Nat) : Nat := if level = 1 then 52 else if level = 2 then 39 else if level = 3 then 30 else 21

/-- Where the table of a level that an address is looked up in lies, in 4 KiB units (R337). -/
def Ctx.table? (c : Ctx) (level va : Nat) : Option Nat :=
  (c.tabs.find? (fun t => t.1 == level && t.2.1 == va / 2 ^ tableShift level)).map (·.2.2)

/-- The entry that the table of a level holds for an address, as the operator reads it for diagnosis (R337): the leaf, or the
entry that names the next table, or an invalid one. -/
def Ctx.tableEntry (c : Ctx) (level va : Nat) : DWord :=
  let leaf := if level = 3 then Tab.get? c.l3 (va / 2097152) else if level = 4 then Tab.get? c.l4 (va / 65536) else none
  leaf.getD (((c.table? (level + 1) va).map (fun a => BitVec.ofNat 64 (1 + 2 ^ 12 * a))).getD 0)

/-- The partition addresses of the entries that a lookup of an address reads, level by level (R337). -/
def Ctx.tableWalk (c : Ctx) (va : Nat) : List Nat :=
  [(1, va / 2 ^ 39 % 8192), (2, va / 2 ^ 30 % 512), (3, va / 2 ^ 21 % 512), (4, va / 2 ^ 16 % 32)].filterMap (fun e =>
    (c.table? e.1 va).map (fun a => 4096 * a + 8 * e.2))

/-- VALID of an entry. -/
def pteValid (e : DWord) : Bool := fld e 0 0 == 1
/-- RD. -/
def pteRd (e : DWord) : Bool := fld e 2 2 == 1
/-- WR. -/
def pteWr (e : DWord) : Bool := fld e 3 3 == 1
/-- TARGET. -/
def pteHost (e : DWord) : Bool := fld e 5 5 == 1
/-- ADDR in 4 KiB units. -/
def pteAddr (e : DWord) : Nat := fld e 43 12
/-- OBJ. -/
def pteObj (e : DWord) : Nat := fld e 63 44

/-- An access: whether it reads and whether it writes. -/
structure Acc where
  rd : Bool
  wr : Bool
deriving DecidableEq, Repr

/-- Whose access it is: partition, context, the weight-object generations bound (R173), the argument window (R384), and
whether it belongs to a dispatch, whose writes through a weight object fail (R173). -/
structure Who where
  n      : Nat
  ctx    : CtxId
  bounds : List Bound
  window : List Nat
  disp   : Bool
deriving DecidableEq, Repr

/-- The accesses of a dispatch. -/
def Disp.who (d : Disp) : Who := ⟨d.cid.ptn, d.ctx, d.bounds, d.arg, true⟩

/-- The place of a byte of page number i of slot k of an object, or nothing where its frame is not the partition's. -/
def State.objPlace (s : State) (n : Nat) (o : MemObj) (page off : Nat) : Option Place :=
  match o.bases[page]? with
  | none => none
  | some b => if o.host then some (.host (4096 * b + off)) else s.ptnPlace n (4096 * b + off)

/-- The slot of a weight object that an access reads (R173, R395): the bound generation's, else the current one's. Where two
bindings of a dispatch name one object, which R173 does not settle, the one listed first counts (log entry 127). -/
def Who.slotOf (w : Who) (i : Nat) (o : MemObj) : Nat :=
  if o.isWeight then
    match w.bounds.find? (fun b => b.obj == i) with
    | some b => b.gen % o.slots.length
    | none => o.current
  else 0

/-- Translation within this package (R307's table, in its order). window is [first address, object] where the dispatch
has an argument window. -/
def State.translateLocal (s : State) (w : Who) (va : Nat) (a : Acc) : Xl :=
  let objAt (i page off : Nat) : Xl :=
    match Tab.get? (s.ptn w.n).objs i with
    | none => .no St.unmapped
    | some o =>
      let k := w.slotOf i o
      if o.isWeight && w.disp && a.wr then .no St.weightReadOnly
      else if a.rd && (o.slot k).st == .unsettled then .no St.unsettled
      else match s.objPlace w.n o (k * o.pages + page) off with
        | none => .no St.unmapped
        | some pl => .ok pl
  let win := match w.window with
    | [lo, i] => match Tab.get? (s.ptn w.n).objs i with
      | some o => if lo ≤ va ∧ va < lo + o.bytes then some (i, va - lo) else none
      | none => none
    | _ => none
  match win with
  | some (i, off) => if a.wr then .no St.protection else objAt i (off / 65536) (off % 65536)
  | none =>
    match s.ctx? w.ctx with
    | none => .no St.unmapped
    | some c =>
      match c.entry va with
      | none => .no St.unmapped
      | some (e, size) =>
        if !pteValid e then .no St.unmapped
        else if (a.rd && !pteRd e) || (a.wr && !pteWr e) then .no St.protection
        else
          match Tab.get? (s.ptn w.n).objs (pteObj e) with
          | none => .no St.unmapped
          | some o => objAt (pteObj e) (o.bases.findIdx (fun b => b == pteAddr e) % max o.pages 1) (va % size)

/-- Where a global device address leads (R307, R415, R416, R421). -/
def State.translate (s : State) (w : Who) (addr : Nat) (a : Acc) : Xl :=
  let pkg := addr / 2 ^ 52
  if 2 ^ 64 ≤ addr then .no St.unmapped
  else if pkg = s.pkgNo then s.translateLocal w (addr % 2 ^ 52) a
  else
    match s.ctx? w.ctx with
    | none => .no St.unmapped
    | some c =>
      if c.job = 0 ∨ !s.namesPkg pkg ∨ (Tab.get? c.peers pkg).isNone then .no St.unreachable
      else .ok (.remote pkg (addr % 2 ^ 52))

end Sys2Proof.Machine
end

