-- ==== Sys2Proof/Machine/Ecc.lean ====
section
/-! DEFINITION. What reading stored bytes does to their check words: main memory (R442, R443, R478), the deck and the
hold (R477, detectors 0x01 to 0x05), and the ordering of a reset (R475, R485). -/

namespace Sys2Proof.Machine

/-- Stops cores of a test from issuing, and the partitions of another (R485). -/
def State.halt (s : State) (core ptn : Nat → Bool) : State :=
  { s with
    cores := s.cores.map (fun e => if core e.1 then (e.1, { e.2 with running := false }) else e)
    ptns := s.ptns.map (fun e => if ptn e.1 then (e.1, { e.2 with halted := true }) else e) }

/-- Orders a reset (R485): the units it covers issue nothing more until RESET_ENTERED completes it. -/
def State.orderReset (s : State) (l : Level) (target : Nat) : State :=
  if s.dealer.resets.contains ⟨l, target⟩ then s
  else
    let s1 := s.setDealer { s.dealer with resets := s.dealer.resets ++ [⟨l, target⟩] }
    match l with
    | .engine => s1.halt (· == target) (fun _ => false)
    | .partition => s1.halt (fun p => s.ptnOfCore p == target) (· == target)
    | .die => s1.halt (fun p => p / 48 == target) (fun n => (s.diesOf n).contains target)
    | .package => s1.halt (fun _ => true) (fun _ => true)

/-- What a unit of main memory holds (R478). -/
inductive UnitUse where
  | object (n i k : Nat)
  | stash (n : Nat)
  | save (n : Nat)
  | tables (n : Nat)
  | free
deriving DecidableEq, Repr

/-- The byte ranges of a partition's translation tables and of its fence table (R337, R348): first byte, end. -/
def State.tableRanges (s : State) (n : Nat) : List (Nat × Nat) :=
  (s.ptn n).fenceTab.map (fun b => (4096 * b, 4096 * b + 65536)) ++
  (s.ctxs.filter (fun e => e.2.ptn == n)).flatMap (fun e => e.2.tabs.map (fun t =>
    (4096 * t.2.2, 4096 * t.2.2 + (if t.1 = 1 then 65536 else 4096))))

/-- The use of the unit at a place. -/
def State.unitUse (s : State) (pl : Place) : UnitUse :=
  match pl with
  | .chan c q =>
    match s.ptnOfChan c with
    | none => .free
    | some n =>
      match (s.ptn n).addrOf c q with
      | none => .free
      | some a =>
        let g := s.reg (Reg.stashCfg n)
        if fld g 19 0 * 2097152 ≤ a ∧ a < (fld g 19 0 + fld g 39 20) * 2097152 then .stash n
        else if (s.ptn n).save.contains (a / frameBytes) then .save n
        else if (s.tableRanges n).any (fun r => r.1 ≤ a && a < r.2) then .tables n
        else match (s.ptn n).objAt false a with
          | some (i, k) => .object n i k
          | none => .free
  | .host a =>
    ((List.range 16).findSome? (fun n => ((s.ptn n).objAt true a).map (fun ik => UnitUse.object n ik.1 ik.2))).getD .free
  | .remote _ _ => .free

/-- Corrects a unit (R442, R443): written back, counted, and MEM_DEGRADED where it is the unit's second correction or
the channel's 1,024th in the scrub period. -/
def State.correctUnit (s : State) (pl : Place) : State :=
  let c := chanOf pl
  let u := unitOf pl
  let s1 := ({ s with flips := Tab.erase s.flips u }).countChan c 1 1
  let x := s1.chan c
  let k : Nat := Tab.get x.periodFix u 0 + 1
  let s2 := s1.setChan c { x with periodFix := Tab.set x.periodFix u k }
  let total : Nat := ((s2.chan c).periodFix.map (·.2)).foldl (· + ·) 0
  if k = 2 ∨ total = 1024 then
    (s2.reportErr (report 0x09 (chanUnit c))).raise .memChannelDegraded c 0
  else s2

/-- Marks a unit uncorrectable (R442): poison, counted, the object that holds it unsettled; the record of MEM_ECC_UE or
HOST_MEM_UE, a partition reset for a save area or a table, nothing for a free frame (R478). scrub says that the patrol scrubber
reads, which raises no fault (R443). -/
def State.loseUnit (s : State) (pl : Place) (ctx : List CtxId) (reporter : Nat) (scrub : Bool) : State :=
  let c := chanOf pl
  let u := unitOf pl
  let s1 := ({ s with flips := Tab.erase s.flips u, poison := if s.poison.contains u then s.poison else u :: s.poison }).countChan c 2 1
  let q := match pl with
    | .chan _ q => q
    | .host a => a
    | .remote _ _ => 0
  let frame := match pl with
    | .chan c q => ((s.ptnOfChan c).bind (fun n => ((s.ptn n).addrOf c q).map (· / frameBytes))).getD 0xFFFF
    | _ => 0xFFFF
  let det := if c < 192 then 0x08 else 0x21
  let r : Report := { report det (chanUnit c) with
    status := St.uncorrectable, ctx := ctx, reporter := reporter, d0 := BitVec.ofNat 64 q,
    d1 := BitVec.ofNat 64 (Config.syndrome s.fresh % 2 ^ 16 + 2 ^ 16 * (frame % 2 ^ 16)) }
  match s.unitUse pl with
  | .object n i k =>
    let s2 := (s1.setObjState n i k .unsettled).drawn
    if scrub then s2 else s2.reportErr { r with ptn := [n] }
  | .stash n => if scrub then s1.drawn else s1.drawn.reportErr { r with ptn := [n] }
  | .save n | .tables n =>
    if scrub then s1.drawn
    else (s1.drawn.reportErr { r with ptn := [n], cls := 4, status := 0 }).orderReset .partition n
  | .free => s1.drawn

/-- Whether a unit cannot be corrected (R442). -/
def State.lostUnit (s : State) (u : Nat) : Bool := s.poison.contains u || Tab.get s.flips u 0 == 2

/-- Reads one unit: corrected, or uncorrectable (R442). Log entry 110 (DESIGN CHOICE). -/
def State.readUnit (s : State) (pl : Place) (ctx : List CtxId) (reporter : Nat) (scrub : Bool) : State × Bool :=
  let u := unitOf pl
  if s.lostUnit u then (s.loseUnit pl ctx reporter scrub, true)
  else if Tab.get s.flips u 0 = 1 then (s.correctUnit pl, false)
  else (s, false)

/-- The first places of the units that n bytes from a place touch. -/
def unitPlaces (pl : Place) (n : Nat) : List Place :=
  let off := match pl with
    | .chan _ q => q % 128
    | .host a => a % 128
    | .remote _ _ => 0
  pl :: ((List.range ((off + n - 1) / 128)).map (fun i => pl.plus (128 * (i + 1) - off)))

/-- Reads n bytes at a place through their check words: whether any unit is uncorrectable (R442). -/
def State.eccRead (s : State) (pl : Place) (n : Nat) (ctx : List CtxId) (reporter : Nat) : State × Bool :=
  (unitPlaces pl n).foldl (fun (x : State × Bool) u =>
    let y := x.1.readUnit u ctx reporter false
    (y.1, x.2 || y.2)) (s, false)

/-- Reads the translation entries that an address of a context is looked up by (R337): one that is uncorrectable resets the
partition (R478). -/
def State.readTables (s : State) (c : CtxId) (va reporter : Nat) : State :=
  match s.ctx? c with
  | none => s
  | some x => (x.tableWalk (va % 2 ^ 52)).foldl (fun t a => match t.ptnPlace x.ptn a with
    | none => t
    | some pl => (t.readUnit pl [c] reporter false).1) s

/-- The uncorrectable units in n bytes from a partition address on, by place (R442): the first places of the units. -/
def State.lostIn (s : State) (p a n : Nat) : List Place :=
  let bad := s.poison ++ (s.flips.filter (fun e => e.2 == 2)).map (·.1)
  match s.ptnPlace p a with
  | none => []
  | some pl => ((bad.filter (fun u => unitOf pl ≤ u && u < unitOf pl + n / 128)).map (fun u => pl.plus (128 * (u - unitOf pl)))).take 1

/-! ### Deck and hold words -/

/-- Key of an 8-byte deck word in the table of flipped bits. -/
def deckKey (p a : Nat) : Nat := 2 ^ 40 + p * 2 ^ 19 + a / 8
/-- Key of an 8-byte hold word; quarters are numbered 4 x die + quarter. -/
def holdKey (k off : Nat) : Nat := 2 ^ 42 + k * 2 ^ 22 + off / 8

/-- Unit code of the deck bank of core p that holds a deck address (R476, R272). -/
def bankUnit (p a : Nat) : Nat := unitCode 5 (p / 48) (32 * (p % 48) + a / 131072 % 32)
/-- Unit code of a hold quarter. -/
def quarterUnit (k : Nat) : Nat := unitCode 6 (k / 4) (k % 4)

/-- The numbers of the words that n bytes from a on cover whole. -/
def wordsWhole (a n : Nat) : List Nat :=
  (List.range (n / 8 + 1)).filterMap (fun i =>
    let w := (a + 7) / 8 + i
    if 8 * w + 8 ≤ a + n then some w else none)

/-- Writes deck bytes of core p; a word written whole has a good check (R477, R492). -/
def State.deckPut (s : State) (p a : Nat) (bs : List Byte) : State :=
  if bs.length = 0 then s
  else
    let w := s.work p
    let s1 := s.setWork p { w with deck := Mem.writeBytes w.deck a bs }
    let whole := (wordsWhole a bs.length).map (fun i => deckKey p (8 * i))
    let s2 := { s1 with flips := s1.flips.filter (fun e => !whole.contains e.1) }
    s2.corrupt [0x01, 0x02] (bankUnit p a) (deckKey p a)

/-- The deck bytes of core p. -/
def State.deckBytes (s : State) (p a n : Nat) : List Byte := Mem.bytes (s.work p).deck a n

/-- A deck word read: a single error is corrected and counted, an uncorrectable one resets the core (R475, R477). -/
def State.deckWord (s : State) (p a : Nat) : State :=
  let k := deckKey p a
  let f := Tab.get s.flips k 0
  if f = 1 then ({ s with flips := Tab.erase s.flips k }).countDie (p / 48) 0 1
  else if f = 2 then
    (s.reportErr { report 0x02 (bankUnit p a) with
      reporter := coreUnit p, ptn := [s.ptnOfCore p], d0 := BitVec.ofNat 64 a }).orderReset .engine p
  else s

/-- Reads n deck bytes of core p from a on through their check words; nothing is to be done where no word is flipped. -/
def State.deckCheck (s : State) (p a n : Nat) : State :=
  if s.flips = [] then s
  else (List.range ((a % 8 + n + 7) / 8)).foldl (fun t i => t.deckWord p (a / 8 * 8 + 8 * i)) s

/-- Reads listed ranges of deck bytes of core p through their check words, each word once. -/
def State.deckReads (s : State) (p : Nat) (rs : List (Int × Int)) : State :=
  if s.flips = [] then s
  else ((rs.flatMap (fun r => (List.range ((r.2.toNat + 7) / 8 - r.1.toNat / 8)).map (r.1.toNat / 8 + ·))).eraseDups).foldl
    (fun t w => t.deckWord p (8 * w)) s

/-- Hold bytes of quarter k. -/
def State.holdBytes (s : State) (k a n : Nat) : List Byte := Mem.bytes (Tab.get s.hold k []) a n

/-- Writes hold bytes of quarter k. -/
def State.holdPut (s : State) (k a : Nat) (bs : List Byte) : State :=
  if bs.length = 0 then s
  else
    let s1 := { s with hold := Tab.set s.hold k (Mem.writeBytes (Tab.get s.hold k []) a bs) }
    let whole := (wordsWhole a bs.length).map (fun i => holdKey k (8 * i))
    let s2 := { s1 with flips := s1.flips.filter (fun e => !whole.contains e.1) }
    s2.corrupt [0x04, 0x05] (quarterUnit k) (holdKey k a)

/-- A hold word read by a command (R477, detectors 0x04 and 0x05): whether it is uncorrectable. -/
def State.holdWord (s : State) (k a : Nat) (ctx : List CtxId) (reporter : Nat) : State × Bool :=
  let key := holdKey k a
  let f := Tab.get s.flips key 0
  if f = 1 then (({ s with flips := Tab.erase s.flips key }).countDie (k / 4) 1 1, false)
  else if f = 2 then
    (s.reportErr { report 0x05 (quarterUnit k) with
      status := St.uncorrectable, ctx := ctx, reporter := reporter, d0 := BitVec.ofNat 64 a }, true)
  else (s, false)

/-- Reads n hold bytes through their check words. -/
def State.holdCheck (s : State) (k a n : Nat) (ctx : List CtxId) (reporter : Nat) : State × Bool :=
  if s.flips = [] then (s, false)
  else (List.range ((a % 8 + n + 7) / 8)).foldl (fun (x : State × Bool) i =>
    let y := x.1.holdWord k (a / 8 * 8 + 8 * i) ctx reporter
    (y.1, x.2 || y.2)) (s, false)

end Sys2Proof.Machine
end

