-- ==== Sys2Proof/Machine/Stash.lean ====
section
/-! DEFINITION. The activation stash (R154 to R168): the region, its segments, each core's write-back head. -/

namespace Sys2Proof.Machine

/-- Bytes of a segment (R160, R163). -/
def segBytes : Nat := 65536

/-- BASE of STASH_CFG. -/
def State.stashBase (s : State) (n : Nat) : Nat := s.field (Reg.stashCfg n) 19 0
/-- SIZE. -/
def State.stashSize (s : State) (n : Nat) : Nat := s.field (Reg.stashCfg n) 39 20
/-- HEAD_BANKS. -/
def State.headBanks (s : State) (n : Nat) : Nat := s.field (Reg.stashCfg n) 43 40

/-- Segments a head holds: two of 64 KiB in each bank of 128 KiB (R154, R163, R207). -/
def State.headSegs (s : State) (n : Nat) : Nat := 2 * s.headBanks n

/-- The place of byte off of a region segment (R154). -/
def State.segPlace (s : State) (n seg off : Nat) : Option Place :=
  s.ptnPlace n ((s.stashBase n) * 2097152 + seg * segBytes + off)

/-- Stores region bytes of a segment from an offset on. -/
def State.segStore (s : State) (n seg off : Nat) (bs : List Byte) : State :=
  match s.segPlace n seg off with
  | some pl => s.store pl bs
  | none => s

/-- The runs of consecutive offsets of a table of bytes, as first offset and bytes. -/
def byteRuns : Table Byte → List (Nat × List Byte)
  | [] => []
  | (k, b) :: t => match byteRuns t with
    | (j, bs) :: rest => if j = k + 1 then (k, b :: bs) :: rest else (k, [b]) :: (j, bs) :: rest
    | [] => [(k, [b])]

/-- Changes a core's head. -/
def State.setHead (s : State) (p : Nat) (h : List HeadSeg) : State := s.setWork p { s.work p with head := h }

/-- A head segment is dirty: its core has written bytes there since it was last written out. -/
def HeadSeg.dirty (h : HeadSeg) : Bool := !h.bytes.isEmpty

/-- Writes a head segment out to the region, counting STASH_WRITE_OUT (R163, R168): the bytes its core has written change there.
Log entry 119 (DEDUCED). -/
def State.writeOut (s : State) (p n : Nat) (h : HeadSeg) : State :=
  ((byteRuns h.bytes).foldl (fun t r => t.segStore n h.seg r.1 r.2) s).count p 38 segBytes

/-- Writes out every dirty segment of a core's head and leaves it present (R165: a release). -/
def State.headOut (s : State) (p n : Nat) : State :=
  let h := (s.work p).head
  let s1 := (h.filter (·.dirty)).foldl (fun t x => t.writeOut p n x) s
  s1.setHead p (h.map (fun x => { x with bytes := [] }))

/-- Whether a segment is marked written (R160). -/
def State.segWritten (s : State) (n seg : Nat) : Bool := (s.ptn n).written.contains seg

/-- Marks a segment written, or unwritten. -/
def State.markSeg (s : State) (n seg : Nat) (w : Bool) : State :=
  let x := s.ptn n
  s.setPtn n { x with written := if w then (if x.written.contains seg then x.written else seg :: x.written)
                                 else x.written.filter (· != seg) }

/-- The region segment and offset of a dispatch's stash offset (R159): granules in the order of its reservation. -/
def Disp.seg (d : Disp) (off : Nat) : Nat × Nat :=
  (((d.granules[off / 2097152]?).getD 0) * 32 + off % 2097152 / segBytes, off % segBytes)

/-- A stash byte as core p reads it (R160, R163, R165, R168): zero where the segment is unwritten; from its head where the
segment is present, whose bytes that the core has not written since it was last written out are the region's; else from the
region; with the counter the byte goes to. Log entry 119 (DEDUCED). -/
def State.stashByte (s : State) (p n : Nat) (x : Nat × Nat) : Byte × Nat :=
  let far : Byte := (s.segPlace n x.1 x.2).elim 0 s.byteAt
  if !s.segWritten n x.1 then (0, 37)
  else match (s.work p).head.find? (fun h => h.seg == x.1) with
    | some h => (Tab.get h.bytes x.2 far, 36)
    | none => (far, 37)

/-- The number of the memory unit that a stash byte is read from, with its place, where it is read from the region. -/
def State.stashUnit (s : State) (p n : Nat) (y : Nat × Nat) : Option (Nat × Place) :=
  if (s.work p).head.any (fun h => h.seg == y.1) || !s.segWritten n y.1 then none
  else (s.segPlace n y.1 y.2).map (fun pl => (unitOf pl, pl))

/-- The first of each unit among places keyed by unit. -/
def firstPlaces : List (Nat × Place) → List (Nat × Place) → List (Nat × Place)
  | acc, [] => acc
  | acc, e :: rest => if acc.any (fun x => x.1 == e.1) then firstPlaces acc rest else firstPlaces (acc ++ [e]) rest

/-- Reads the stash bytes of a dispatch at listed offsets, counting them; whether a region unit read is uncorrectable. -/
def State.stashRead (s : State) (p : Nat) (d : Disp) (offs : List Nat) : State × List Byte × Bool :=
  let n := d.cid.ptn
  let l := offs.map (fun i => s.stashByte p n (d.seg i))
  let hit := (l.filter (fun b => b.2 == 36)).length
  let s1 := (s.count p 36 hit).count p 37 (l.length - hit)
  let units := if s.flips = [] ∧ s.poison = [] then [] else firstPlaces [] (offs.filterMap (fun i => s.stashUnit p n (d.seg i)))
  let e := units.foldl (fun (x : State × Bool) u =>
    let r := x.1.eccRead u.2 1 [d.ctx] (coreUnit p)
    (r.1, x.2 || r.2)) (s1, false)
  (e.1, l.map (·.1), e.2)

/-- Takes a segment of partition n out of every head. -/
def State.dropSeg (s : State) (n seg : Nat) : State :=
  let drop (k : Core) : Core := k.setWork { k.work with head := k.work.head.filter (fun h => h.seg != seg) }
  { s with cores := s.cores.map (fun e => if s.ptnOfCore e.1 = n then (e.1, drop e.2) else e) }

/-- Marks a segment written; the first write to an unwritten one zeroes it wherever its bytes stand (R160). -/
def State.openSeg (s : State) (n seg : Nat) : State :=
  if s.segWritten n seg then s
  else ((s.dropSeg n seg).segStore n seg 0 (List.replicate segBytes 0)).markSeg n seg true

/-- Makes room in a head: the oldest-written segment leaves a full one (R163). -/
def State.headRoom (s : State) (p n : Nat) : State :=
  let h := (s.work p).head
  if h.length < s.headSegs n then s
  else match h with
    | [] => s
    | k :: rest => (if k.dirty then s.writeOut p n k else s).setHead p rest

/-- Writes one stash byte into core p's head, where its segment becomes present as the one written last (R160, R163); a
partition with no head writes the region. -/
def State.stashPut (s : State) (p n : Nat) (x : Nat × Nat) (b : Byte) : State :=
  let s1 := s.openSeg n x.1
  if s.headSegs n = 0 then s1.segStore n x.1 x.2 [b]
  else match (s1.work p).head.find? (fun k => k.seg == x.1) with
    | some k => s1.setHead p ((s1.work p).head.filter (fun y => y.seg != x.1) ++ [⟨x.1, Tab.set k.bytes x.2 b⟩])
    | none =>
      let s2 := s1.headRoom p n
      s2.setHead p ((s2.work p).head ++ [⟨x.1, [(x.2, b)]⟩])

/-- Writes stash bytes of a dispatch from an offset on. -/
def State.stashWrite (s : State) (p : Nat) (d : Disp) (off : Nat) : List Byte → State
  | [] => s
  | b :: bs => (s.stashPut p d.cid.ptn (d.seg off) b).stashWrite p d (off + 1) bs

/-- A consume read drops a segment read in full from the head, without writing it out, and marks it unwritten (R164). -/
def State.consume (s : State) (p n seg : Nat) : State :=
  let h := (s.work p).head
  let s1 := if h.any (fun k => k.seg == seg) then s.count p 39 segBytes else s
  (s1.setHead p (h.filter (fun k => k.seg != seg))).markSeg n seg false

/-- Releases a stash reservation at retirement (R158): its segments leave every head and are marked unwritten. -/
def State.releaseStash (s : State) (c : Cid) : State :=
  let n := c.ptn
  match (s.ptn n).resv.find? (fun r => r.cid == c) with
  | none => s
  | some r =>
    let mine (seg : Nat) : Bool := r.granules.contains (seg / 32)
    let drop (k : Core) : Core := k.setWork { k.work with head := k.work.head.filter (fun h => !mine h.seg) }
    let cores := s.cores.map (fun e => if s.ptnOfCore e.1 = n then (e.1, drop e.2) else e)
    let x := s.ptn n
    ({ s with cores := cores }).setPtn n { x with
      resv := x.resv.filter (fun y => y.cid != c)
      written := x.written.filter (fun seg => !mine seg) }

end Sys2Proof.Machine
end

