-- ==== Sys2Proof/Machine/Issue.lean ====
section
/-! DEFINITION. Issue by the thread engine (R220 to R222): what a group slot is about to issue, what keeps it from being
ready, which ready group a port chooses, the counters of R240 and R241, and group faults (R227). -/

namespace Sys2Proof.Machine

/-! ### What a slot is about to issue -/

/-- A group about to issue: its core and slot, the group, its block, dispatch and program. -/
structure Seat where
  p     : Nat
  slot  : Nat
  g     : Group
  b     : Block
  d     : Disp
  pr    : Prog
deriving DecidableEq, Repr

/-- The running dispatch of a command. -/
def State.disp? (s : State) (c : Cid) : Option Disp := (s.ptn c.ptn).disps.find? (fun d => d.cid == c)

/-- Replaces the running dispatch of its command. -/
def State.setDisp (s : State) (d : Disp) : State :=
  let x := s.ptn d.cid.ptn
  s.setPtn d.cid.ptn { x with disps := x.disps.map (fun e => if e.cid = d.cid then d else e) }

/-- What slot of core p is about to issue: nothing where the core issues no work, the slot is empty, the group has
faulted or its dispatch is being stopped (R227). -/
def State.seat (s : State) (p slot : Nat) : Option Seat :=
  if !(s.core p).running then none
  else match (s.work p).group? slot with
    | none => none
    | some g =>
      if g.faulted then none
      else match Tab.get? (s.work p).blocks g.block with
        | none => none
        | some b => match s.disp? b.cid with
          | none => none
          | some d =>
            if d.status != 0 || (s.ptn b.cid.ptn).halted then none
            else (Tab.get? (s.ptn b.cid.ptn).progs d.prog).map (fun pr => ⟨p, slot, g, b, d, pr⟩)

/-- The instruction word at the group's pc (R235): none past the end of the code. The load record takes the image's
first 64 bytes (R380). -/
def Seat.fetch (t : Seat) : Option DWord :=
  if t.g.pc + 8 ≤ t.pr.codeBytes then some (BitVec.ofNat 64 (leAt t.pr.image (64 + t.g.pc) 8)) else none

/-- Writes the group back to its slot; a group all of whose lanes have exited ends and frees its slot (R223). -/
def State.putGroup (s : State) (t : Seat) (g : Group) : State :=
  let w := s.work t.p
  if g.active = 0 ∧ g.stack = [] then
    let b := { t.b with slots := t.b.slots.filter (· != t.slot) }
    s.setWork t.p { w with groups := Tab.erase w.groups t.slot, blocks := Tab.set w.blocks g.block b }
  else s.setWork t.p (w.setGroup t.slot g)

/-! ### Results still to come (R221, R317, R318) -/

/-- Whether a far request was issued by the group in a slot: the same slot and block. -/
def FarReq.of (r : FarReq) (t : Seat) : Bool := r.slot == t.slot && r.block == t.g.block

/-- The thread registers a far request will write. -/
def FarAct.dsts : FarAct → List Nat
  | .load d _ _ _ _ _ => [d]
  | .atom _ _ _ d _ _ => [d]
  | .lock d _ _ => [d, d + 1]
  | .unlock d _ _ => [d]
  | _ => []

/-- Whether a far request is an acquire (R317). -/
def FarAct.acquires : FarAct → Bool
  | .load _ _ _ _ a _ => a
  | .atom _ _ _ _ _ o => o
  | .lock _ _ _ => true
  | _ => false

/-- Whether a far request is a release (R316). -/
def FarAct.releases : FarAct → Bool
  | .store _ _ r => r
  | .atom _ _ _ _ _ o => o
  | .unlock _ _ _ => true
  | _ => false

/-- Scalar registers of a group that queued vector instructions will write (R221, R266). -/
def Work.scalarsDue (w : Work) (slot block : Nat) : List Nat :=
  (w.engine.queue.filter (fun v => v.slot == slot && v.block == block && veWritesS v.w)).map (fun v => vSs v.w) ++
  w.engine.ruq.flatMap (fun r => match r with
    | .get _ sl bl iw _ => if sl == slot && bl == block && vSub iw < 4 then [vSs iw] else []
    | .red _ _ _ _ _ _ => [])

/-- Whether a matrix instruction of a group issued before a stamp is not complete on an array of a set (R141). -/
def Work.mxOpen (w : Work) (slot block : Nat) (arrays : BitVec 4) (stamp : Nat) : Bool :=
  w.arrays.any (fun a => arrays.getLsbD a.1 &&
    (a.2.fwd ++ a.2.bwd ++ a.2.accq ++ a.2.taken.map (·.entry)).any
      (fun m => m.slot == slot && m.block == block && m.stamp < stamp))

/-- Whether a copy of a group issued before a stamp is not complete on a channel of a set (R294). -/
def Work.copyOpen (w : Work) (slot block : Nat) (chans : BitVec 4) (stamp : Nat) : Bool :=
  w.chans.any (fun c => chans.getLsbD c.1 &&
    (c.2.queue ++ c.2.runs.map (·.entry)).any (fun m => m.slot == slot && m.block == block && m.stamp < stamp))

/-- Whether a write in the release set of a release of a block's group is not yet performed (R316): its own earlier
writes to FAR, HOLD or STASH, and those of the block's other groups before a BARB it has passed. -/
def Work.releaseOpen (w : Work) (slot block barStamp stamp : Nat) : Bool :=
  let mine (sl bl st : Nat) : Bool := bl == block && ((sl == slot && st < stamp) || (st < barStamp && st < stamp))
  w.farAll.any (fun r => r.act.writes && mine r.slot r.block r.stamp) ||
  w.chans.any (fun c =>
    c.2.queue.any (fun q => mine q.slot q.block q.stamp && (deckTensor w.deck q.dst).space != 1) ||
    c.2.runs.any (fun r => mine r.entry.slot r.entry.block r.entry.stamp && r.dst.space != 1))

/-! ### Far-request slots (R309) -/

/-- Whether a place lies in another package. -/
def Place.isRemote : Place → Bool
  | .remote _ _ => true
  | _ => false

/-- Whether a request belongs to the tensor mover. -/
def FarAct.isMover : FarAct → Bool
  | .run _ _ _ => true
  | .cmd _ _ _ => true
  | _ => false

/-- Whether the caps of R309 admit one more request aimed at a place. -/
def Work.admits (w : Work) (pl : Place) (mover : Bool) : Bool :=
  let l := w.slots.map (·.2)
  l.length < 64 &&
  (pl.isRemote || (l.filter (fun r => !r.place.isRemote && bankOf r.place == bankOf pl)).length < 16) &&
  (!mover || (l.filter (fun r => r.act.isMover)).length < 48) &&
  (!pl.isRemote || (l.filter (fun r => r.place.isRemote)).length < 32)

/-- The access kind of a far instruction: loads read, stores write, the rest do both. -/
def farAcc (w : DWord) : Acc := if wOp w = 0x42 then ⟨true, false⟩ else if wOp w = 0x43 then ⟨false, true⟩ else ⟨true, true⟩

/-- Where an active lane's far access leads. -/
def State.laneXl (s : State) (t : Seat) (w : DWord) (lane : Nat) : Xl :=
  s.translate t.d.who (t.g.farAddr w lane) (farAcc w)

/-- No far-request slot is free for the group's next far access (R221, R309): a lane's request of an earlier instruction that
still waits for one, or else the lowest lane's. -/
def State.noSlot (s : State) (t : Seat) (w : DWord) : Bool :=
  let k := s.work t.p
  match t.g.lanes with
  | [] => false
  | l :: _ => match s.laneXl t w l with
    | .no _ => false
    | .ok pl => k.farWait.any (fun r => !r.act.isMover && r.of t && !k.admits r.place false) || !k.admits pl false

/-! ### Who holds the vector engine (R244, R245) -/

/-- Whether the block may place an instruction in the vector engine's queue: it holds the engine, or it can take it, since
nobody holds it or waits for it and the last holder's instructions, its own too, have completed (R244, R245). -/
def Engine.open_ (e : Engine) (b : Nat) : Bool :=
  match e.holder with
  | .block x => x == b
  | .command _ => false
  | .nobody => e.waiters.isEmpty && e.queue.isEmpty && e.ruq.isEmpty

/-! ### Readiness (R221, R241) -/

/-- The deck envelopes of a thread-engine deck access. -/
def deckEnvs (t : Seat) (w : DWord) : List Env :=
  let n := if wOp w < 0x44 then 2 ^ (wSub w % 4) else 4
  t.g.lanes.map (fun l => let a := t.g.deckAddr w l; deckEnv (wOp w != 0x40) (a, a + n))

/-- A deck access of the thread engine. -/
def isDeckAccess (w : DWord) : Bool :=
  wOp w == 0x40 || wOp w == 0x41 || ((wOp w == 0x50 || wOp w == 0x51) && wSub w % 2 == 0)

/-- The counter index (R242) of the cause that keeps a group from being ready for word w; none where it is ready. The
causes are tried in the order of R241; the instruction would issue after every one issued so far. A destination that an earlier result is still to write also waits (log entry 10). -/
def State.stall (s : State) (t : Seat) (w : DWord) : Option Nat :=
  let k := s.work t.p
  let stamp := (s.core t.p).seq + 1
  let op := wOp w
  let u := uses w
  let mine := k.farAll.filter (fun r => r.of t)
  let due := mine.flatMap (fun r => r.act.dsts)
  let sdue := k.scalarsDue t.slot t.g.block
  let a := k.array (mArr w)
  let isBar := match t.g.held with
    | .barrier _ => true
    | _ => false
  let isSync := match t.g.held with
    | .msync m st => k.mxOpen t.slot t.g.block m st
    | _ => false
  let isWait := match t.g.held with
    | .twait m st => k.copyOpen t.slot t.g.block m st
    | _ => false
  if isBar then some 45
  else if isSync then some 46
  else if (u.tr ++ u.tw).any (fun r => due.contains r) || (isAccess w && mine.any (fun r => r.act.acquires)) ||
      (isAcquire w && mine.any (fun r => r.act.releases)) ||
      (op == 0x51 && isDeckAccess w && k.releaseOpen t.slot t.g.block t.g.barStamp stamp) then some 47
  else if isWait || (u.sr ++ u.sw).any (fun r => sdue.contains r) ||
      (isDeckAccess w && k.blocked stamp (deckEnvs t w)) then some 48
  else if isFar w && s.noSlot t w then some 49
  else if op == 0xA0 && 8 ≤ (if fld w 26 26 = 0 then a.fwd else a.bwd).length then some 51
  else if op == 0xA1 && 8 ≤ a.bwd.length then some 51
  else if (op == 0xA2 || op == 0xA3) && 4 ≤ a.accq.length then some 51
  else if isVector op && (!k.engine.open_ t.g.block || 16 ≤ k.engine.queue.length) then some 52
  else if op == 0xC0 && 8 ≤ (k.chan (fld w 9 8)).queue.length then some 53
  else none

/-- The same for the word at the group's pc; a fetch past the code and a reserved opcode wait only at a hold. -/
def State.stallNext (s : State) (t : Seat) : Option Nat :=
  match t.fetch with
  | none => s.stall t 0x65
  | some w => if opReserved (wOp w) then s.stall t 0x65 else s.stall t w

/-- The groups of a port: slots of the same parity that can issue (R220). -/
def State.portSeats (s : State) (p slot : Nat) : List Seat :=
  ((List.range 64).filter (fun k => k % 2 == slot % 2)).filterMap (fun k => s.seat p k)

/-- Whether the first group issued less recently than the second, or comes first among those that have not issued (R220). -/
def Seat.before (a b : Seat) : Bool := a.g.stamp < b.g.stamp || (a.g.stamp == b.g.stamp && a.slot < b.slot)

/-- Whether the port chooses this group among its ready groups (R220). -/
def State.chosen (s : State) (t : Seat) : Bool :=
  (s.portSeats t.p t.slot).all (fun x => !(x.before t && (s.stallNext x).isNone))

/-- Whether the port would charge a beat to this group: no group of it is ready, and this one would be chosen if every
group were (R241). -/
def State.charged (s : State) (t : Seat) : Bool :=
  (s.portSeats t.p t.slot).all (fun x => (s.stallNext x).isSome && !x.before t)

/-! ### Issuing -/

/-- The thread engine issues from the group: TE_ISSUE, TE_SWITCHES, the port's last group, the order of issue and the
units of R507 (R220, R240, R315). -/
def State.issued (s : State) (t : Seat) : State :=
  let c := s.core t.p
  let port := t.slot % 2
  let sw := match Tab.get? c.portLast port with
    | none => 0
    | some k => b2n (k != t.g.stamp)
  let c1 := (c.count 42 1).count 54 sw
  let w := c1.work.setGroup t.slot { t.g with stamp := c.seq + 1, held := .no }
  (s.setCore t.p { c1 with work := w, seq := c.seq + 1, portLast := Tab.set c1.portLast port (c.seq + 1) }).activity
    (t.p / 48) [t.d.ctx] 200

/-- The seat after it has issued. -/
def Seat.issued (t : Seat) (seq : Nat) : Seat := { t with g := { t.g with stamp := seq + 1, held := .no } }

/-- What an instruction does at issue: a fault (R227), or the state after it. -/
inductive Issued where
  | fault (status : Nat)
  | done (s : State)
deriving DecidableEq, Repr

/-! ### Stopping a dispatch (R143, R227, R248, R306, R354) -/

/-- The vector engine held by nobody where a command held it (R243). -/
def Work.release (w : Work) (c : Cid) : Work :=
  if w.engine.holder = .command c then { w with engine := { w.engine with holder := .nobody } } else w

/-- Stops the work of a command on a core at a tile boundary: its groups issue nothing more, and its queued matrix,
vector, reduction and copy instructions are discarded. Passes taken, requests outstanding and thread requests run on. -/
def Work.stop (w : Work) (c : Cid) : Work :=
  let mine (b : Nat) : Bool := (Tab.get? w.blocks b).any (fun x => x.cid == c)
  let keepM (l : List MxEntry) : List MxEntry := l.filter (fun m => !mine m.block)
  { w with
    groups := Tab.mapVals (fun g => if mine g.block then { g with faulted := true } else g) w.groups
    arrays := Tab.mapVals (fun a => { a with fwd := keepM a.fwd, bwd := keepM a.bwd, accq := keepM a.accq }) w.arrays
    engine := { w.engine with
      holder := (w.release c).engine.holder
      queue := w.engine.queue.filter (fun v => !mine v.block)
      ruq := w.engine.ruq.filter (fun r => match r with
        | .red _ _ b _ _ _ => !mine b
        | .get _ _ b _ _ => !mine b)
      waiters := w.engine.waiters.filter (fun b => !mine b) }
    chans := Tab.mapVals (fun k => { k with queue := k.queue.filter (fun q => !mine q.block) }) w.chans
    farWait := w.farWait.filter (fun r => match r.act with
      | .cmd x _ _ => x != c
      | .run _ _ _ => !mine r.block
      | _ => true) }

/-- Stops every core's work of a command, the pre-empted work of its partition included. -/
def State.stopWork (s : State) (c : Cid) : State :=
  let s1 : State := { s with cores := Tab.mapVals (fun k => k.setWork (k.work.stop c)) s.cores }
  let x := s1.ptn c.ptn
  if x.saved.isEmpty then s1 else s1.setPtn c.ptn { x with saved := x.saved.map (fun v => { v with work := v.work.stop c }) }

/-- Ends a dispatch in error (R227, R162): the first status stands, and its work stops. Log entry 107 (DEDUCED). -/
def State.endDisp (s : State) (d : Disp) (status : Nat) (info : DWord) : State :=
  ((if d.status = 0 then s.setDisp { d with status := status, info := info } else s)).stopWork d.cid

/-- INFO of a dispatch that faulted (R398). -/
def faultInfo (p slot pc : Nat) : DWord := BitVec.ofNat 64 (p + 2 ^ 8 * slot + 2 ^ 32 * pc)

/-- A group faults (R227): its dispatch ends with the fault code, and the Dealer takes a GROUP_FAULT record naming the
core, slot, lane mask and pc (R480). -/
def State.groupFault (s : State) (t : Seat) (status : Nat) (injected : Bool) : State :=
  let s1 := s.endDisp t.d status (faultInfo t.p t.slot t.g.pc)
  let u := coreUnit t.p
  s1.reportErr { report 0x14 u with
    status := status
    ctx := [t.d.ctx]
    ptn := [t.b.cid.ptn]
    d0 := BitVec.ofNat 64 (t.g.active.toNat + 2 ^ 32 * t.slot + 2 ^ 38 * t.p)
    d1 := BitVec.ofNat 64 t.g.pc
    injected := injected }

/-- A group that waits for an engine another block holds registers as waiting (R245). -/
def State.wait (s : State) (t : Seat) (w : DWord) (cause : Nat) : State :=
  let k := s.work t.p
  if cause = 52 ∧ isVector (wOp w) ∧ !k.engine.open_ t.g.block ∧ !k.engine.waiters.contains t.g.block then
    s.setWork t.p { k with engine := { k.engine with waiters := k.engine.waiters ++ [t.g.block] } }
  else s

/-- An issue row: core p's port issues word w from a slot, w being the word at the group's pc and carrying the row's
opcode. Where the group is not ready the beat is charged (R241); where the port would choose another group, or the row
does not name what stands there, nothing happens (log entry 2). A reserved opcode, which no row carries, faults under any row
(R235), and so does a fetch at or past CODE_BYTES, of which no rule speaks (log entry 129). run answers what the instruction does. -/
def State.issue (s : State) (p slot : Nat) (w : DWord) (op : Nat) (run : State → Seat → Issued) : State :=
  match s.seat p slot with
  | none => s
  | some t =>
    let bad := match t.fetch with
      | none => true
      | some f => opReserved (wOp f)
    if !(bad || (t.fetch == some w && wOp w == op)) then s
    else match s.stallNext t with
      | some c => (if s.charged t then s.count p c 1 else s).wait t w c
      | none =>
        if !s.chosen t then s
        else
          let s1 := s.issued t
          let t1 := t.issued (s.core p).seq
          let wide := match t.fetch with
            | none => false
            | some f => groupWide (wOp f)
          if bad then
            s1.groupFault t1 (if wide && !t.g.converged then St.groupDivergent else St.illegalInstruction) false
          else if wide && (s.core p).faultNext != 0 then
            let c := s1.core p
            (s1.setCore p { c with faultNext := c.faultNext - 1 }).groupFault t1 St.illegalInstruction true
          else match run s1 t1 with
            | .fault st => s1.groupFault t1 st false
            | .done s2 => s2

end Sys2Proof.Machine
end

