-- ==== Sys2Proof/Machine/Copying.lean ====
section
/-! DEFINITION. What a copy writes (R298 to R304): reading elements and scales of a view, the bytes the destination takes,
and the bytes of the on-package spaces DECK, HOLD and STASH. -/

namespace Sys2Proof.Machine

/-! ### Elements of a view -/

/-- A source of bytes by address in the view's space. -/
abbrev Bytes := Table Byte

/-- The byte at an address. -/
def byteIn (t : Bytes) (a : Int) : Nat := (Tab.get t (addrNat a) 0).toNat

/-- The bits of the element with tensor indices i (R71, R76, R288). -/
def Tensor.elem (t : Tensor) (m : Bytes) (i : List Int) : Nat :=
  let a := t.byteAddr i
  let w := fmtWidth t.fmt
  if w = 4 then (if t.highNibble i then byteIn m a / 16 else byteIn m a % 16)
  else if w = 8 then byteIn m a
  else if w = 16 then byteIn m a + 256 * byteIn m (a + 1)
  else byteIn m a + 256 * byteIn m (a + 1) + 65536 * byteIn m (a + 2) + 16777216 * byteIn m (a + 3)

/-- The scale of the element (R289); 0 for linear formats. -/
def Tensor.scale (t : Tensor) (m : Bytes) (i : List Int) : Int := if isL t.fmt then scaleInt (byteIn m (t.scaleAddr i)) else 0

/-- FILL's element bits (R290). -/
def Tensor.fillBits (t : Tensor) : Nat := t.fill.toNat % 2 ^ fmtWidth t.fmt

/-- FILL's scale byte (R290). -/
def Tensor.fillScale (t : Tensor) : Nat := bits t.fill.toNat 23 16

/-- An L element with code 0 is written with sign 0 (R75). -/
def plusZero (fmt b : Nat) : Nat := if isL fmt && b % ((lfmt fmt).cmax + 1) == 0 then 0 else b

/-- What a view position reads: its element bits, and its scale byte where it is in bounds (R301). -/
def Tensor.read (t : Tensor) (m : Bytes) (v : List Nat) : Nat × Option Nat :=
  if t.inBounds v then
    let i := t.index v
    (t.elem m i, if isL t.fmt then some (byteIn m (t.scaleAddr i)) else none)
  else (t.fillBits, none)

/-- The exact value of what a view position reads (R88). -/
def Tensor.value (t : Tensor) (m : Bytes) (v : List Nat) : Val :=
  if t.inBounds v then let i := t.index v; decodeElem t.fmt (t.scale m i) (t.elem m i)
  else decodeElem t.fmt (scaleInt t.fillScale) t.fillBits

/-- Writes element bits at tensor indices i into destination bytes; old gives bytes not written yet (R76). -/
def Tensor.put (t : Tensor) (old m : Bytes) (i : List Int) (b : Nat) : Bytes :=
  let a := addrNat (t.byteAddr i)
  let w := fmtWidth t.fmt
  if w = 4 then
    let cur := (Tab.get m a (Tab.get old a 0)).toNat
    let last := (i.headD 0) + 1 == (((t.dim 0).bound : Nat) : Int)
    if t.highNibble i then Tab.set m a (BitVec.ofNat 8 (cur % 16 + 16 * b))
    else Tab.set m a (BitVec.ofNat 8 ((if last then 0 else cur / 16 * 16) + b % 16))
  else ((natLe (w / 8) b).zip (List.range (w / 8))).foldl (fun x e => Tab.set x (a + e.2) e.1) m

/-- What a copy leaves: destination bytes, and saturations counted (R303). -/
structure Written where
  bytes : Bytes
  sats  : Nat
deriving DecidableEq, Repr

/-- A position of a copy: its place in the destination and in the source. -/
structure Pos where
  dst : List Int
  src : List Nat
deriving DecidableEq, Repr

/-- The in-bounds destination positions in element order (R298, R301). -/
def copyPositions (src dst : Tensor) (perm : Nat) : List Pos :=
  (dst.positions.filter dst.inBounds).map (fun v => ⟨dst.index v, sourcePos perm src.ndim v⟩)

/-- A plain copy: elements keep their bits; each destination block takes its source block's scale, or FILL's where it is
fill alone (R298, R299, R302). -/
def copyPlain (src dst : Tensor) (ps : List Pos) (m old : Bytes) : Written :=
  let data := ps.foldl (fun x q => dst.put old x q.dst (plusZero src.fmt (src.read m q.src).1)) []
  let scales : Bytes :=
    if isL dst.fmt then
      let a := ps.foldl (fun (x : Bytes) q => Tab.set x (addrNat (dst.scaleAddr q.dst)) (BitVec.ofNat 8 src.fillScale)) []
      ps.foldl (fun (x : Bytes) q => match (src.read m q.src).2 with
        | some e => Tab.set x (addrNat (dst.scaleAddr q.dst)) (BitVec.ofNat 8 e)
        | none => x) a
    else []
  ⟨scales.foldl (fun x e => Tab.set x e.1 e.2) data, 0⟩

/-- An accumulate-store: binary32 additions in element order (R300). -/
def copyAcc (src dst : Tensor) (ps : List Pos) (m old : Bytes) : Written :=
  let step (x : Bytes) (q : Pos) : Bytes :=
    let cur := dst.elem (x.foldl (fun y e => Tab.set y e.1 e.2) (old.filter (fun e =>
      let a := addrNat (dst.byteAddr q.dst); a ≤ e.1 && e.1 < a + 4))) q.dst
    dst.put old x q.dst (f32.add cur (src.read m q.src).1)
  ⟨ps.foldl step [], 0⟩

/-- A re-blocking copy: each destination block's elements are decoded and give its scale under R89, and then the elements are
encoded to nearest in element order (R299, R303). -/
def copyReblk (src dst : Tensor) (ps : List Pos) (m old : Bytes) : Written :=
  let key (q : Pos) : Nat := addrNat (dst.scaleAddr q.dst)
  let scales : Table Int := ((ps.map key).eraseDups).map (fun k =>
    (k, chooseScale ((ps.filter (fun q => key q == k)).map (fun q => src.value m q.src))))
  let enc (y : Written) (q : Pos) : Written :=
    let r := (lfmt dst.fmt).encode (Tab.get scales (key q) 0) .nearest (src.value m q.src)
    ⟨dst.put old y.bytes q.dst r.bits, y.sats + b2n r.sat⟩
  let y := ps.foldl enc ⟨[], 0⟩
  { y with bytes := scales.foldl (fun x e => Tab.set x e.1 (BitVec.ofNat 8 (scaleByte e.2))) y.bytes }

/-- The bytes a copy writes for some of its positions. -/
def copyBytes (src dst : Tensor) (reblk : Bool) (ps : List Pos) (m old : Bytes) : Written :=
  if reblk then copyReblk src dst ps m old
  else if dst.acc then copyAcc src dst ps m old
  else copyPlain src dst ps m old

/-- The 64-byte granule of the source element of a position. -/
def Tensor.granule (t : Tensor) (v : List Nat) : Nat := addrNat (t.byteAddr (t.index v)) / 64

/-- The source bytes as the mover reads them (R304): where the copy's destination overlaps its source, each granule is
read before or after the copy's other writes, which of them free. late says so for each granule. -/
def snapshot (src dst : Tensor) (reblk : Bool) (ps : List Pos) (m old : Bytes) (late : Nat → Bool) : Bytes :=
  if src.space != dst.space || !(src.ranges.any (fun x => dst.ranges.any (rangesMeet x))) then m
  else
    let early := ps.filter (fun q => !(src.inBounds q.src && late (src.granule q.src)))
    let w := (copyBytes src dst reblk early m old).bytes
    m.map (fun e => if late (e.1 / 64) then (e.1, Tab.get w e.1 e.2) else e)

/-- A free choice for each granule from one draw (log entry 7). Log entry 102 (DESIGN CHOICE). -/
def State.lateChoice (s : State) (g : Nat) : Bool := bit (Config.choice s.fresh) (g % 4096)

/-- Everything a copy writes, given the source bytes and old destination bytes. -/
def State.copyResult (s : State) (src dst : Tensor) (perm : Nat) (reblk : Bool) (m old : Bytes) : Written :=
  let ps := copyPositions src dst perm
  copyBytes src dst reblk ps (snapshot src dst reblk ps m old s.lateChoice) old

/-! ### The on-package spaces -/

/-- Bytes of each quarter's scratch part (R280). -/
def State.scratchBytes (s : State) (n : Nat) : Nat :=
  let h := s.reg (Reg.holdMode n)
  25165824 - (if fld h 0 0 = 1 then fld h 3 1 * 3145728 else 0)

/-- Bytes of a partition's scratch space (R280). -/
def State.scratchSize (s : State) (n : Nat) : Nat := (s.quartersOf n).length * s.scratchBytes n

/-- Whether a context owns the partition's scratch (R281). -/
def State.ownsHold (s : State) (n : Nat) (c : CtxId) : Bool :=
  let h := s.reg (Reg.holdOwner n)
  fld h 20 20 == 1 && fld h 11 0 == c.id && fld h 19 12 == c.gen

/-- The quarter and offset of a hold offset (R280). -/
def State.holdAt (s : State) (n off : Nat) : Nat × Nat :=
  (((s.quartersOf n)[off / s.scratchBytes n]?).getD 0, off % s.scratchBytes n)

/-- The addresses of a view's ranges. -/
def rangeAddrs (r : Int × Int) : List Nat := (List.range (r.2 - r.1).toNat).map (fun i => r.1.toNat + i)

/-- The addresses that the in-bounds positions of a view read or write, data and scales, without repeats. -/
def Tensor.addrs (t : Tensor) : List Nat :=
  let one (v : List Nat) : List Nat :=
    let i := t.index v
    let a := addrNat (t.byteAddr i)
    (List.range (elemBytes t.fmt)).map (a + ·) ++ (if isL t.fmt then [addrNat (t.scaleAddr i)] else [])
  ((t.positions.filter t.inBounds).flatMap one).eraseDups

/-- Reads listed addresses of DECK, HOLD or STASH for core p and dispatch d: the bytes, and whether a word or unit was
uncorrectable. -/
def State.spaceRead (s : State) (p : Nat) (d : Disp) (space : Nat) (as : List Nat) : State × Bytes × Bool :=
  let n := d.cid.ptn
  if space = 1 then
    (((as.map (· / 8)).eraseDups).foldl (fun t w => t.deckCheck p (8 * w) 1) s, as.map (fun a => (a, Mem.read (s.work p).deck a)), false)
  else if space = 2 then
    let r := ((as.map (· / 8)).eraseDups).foldl (fun (x : State × Bool) w =>
      let h := s.holdAt n (8 * w)
      let y := x.1.holdCheck h.1 h.2 1 [d.ctx] (coreUnit p)
      (y.1, x.2 || y.2)) (s, false)
    (r.1, as.map (fun a => let h := s.holdAt n a; (a, Mem.read (Tab.get s.hold h.1 []) h.2)), r.2)
  else
    let y := s.stashRead p d as
    (y.1, as.zip y.2.1, y.2.2)

/-- Writes bytes into DECK, HOLD or STASH for core p and dispatch d. -/
def State.spaceWrite (s : State) (p : Nat) (d : Disp) (space : Nat) (m : Bytes) : State :=
  let n := d.cid.ptn
  m.foldl (fun t e =>
    if space = 1 then t.deckPut p e.1 [e.2]
    else if space = 2 then (let h := s.holdAt n e.1; t.holdPut h.1 h.2 [e.2])
    else t.stashWrite p d e.1 [e.2]) s

/-! ### Requests of a copy (R308) -/

/-- Contiguous runs of ascending addresses within aligned 256-byte blocks. -/
def runsOf : List Nat → List (Nat × Nat)
  | [] => []
  | a :: rest =>
    match runsOf rest with
    | [] => [(a, 1)]
    | (b, n) :: more => if b = a + 1 ∧ b / 256 = a / 256 then (a, n + 1) :: more else (a, 1) :: (b, n) :: more

/-- Runs of ascending addresses within aligned 256-byte blocks, each 64-byte granule's addresses in one run with the bytes
between them: a granule is read in one indivisible read (R304). -/
def granuleRuns : List Nat → List (Nat × Nat)
  | [] => []
  | a :: rest =>
    match granuleRuns rest with
    | [] => [(a, 1)]
    | (b, n) :: more =>
      if b / 256 = a / 256 ∧ (b = a + 1 ∨ b / 64 = a / 64) then (a, n + (b - a)) :: more else (a, 1) :: (b, n) :: more

/-- Inserts a number in ascending order without repeats. -/
def insertNat (x : Nat) : List Nat → List Nat
  | [] => [x]
  | y :: l => if x < y then x :: y :: l else if x = y then y :: l else y :: insertNat x l

/-- Numbers in ascending order without repeats. -/
def sortNat (l : List Nat) : List Nat := l.foldl (fun acc x => insertNat x acc) []

/-- The read requests for listed addresses. The places are given by a translation already checked. -/
def readRuns (xl : Nat → Option Place) (old : Bool) (as : List Nat) : List Run :=
  (granuleRuns (sortNat as)).filterMap (fun r => (xl r.1).map (fun pl => ⟨r.1, pl, r.2, false, old, []⟩))

/-- The write requests for destination bytes, sorted by address. -/
def writeRuns (xl : Nat → Option Place) (m : Bytes) : List Run :=
  (runsOf (sortNat (m.map (·.1)))).filterMap (fun r => (xl r.1).map (fun pl =>
    ⟨r.1, pl, r.2, true, false, (List.range r.2).map (fun i => Tab.get m (r.1 + i) 0)⟩))

/-- The place of an address for a dispatch, whatever its permissions: what translation has already allowed. -/
def State.placeOf (s : State) (w : Who) (a : Nat) : Option Place :=
  match s.translate w a ⟨false, false⟩ with
  | .ok pl => some pl
  | .no _ => none

/-- The first failure of R307 among listed addresses. -/
def State.xlFails (s : State) (w : Who) (acc : Acc) (as : List Nat) : Option Nat :=
  as.findSome? (fun a => match s.translate w a acc with
    | .ok _ => none
    | .no st => some st)

end Sys2Proof.Machine
end

