-- ==== Sys2Proof/Machine/Thread.lean ====
section
/-! DEFINITION. Thread arithmetic, control, group cooperation and scalar instructions (R217 to R230, R236 to R238). -/

namespace Sys2Proof.Machine

/-! ### The shapes of an instruction -/

/-- A thread instruction: a reserved encoding faults, else act gives the group after it, its pc moved on (R238). -/
def threadRun (w : DWord) (act : Seat → Group) (s : State) (t : Seat) : Issued :=
  if threadLegal t.pr.nreg w then .done (s.putGroup t (act t)) else .fault St.illegalInstruction

/-- The group after every active lane has written register r with a value by lane, at the next instruction. -/
def Seat.write (t : Seat) (r : Nat) (f : Nat → Word) : Group := (t.g.setLanes r f t.g.lanes).advance

/-- An arithmetic instruction: each active lane writes DST with f SUB a b c (R238). -/
def arith (w : DWord) (f : Nat → Word → Word → Word → Word) : State → Seat → Issued :=
  threadRun w (fun t => t.write (wDst w) (fun l => f (wSub w) (t.g.t (wA w) l) (t.g.b w l) (t.g.t (wC w) l)))

/-- A scalar instruction: s[DST] takes f SUB a b, whatever the active mask (R218, R237). -/
def scalar (w : DWord) (f : Nat → DWord → DWord → DWord) (s : State) (t : Seat) : Issued :=
  if scalarLegal w then
    .done (s.putGroup t (t.g.setS (wDst w) (f (wSub w) (t.g.s (wA w)) (t.g.bs w))).advance)
  else .fault St.illegalInstruction

/-! ### Operations (R238) -/

/-- High 32 bits of a x b: SUB 0 unsigned, 1 signed. -/
def mulHigh (sub : Nat) (a b : Word) : Word :=
  if sub = 0 then BitVec.ofNat 32 (a.toNat * b.toNat / 2 ^ 32) else BitVec.ofInt 32 (a.toInt * b.toInt / 2 ^ 32)

/-- Shift right by b mod 32: SUB 0 logical, 1 arithmetic. -/
def shiftRight (sub : Nat) (a b : Word) : Word :=
  if sub = 0 then a >>> (b.toNat % 32) else a.sshiftRight (b.toNat % 32)

/-- Integer minimum or maximum: SUB 0 min signed, 1 max signed, 2 min unsigned, 3 max unsigned. -/
def intMinMax (sub : Nat) (a b : Word) : Word :=
  if sub = 0 then (if BitVec.slt a b then a else b)
  else if sub = 1 then (if BitVec.slt a b then b else a)
  else if sub = 2 then (if BitVec.ult a b then a else b)
  else (if BitVec.ult a b then b else a)

/-- FCVT: SUB 0 signed to binary32, 1 unsigned to binary32, 2 binary32 to signed. -/
def convert (sub : Nat) (a : Word) : Word :=
  if sub = 0 then toF32 (Val.ofInt a.toInt)
  else if sub = 1 then toF32 (Val.ofInt a.toNat)
  else BitVec.ofInt 32 ((f32.decode a.toNat).toIntSat (-(2 ^ 31)) (2 ^ 31 - 1))

/-- FFMA: a x b + c rounded once. -/
def fmaWord (a b c : Word) : Word := BitVec.ofNat 32 (f32.fma a.toNat b.toNat c.toNat)
/-- FMINMAX: SUB 0 min, 1 max. -/
def minmaxWord (sub : Nat) (a b : Word) : Word := BitVec.ofNat 32 (f32.minmax (sub == 1) a.toNat b.toNat)
/-- FRCP. -/
def rcpWord (a : Word) : Word := BitVec.ofNat 32 (f32.rcp a.toNat)

/-! ### Arithmetic -/

/-- IADD: a + b (R238). -/
def execIadd (p slot : Nat) (w : DWord) (s : State) : Out :=
  onWf (.iadd p slot w) (s.issue p slot w 0x00 (arith w (fun _ a b _ => a + b)))

/-- ISUB: a − b (R238). -/
def execIsub (p slot : Nat) (w : DWord) (s : State) : Out :=
  onWf (.isub p slot w) (s.issue p slot w 0x01 (arith w (fun _ a b _ => a - b)))

/-- IMUL: the low 32 bits of a x b (R238). -/
def execImul (p slot : Nat) (w : DWord) (s : State) : Out :=
  onWf (.imul p slot w) (s.issue p slot w 0x02 (arith w (fun _ a b _ => a * b)))

/-- IMULH (R238). -/
def execImulh (p slot : Nat) (w : DWord) (s : State) : Out :=
  onWf (.imulh p slot w) (s.issue p slot w 0x03 (arith w (fun k a b _ => mulHigh k a b)))

/-- AND (R238). -/
def execAnd (p slot : Nat) (w : DWord) (s : State) : Out :=
  onWf (.and p slot w) (s.issue p slot w 0x04 (arith w (fun _ a b _ => a &&& b)))

/-- OR (R238). -/
def execOr (p slot : Nat) (w : DWord) (s : State) : Out :=
  onWf (.or p slot w) (s.issue p slot w 0x05 (arith w (fun _ a b _ => a ||| b)))

/-- XOR (R238). -/
def execXor (p slot : Nat) (w : DWord) (s : State) : Out :=
  onWf (.xor p slot w) (s.issue p slot w 0x06 (arith w (fun _ a b _ => a ^^^ b)))

/-- SHL: shift left by b mod 32 (R238). -/
def execShl (p slot : Nat) (w : DWord) (s : State) : Out :=
  onWf (.shl p slot w) (s.issue p slot w 0x07 (arith w (fun _ a b _ => a <<< (b.toNat % 32))))

/-- SHR (R238). -/
def execShr (p slot : Nat) (w : DWord) (s : State) : Out :=
  onWf (.shr p slot w) (s.issue p slot w 0x08 (arith w (fun k a b _ => shiftRight k a b)))

/-- ICMP: 1 or 0 (R238). -/
def execIcmp (p slot : Nat) (w : DWord) (s : State) : Out :=
  onWf (.icmp p slot w) (s.issue p slot w 0x09 (arith w (fun k a b _ => flag ((icmpFlag k a b).getD false))))

/-- SEL: b if a is not 0, else c (R238). -/
def execSel (p slot : Nat) (w : DWord) (s : State) : Out :=
  onWf (.sel p slot w) (s.issue p slot w 0x0A (arith w (fun _ a b c => if a = 0 then c else b)))

/-- IMINMAX (R238). -/
def execIminmax (p slot : Nat) (w : DWord) (s : State) : Out :=
  onWf (.iminmax p slot w) (s.issue p slot w 0x0B (arith w (fun k a b _ => intMinMax k a b)))

/-- FADD (R238). -/
def execFadd (p slot : Nat) (w : DWord) (s : State) : Out :=
  onWf (.fadd p slot w) (s.issue p slot w 0x10 (arith w (fun _ a b _ => fadd32 a b)))

/-- FMUL (R238). -/
def execFmul (p slot : Nat) (w : DWord) (s : State) : Out :=
  onWf (.fmul p slot w) (s.issue p slot w 0x11 (arith w (fun _ a b _ => fmul32 a b)))

/-- FFMA: a x b + c with one rounding (R238). -/
def execFfma (p slot : Nat) (w : DWord) (s : State) : Out :=
  onWf (.ffma p slot w) (s.issue p slot w 0x12 (arith w (fun _ a b c => fmaWord a b c)))

/-- FCMP: 1 or 0 (R238). -/
def execFcmp (p slot : Nat) (w : DWord) (s : State) : Out :=
  onWf (.fcmp p slot w) (s.issue p slot w 0x13 (arith w (fun k a b _ => flag ((fcmpFlag k a b).getD false))))

/-- FMINMAX (R238). -/
def execFminmax (p slot : Nat) (w : DWord) (s : State) : Out :=
  onWf (.fminmax p slot w) (s.issue p slot w 0x14 (arith w (fun k a b _ => minmaxWord k a b)))

/-- FCVT (R238). -/
def execFcvt (p slot : Nat) (w : DWord) (s : State) : Out :=
  onWf (.fcvt p slot w) (s.issue p slot w 0x15 (arith w (fun k a _ _ => convert k a)))

/-- FSQRT: correctly rounded square root (R238). -/
def execFsqrt (p slot : Nat) (w : DWord) (s : State) : Out :=
  onWf (.fsqrt p slot w) (s.issue p slot w 0x16 (arith w (fun _ a _ _ => fsqrt32 a)))

/-- FRCP: correctly rounded 1 ÷ a (R238). -/
def execFrcp (p slot : Nat) (w : DWord) (s : State) : Out :=
  onWf (.frcp p slot w) (s.issue p slot w 0x17 (arith w (fun _ a _ _ => rcpWord a)))

/-! ### Control (R223 to R226) -/

/-- Releases a BARB when every group of the block that has not ended has reached the same one (R226): each goes on behind
it, and remembers the order of issue at that moment (R316). -/
def State.releaseBarrier (s : State) (p block : Nat) : State :=
  let w := s.work p
  let gs := w.groups.filter (fun e => e.2.block == block)
  let at_ (g : Group) : Option Nat := match g.held with
    | .barrier a => some a
    | _ => none
  match gs with
  | [] => s
  | (_, g0) :: _ =>
    if gs.all (fun e => (at_ e.2).isSome && at_ e.2 == at_ g0) then
      let go (e : Nat × Group) : Nat × Group :=
        if e.2.block = block then (e.1, { e.2.advance with held := .no, barStamp := (s.core p).seq }) else e
      s.setWork p { w with groups := w.groups.map go }
    else s

/-- The group after BR (R224): the lanes that branch agree or split; none where a 33rd entry would be pushed. -/
def Seat.branch (t : Seat) (w : DWord) : Option Group :=
  let takes (l : Nat) : Bool := (t.g.t (wA w) l != 0) != (wSub w == 1)
  let yes := t.g.lanes.filter takes
  let no := t.g.lanes.filter (fun l => !takes l)
  let mask (ls : List Nat) : BitVec 32 := ls.foldl (fun m l => m ||| (1 <<< l)) 0
  if no = [] then some (t.g.goto (t.g.target w))
  else if yes = [] then some t.g.advance
  else if 32 ≤ t.g.stack.length then none
  else
    let g := { t.g with stack := .pending (t.g.pc + 8) (mask no) :: t.g.stack, active := mask yes }
    some (g.goto (t.g.target w))

/-- The group after JOINPT (R224). -/
def Seat.join (t : Seat) (w : DWord) : Option Group :=
  if 32 ≤ t.g.stack.length then none
  else some ({ t.g with stack := .reconv (t.g.target w) t.g.active :: t.g.stack }).advance

/-- An instruction that may push an entry: DIVERGENCE_DEPTH where it would be the 33rd (R224). -/
def pushRun (w : DWord) (f : Seat → Option Group) (s : State) (t : Seat) : Issued :=
  if threadLegal t.pr.nreg w then
    match f t with
    | none => .fault St.divergenceDepth
    | some g => .done (s.putGroup t g)
  else .fault St.illegalInstruction

/-- EXIT: the active lanes leave for good; the block's barrier may open when the group ends (R223, R226). -/
def exitRun (w : DWord) (s : State) (t : Seat) : Issued :=
  if threadLegal t.pr.nreg w then
    let g := ({ t.g with exited := t.g.exited ||| t.g.active, active := 0 }).advance
    .done ((s.putGroup t g).releaseBarrier t.p t.g.block)
  else .fault St.illegalInstruction

/-- BARB: the group is held at its pc until the block's other groups reach it (R225, R226). -/
def barbRun (w : DWord) (s : State) (t : Seat) : Issued :=
  if !t.g.converged then .fault St.groupDivergent
  else if threadLegal t.pr.nreg w then
    .done ((s.putGroup t { t.g with held := .barrier t.g.pc }).releaseBarrier t.p t.g.block)
  else .fault St.illegalInstruction

/-- BR (R224). -/
def execBr (p slot : Nat) (w : DWord) (s : State) : Out :=
  onWf (.br p slot w) (s.issue p slot w 0x60 (pushRun w (fun t => t.branch w)))

/-- JMP: pc + 8 x IMM16 for all active lanes (R238). -/
def execJmp (p slot : Nat) (w : DWord) (s : State) : Out :=
  onWf (.jmp p slot w) (s.issue p slot w 0x61 (threadRun w (fun t => t.g.goto (t.g.target w))))

/-- JOINPT (R224). -/
def execJoinpt (p slot : Nat) (w : DWord) (s : State) : Out :=
  onWf (.joinpt p slot w) (s.issue p slot w 0x62 (pushRun w (fun t => t.join w)))

/-- EXIT (R223). -/
def execExit (p slot : Nat) (w : DWord) (s : State) : Out :=
  onWf (.exit p slot w) (s.issue p slot w 0x63 (exitRun w))

/-- BARB (R226). -/
def execBarb (p slot : Nat) (w : DWord) (s : State) : Out :=
  onWf (.barb p slot w) (s.issue p slot w 0x64 (barbRun w))

/-- NOP (R238). -/
def execNop (p slot : Nat) (w : DWord) (s : State) : Out :=
  onWf (.nop p slot w) (s.issue p slot w 0x65 (threadRun w (fun t => t.g.advance)))

/-! ### Group cooperation (R219, R228 to R230) -/

/-- The value SHFL gives lane l (R228): segments of width 2^k, the modes of SUB. -/
def Seat.shuffle (t : Seat) (w : DWord) (l : Nat) : Word :=
  let n := 2 ^ (wImm w / 256 % 8)
  let b := if wBsel w = 2 then wImm w % 256 else (t.g.b w l).toNat
  let r := l % n
  let base := l - r
  let a (k : Nat) : Word := t.g.t (wA w) k
  let mode := wSub w % 8
  if mode = 0 then a (base + (r + b) % n)
  else if mode = 1 then (if b ≤ r then a (l - b) else t.g.t (wC w) l)
  else if mode = 2 then (if r + b < n then a (l + b) else t.g.t (wC w) l)
  else if mode = 3 then a (base + n - 1 - r)
  else a (base + b % n)

/-- The value VOTE gives lane l (R229). -/
def Seat.vote (t : Seat) (w : DWord) (l : Nat) : Word :=
  let pred (k : Nat) : Bool :=
    if 8 ≤ wSub w then (t.g.t (wA w) k).getLsbD ((t.g.b w k).toNat % 32) else t.g.t (wA w) k != 0
  let ls := t.g.lanes
  let mode := wSub w % 8
  if mode = 0 then flag (ls.all pred)
  else if mode = 1 then flag (ls.any pred)
  else if mode = 2 then (ls.filter pred).foldl (fun m k => m ||| (1 <<< k)) 0
  else if mode = 3 then BitVec.ofNat 32 (ls.filter pred).length
  else if mode = 4 then BitVec.ofNat 32 (ls.filter (fun k => k < l && pred k)).length
  else if mode = 5 then BitVec.ofNat 32 ((ls.find? pred).getD 32)
  else flag (ls.all (fun k => t.g.t (wA w) k == t.g.t (wA w) (ls.headD 0)))

/-- The group after MOVS (R230): the lowest active lane's registers into s[DST]. -/
def Seat.toScalar (t : Seat) (w : DWord) : Group :=
  let l := t.g.lanes.headD 0
  let a := (t.g.t (wA w) l).toNat
  let old := t.g.s (wDst w)
  let v := if wSub w = 0 then setFld old 31 0 a
    else if wSub w = 1 then setFld old 63 32 a
    else BitVec.ofNat 64 (a + 2 ^ 32 * (t.g.t (wA w + 1) l).toNat)
  (t.g.setS (wDst w) v).advance

/-- The group after MOVT (R230): s[SRCA] into DST, or DST and DST + 1, of every active lane. -/
def Seat.fromScalar (t : Seat) (w : DWord) : Group :=
  let v := t.g.s (wA w)
  let lo : Word := v.truncate 32
  let hi : Word := (v >>> 32).truncate 32
  let ls := t.g.lanes
  let g := if wSub w = 0 then t.g.setLanes (wDst w) (fun _ => lo) ls
    else if wSub w = 1 then t.g.setLanes (wDst w) (fun _ => hi) ls
    else (t.g.setLanes (wDst w) (fun _ => lo) ls).setLanes (wDst w + 1) (fun _ => hi) ls
  g.advance

/-- The special value RDSP reads (R219). -/
def State.special (s : State) (t : Seat) (code l : Nat) : Word :=
  let n := t.b.cid.ptn
  BitVec.ofNat 32 (
    if code = 0 then l
    else if code = 1 then t.slot
    else if code = 2 then t.g.index
    else if code = 3 then t.b.index
    else if code = 4 then t.d.blocks
    else if code = 5 then t.p
    else if code = 6 then ((s.coresOf n).filter (· < t.p)).length
    else if code = 7 then (s.coresOf n).length
    else if code = 8 then t.b.deckLo
    else if code = 9 then 16384 * t.b.granules
    else if code = 10 then t.g.active.toNat
    else t.b.cid.queue * 2 ^ 26 + t.b.cid.entry % 2 ^ 26)

/-- RDSP writes the special value into DST of every active lane (R219). -/
def rdspRun (w : DWord) (s : State) (t : Seat) : Issued :=
  threadRun w (fun u => u.write (wDst w) (fun l => s.special u (wImm w % 16) l)) s t

/-- SHFL (R228). -/
def execShfl (p slot : Nat) (w : DWord) (s : State) : Out :=
  onWf (.shfl p slot w) (s.issue p slot w 0x70 (threadRun w (fun t => t.write (wDst w) (t.shuffle w))))

/-- VOTE (R229). -/
def execVote (p slot : Nat) (w : DWord) (s : State) : Out :=
  onWf (.vote p slot w) (s.issue p slot w 0x71 (threadRun w (fun t => t.write (wDst w) (t.vote w))))

/-- MOVS (R230). -/
def execMovs (p slot : Nat) (w : DWord) (s : State) : Out :=
  onWf (.movs p slot w) (s.issue p slot w 0x72 (threadRun w (fun t => t.toScalar w)))

/-- MOVT (R230). -/
def execMovt (p slot : Nat) (w : DWord) (s : State) : Out :=
  onWf (.movt p slot w) (s.issue p slot w 0x73 (threadRun w (fun t => t.fromScalar w)))

/-- RDSP (R219). -/
def execRdsp (p slot : Nat) (w : DWord) (s : State) : Out :=
  onWf (.rdsp p slot w) (s.issue p slot w 0x74 (rdspRun w))

/-! ### Scalar instructions (R218, R237, R238) -/

/-- SADD (R238). -/
def execSadd (p slot : Nat) (w : DWord) (s : State) : Out :=
  onWf (.sadd p slot w) (s.issue p slot w 0xD0 (scalar w (fun _ a b => a + b)))

/-- SSUB (R238). -/
def execSsub (p slot : Nat) (w : DWord) (s : State) : Out :=
  onWf (.ssub p slot w) (s.issue p slot w 0xD1 (scalar w (fun _ a b => a - b)))

/-- SAND (R238). -/
def execSand (p slot : Nat) (w : DWord) (s : State) : Out :=
  onWf (.sand p slot w) (s.issue p slot w 0xD2 (scalar w (fun _ a b => a &&& b)))

/-- SOR (R238). -/
def execSor (p slot : Nat) (w : DWord) (s : State) : Out :=
  onWf (.sor p slot w) (s.issue p slot w 0xD3 (scalar w (fun _ a b => a ||| b)))

/-- SXOR (R238). -/
def execSxor (p slot : Nat) (w : DWord) (s : State) : Out :=
  onWf (.sxor p slot w) (s.issue p slot w 0xD4 (scalar w (fun _ a b => a ^^^ b)))

/-- SSHL: shift left by b mod 64 (R238). -/
def execSshl (p slot : Nat) (w : DWord) (s : State) : Out :=
  onWf (.sshl p slot w) (s.issue p slot w 0xD5 (scalar w (fun _ a b => a <<< (b.toNat % 64))))

/-- SSHR: shift right by b mod 64, SUB 0 logical, 1 arithmetic (R238). -/
def execSshr (p slot : Nat) (w : DWord) (s : State) : Out :=
  onWf (.sshr p slot w) (s.issue p slot w 0xD6 (scalar w (fun k a b => if k = 0 then a >>> (b.toNat % 64) else a.sshiftRight (b.toNat % 64))))

/-- SLI writes IMM16 into quarter SUB of s[DST] (R238). -/
def sliRun (w : DWord) (s : State) (t : Seat) : Issued :=
  if scalarLegal w then
    let q := 16 * wSub w
    .done (s.putGroup t (t.g.setS (wDst w) (setFld (t.g.s (wDst w)) (q + 15) q (wImm w))).advance)
  else .fault St.illegalInstruction

/-- SLI (R238). -/
def execSli (p slot : Nat) (w : DWord) (s : State) : Out :=
  onWf (.sli p slot w) (s.issue p slot w 0xD7 (sliRun w))

/-- SMOV: s[DST] := b (R238). -/
def execSmov (p slot : Nat) (w : DWord) (s : State) : Out :=
  onWf (.smov p slot w) (s.issue p slot w 0xD8 (scalar w (fun _ _ b => b)))

end Sys2Proof.Machine
end

