-- ==== Sys2Proof/Machine/Far.lean ====
section
/-! DEFINITION. Far requests (R308, R309, R314 to R319): moving them into far-request slots, performing them, the lock
words of R231 to R233, the atomics of R238, and the progress of a copy on its requests. -/

namespace Sys2Proof.Machine

/-! ### Faults of accesses already issued -/

/-- A far access or a copy of a block fails after issue (R305, R307, R442): its dispatch ends as R227 describes, with a
GROUP_FAULT record of the instruction that issued it. -/
def State.accessFault (s : State) (p slot block pc : Nat) (mask : BitVec 32) (status : Nat) : State :=
  match Tab.get? (s.work p).blocks block with
  | none => s
  | some b => match s.disp? b.cid with
    | none => s
    | some d =>
      (s.endDisp d status (faultInfo p slot pc)).reportErr { report 0x14 (coreUnit p) with
        status := status, ctx := [d.ctx], ptn := [b.cid.ptn],
        d0 := BitVec.ofNat 64 (mask.toNat + 2 ^ 32 * slot + 2 ^ 38 * p), d1 := BitVec.ofNat 64 pc }

/-! ### Remote requests (R413, R421) -/

/-- TAG of a far-request slot (R413). -/
def State.tagOf (s : State) (p k : Nat) : Nat := p + 2 ^ 8 * k + 2 ^ 14 * (Tab.get (s.core p).epochs k 0 % 4)

/-- A request packet of a context to another package. -/
def State.packetTo (s : State) (ctx : CtxId) (pkg type tag op addr len die : Nat) (payload : List Byte) : Packet :=
  let c := s.ctx? ctx
  let e := (c.bind (fun x => Tab.get? x.peers pkg)).getD ⟨0, 0, 0⟩
  pktSeal
    { type := type, vc := 0, detour := false, dest := pkg, src := s.pkgNo, job := (c.map (·.job)).getD 0,
      destPtn := e.ptn, srcPtn := (c.map (·.ptn)).getD 0, die := die, destCtx := e.ctx, destGen := e.gen,
      srcCtx := ctx.id, srcGen := ctx.gen, tag := tag, hops := 0, op := op, addr := addr, lenM1 := len - 1,
      status := 0, e2eCrc := 0, payload := payload }

/-- The packet a far request sends from a slot. -/
def State.requestPacket (s : State) (p k : Nat) (r : FarReq) : Packet :=
  let pkg := r.addr / 2 ^ 52
  let a := r.addr % 2 ^ 52
  let t := s.tagOf p k
  let mk (type op len : Nat) (pay : List Byte) : Packet := s.packetTo r.ctx pkg type t op a len (p / 48) pay
  match r.act with
  | .load _ _ n _ _ _ => mk 1 0 n []
  | .store n v _ => mk 3 0 n (natLe n v.toNat)
  | .atom op b c _ _ _ => mk 5 op 4 (natLe 4 b.toNat ++ natLe 4 c.toNat)
  | .lock _ _ own => mk 5 5 4 (natLe 4 own.toNat ++ natLe 4 0)
  | .unlock _ _ own => mk 5 6 4 (natLe 4 own.toNat ++ natLe 4 0)
  | .run _ _ u => if u.write then mk 3 0 u.len u.bytes else mk 1 0 u.len []
  | .cmd _ u dest =>
    let q := if u.write then mk 3 0 u.len u.bytes else mk 1 0 u.len []
    match dest with
    | [] => q
    | d :: _ => pktSeal { q with destPtn := d.1, destCtx := d.2.id, destGen := d.2.gen }

/-- The bytes of a line from an address with bytes written over it. -/
def overLine (line : Nat) (bytes : List Byte) (m : Table Byte) : List Byte :=
  (List.range 256).map (fun i => Tab.get m (line + i) ((bytes[i]?).getD 0))

/-- A write of a context of a partition to another package updates the lines of the writing die's cache that it covers, and
those on their way there (R284). Lines are known by the context that filled them (R283). -/
def State.cacheUpdate (s : State) (n die : Nat) (c : CtxId) (addr : Nat) (bs : List Byte) : State :=
  let m : Table Byte := bs.zipIdx.map (fun e => (addr + e.2, e.1))
  { s with
    cache := s.cache.map (fun l =>
      if l.ptn = n ∧ l.die = die ∧ l.ctx = c ∧ l.addr / 256 = addr / 256 then { l with bytes := overLine l.addr l.bytes m } else l)
    fills := s.fills.map (fun f =>
      if f.ptn = n ∧ f.p / 48 = die ∧ f.ctx = c ∧ f.addr / 256 = addr / 256 then
        { f with patch := m.foldl (fun t e => Tab.set t e.1 e.2) f.patch } else f) }

/-! ### Into the slots (R309) -/

/-- The number of the last BARB a block's group in a slot has passed; any, when the group has ended (R316). -/
def Work.barOf (w : Work) (slot block stamp : Nat) : Nat :=
  match w.group? slot with
  | some g => if g.block = block then g.barStamp else stamp
  | none => stamp

/-- A LOCKG's lanes act in ascending order (R232): whether an earlier lane of the same instruction is still to act. -/
def Work.laneFirst (w : Work) (r : FarReq) : Bool :=
  match r.act with
  | .lock _ l _ => w.farAll.all (fun o => match o.act with
    | .lock _ m _ => !(o.stamp == r.stamp && m < l)
    | _ => true)
  | _ => true

/-- Whether a waiting request can be issued behind those waiting before it (R309, R315, R316): a channel's requests keep
their order, and a LOCKG's lanes go one after the other (R232). -/
def Work.canSend (w : Work) (before : List FarReq) (r : FarReq) : Bool :=
  w.admits r.place r.act.isMover && !w.blocked r.stamp r.envs && w.laneFirst r &&
  !(r.act.releases && w.releaseOpen r.slot r.block (w.barOf r.slot r.block r.stamp) r.stamp) &&
  (match r.act with
  | .run ch _ _ => before.all (fun b => match b.act with
    | .run c _ _ => c != ch
    | _ => true)
  | _ => true)

/-- The position of the first waiting request that can be issued. -/
def Work.nextSend (w : Work) : List FarReq → List FarReq → Option Nat
  | _, [] => none
  | before, r :: rest => if w.canSend before r then some before.length else w.nextSend (before ++ [r]) rest

/-- Issues the first request that can be issued: the lowest free slot, the way between the dies (R22), a packet where it leaves the
package, the units of R507, and the core's head written out before a release (R165). -/
def State.sendOne (s : State) (p : Nat) : Option State :=
  let w := s.work p
  match w.nextSend [] w.farWait, Tab.lowestFree w.slots 64 with
  | some i, some k =>
    (w.farWait[i]?).map (fun r0 =>
      let r := { r0 with via := s.viaPlace (p / 48) (s.ptnOfCore p) r0.place }
      let s1 := s.setWork p { w with farWait := dropAt w.farWait i, slots := Tab.set w.slots k r }
      let s2 := if r.act.releases then s1.headOut p (s.ptnOfCore p) else s1
      let s3 := s2.activity (p / 48) [r.ctx] 500
      if r.place.isRemote then
        let q := s3.requestPacket p k r
        ((if q.type = 3 then s3.cacheUpdate (s.ptnOfCore p) (p / 48) r.ctx r.addr q.payload else s3).sendPacket q 3)
      else s3)
  | _, _ => none

/-- The requests in slots find their way between the dies anew, as a joint or a frame has gone elsewhere (R23, R451). -/
def State.rerouted (s : State) : State :=
  let way (p : Nat) (r : FarReq) : FarReq := { r with via := s.viaPlace (p / 48) (s.ptnOfCore p) r.place }
  { s with cores := s.cores.map (fun e => (e.1, e.2.setWork { e.2.work with slots := Tab.mapVals (way e.1) e.2.work.slots })) }

/-- Issues every waiting request that can be issued; fuel bounds their number. -/
def State.pump : Nat → State → Nat → State
  | 0, s, _ => s
  | fuel + 1, s, p => match s.sendOne p with
    | none => s
    | some s' => State.pump fuel s' p

/-- Issues what can be issued on core p. -/
def State.pumpAll (s : State) (p : Nat) : State := State.pump (s.work p).farWait.length s p

/-! ### Lock words and atomics -/

/-- The issuing lane's own lock word (R231). -/
def lockWord (p slot lane : Nat) : Word := BitVec.ofNat 32 (lane + 2 ^ 5 * slot + 2 ^ 11 * p + 2 ^ 31)

/-- LOCKG on a word: what it writes, and the status (R232). -/
def lockStep (own old : Word) : Option Word × Word :=
  if !old.getLsbD 31 then (some own, 0)
  else if fld (old.zeroExtend 64) 18 5 = fld (own.zeroExtend 64) 18 5 then (none, 2)
  else (none, 1)

/-- UNLOCKG on a word: what it writes, and the result (R233). -/
def unlockStep (own old : Word) : Option Word × Word :=
  if old.getLsbD 31 && fld (old.zeroExtend 64) 18 0 == fld (own.zeroExtend 64) 18 0 then (some 0, 0) else (none, 1)

/-- An atomic's new value (R238, R413): 0 add, 1 min signed, 2 max signed, 3 swap, 4 compare-and-swap. -/
def atomStep (op : Nat) (old b c : Word) : Word :=
  if op = 0 then old + b
  else if op = 1 then (if BitVec.slt b old then b else old)
  else if op = 2 then (if BitVec.slt old b then b else old)
  else if op = 3 then b
  else (if old = c then b else old)

/-- A loaded value extended to 32 bits (R239). -/
def extend (size : Nat) (sext : Bool) (bs : List Byte) : Word :=
  if sext then BitVec.ofInt 32 (signed (8 * size) (leNat (bs.take size))) else BitVec.ofNat 32 (leNat (bs.take size))

/-! ### Performing a request -/

/-- Writes result registers of the group that issued a request, if it has not ended. -/
def State.giveRegs (s : State) (p : Nat) (r : FarReq) (f : Group → Group) : State :=
  let w := s.work p
  match w.group? r.slot with
  | some g => if g.block = r.block then s.setWork p (w.setGroup r.slot (f g)) else s
  | none => s

/-- Drops the cache lines that a test on partition, die, context and address picks; those on their way go to their copies
alone (R285). -/
def State.dropCached (s : State) (pick : Nat → Nat → CtxId → Nat → Bool) : State :=
  { s with
    cache := s.cache.filter (fun l => !pick l.ptn l.die l.ctx l.addr)
    fills := s.fills.map (fun f => { f with keep := f.keep && !pick f.ptn (f.p / 48) f.ctx f.addr }) }

/-- The lines an acquire drops (R319): those that overlap its range, every line of the context, or none. -/
def State.dropLines (s : State) (die : Nat) (c : CtxId) (drop : List Nat) : State :=
  let hit (a : Nat) : Bool := match drop with
    | [] => false
    | [lo, len] => len != 0 && lo / 2 ^ 52 != s.pkgNo && a < lo + len && lo < a + 256
    | _ => true
  s.dropCached (fun _ d x a => d == die && x == c && hit a)

/-- Whether other far requests of the copy are waiting, in slots, or being fetched by the hold. -/
def State.copyBusy (s : State) (p ch copy : Nat) : Bool :=
  (s.work p).farAll.any (fun r => match r.act with
    | .run c k _ => c == ch && k == copy
    | _ => false) ||
  s.fills.any (fun f => f.p == p && f.ch == ch && f.copy == copy)

/-- Adds the bytes of an answered read to its copy. -/
def State.copyGot (s : State) (p ch copy : Nat) (old : Bool) (addr : Nat) (bs : List Byte) : State :=
  let w := s.work p
  let k := w.chan ch
  let es := (List.range bs.length).zip bs
  let add (t : Bytes) : Bytes := es.foldl (fun x e => Tab.set x (addr + e.1) e.2) t
  let runs := k.runs.map (fun r =>
    if r.entry.stamp = copy then (if old then { r with olds := add r.olds } else { r with vals := add r.vals }) else r)
  s.setWork p (w.setChan ch { k with runs := runs })

/-- Replaces the copy issued at a stamp. -/
def State.setRun (s : State) (p ch : Nat) (r : CopyRun) : State :=
  let w := s.work p
  let k := w.chan ch
  s.setWork p (w.setChan ch { k with runs := k.runs.map (fun x => if x.entry.stamp = r.entry.stamp then r else x) })

/-- A copy whose reads have all been answered goes on to its writes (R298): bytes of an on-package space are written, far
bytes become write requests. -/
def State.copyWrite (s : State) (p ch : Nat) (d : Disp) (r : CopyRun) : State :=
  let w := s.copyResult r.src r.dst r.entry.perm r.entry.reblk r.vals r.olds
  let s1 := ((s.setRun p ch { r with writing := true }).count p 59 w.sats).drawn
  if r.dst.space = 0 then
    let reqs := (writeRuns (s1.placeOf d.who) w.bytes).map (fun u =>
      (⟨r.entry.stamp, r.entry.slot, r.entry.block, d.ctx, u.addr, u.place, .run ch r.entry.stamp u, r.entry.pc, r.entry.mask, []⟩ : FarReq))
    let k := s1.work p
    (s1.setWork p { k with farWait := k.farWait ++ reqs }).pumpAll p
  else s1.spaceWrite p d r.dst.space w.bytes

/-- Goes on with the copy issued at a stamp if its reads are all answered. -/
def State.copyStep (s : State) (p ch copy : Nat) : State :=
  match ((s.work p).chan ch).runs.find? (fun r => r.entry.stamp == copy) with
  | none => s
  | some r =>
    if r.writing || s.copyBusy p ch copy then s
    else match Tab.get? (s.work p).blocks r.entry.block with
      | none => s
      | some b => match s.disp? b.cid with
        | none => s
        | some d => if d.status != 0 then s else s.copyWrite p ch d r

/-- Adds the bytes of an answered read to the command that asked for them. -/
def State.moveGot (s : State) (c : Cid) (addr : Nat) (bs : List Byte) : State :=
  let x := s.ptn c.ptn
  let es := (List.range bs.length).zip bs
  let add (t : Bytes) : Bytes := es.foldl (fun u e => Tab.set u (addr + e.1) e.2) t
  s.setPtn c.ptn { x with moves := x.moves.map (fun m => if m.cid = c then { m with got := add m.got } else m) }

/-- Frees far-request slot k of core p. -/
def State.freeSlot (s : State) (p k : Nat) : State :=
  s.setWork p { s.work p with slots := Tab.erase (s.work p).slots k }

/-- What the issuing core does with the answer to a request whose slot has been freed: the bytes read, or the old value of
an atomic (R239, R232, R233). An acquire drops its cache lines once, with its last lane's answer (R319). -/
def State.farAnswer (s : State) (p : Nat) (r : FarReq) (bs : List Byte) : State :=
  let old : Word := BitVec.ofNat 32 (leNat (bs.take 4))
  match r.act with
  | .load d l n sx _ drop =>
    let s1 := s.giveRegs p r (fun g => g.setT d l (extend n sx bs))
    if (s.work p).farAll.any (fun o => o.stamp == r.stamp && o.slot == r.slot && o.block == r.block) then s1
    else s1.dropLines (p / 48) r.ctx drop
  | .store _ _ _ => s
  | .atom _ _ _ d l _ => s.giveRegs p r (fun g => g.setT d l old)
  | .lock d l own => s.giveRegs p r (fun g => (g.setT d l old).setT (d + 1) l (lockStep own old).2)
  | .unlock d l own => s.giveRegs p r (fun g => g.setT d l (unlockStep own old).2)
  | .run ch k u => (if u.write then s else s.copyGot p ch k u.old u.addr bs).copyStep p ch k
  | .cmd c u _ => if u.write then s else s.moveGot c u.addr bs

/-- Performs a request at its place in this package: the bytes it answers with, and whether a unit was uncorrectable
(R314, R442). -/
def State.perform (s : State) (p : Nat) (r : FarReq) : State × List Byte × Bool :=
  let s := if r.act.writes then s.noteWrite ((s.work p).cidOf r.block) r.place else s
  let word (f : Word → Option Word) : State × List Byte × Bool :=
    let e := s.eccRead r.place 4 [r.ctx] (coreUnit p)
    let bs := e.1.bytesAt r.place 4
    if e.2 then (e.1, bs, true)
    else match f (BitVec.ofNat 32 (leNat bs)) with
      | none => (e.1, bs, false)
      | some v => (e.1.store r.place (natLe 4 v.toNat), bs, false)
  match r.act with
  | .load _ _ n _ _ _ => let e := s.eccRead r.place n [r.ctx] (coreUnit p); (e.1, e.1.bytesAt r.place n, e.2)
  | .store n v _ => (s.store r.place (natLe n v.toNat), [], false)
  | .atom op b c _ _ _ => word (fun o => some (atomStep op o b c))
  | .lock _ _ own => word (fun o => (lockStep own o).1)
  | .unlock _ _ own => word (fun o => (unlockStep own o).1)
  | .run _ _ u =>
    if u.write then (s.store r.place u.bytes, [], false)
    else let e := s.eccRead r.place u.len [r.ctx] (coreUnit p); (e.1, e.1.bytesAt r.place u.len, e.2)
  | .cmd _ u _ =>
    if u.write then (s.store r.place u.bytes, [], false)
    else let e := s.eccRead r.place u.len [r.ctx] (coreUnit p); (e.1, e.1.bytesAt r.place u.len, e.2)

/-- FAR_RESPONSE: a request to this package's memory is performed, answered and frees its slot (R309, R314), the translation tables
of its address being read (R337, R478). -/
def State.farResponse (s : State) (p k : Nat) : State :=
  match Tab.get? (s.work p).slots k with
  | none => s
  | some r =>
    if r.place.isRemote || !(s.work p).laneFirst r || !((s.chan (chanOf r.place)).state == 2 || (s.chan (chanOf r.place)).state == 4) then s
    else
      let x := ((s.freeSlot p k).readTables r.ctx r.addr (coreUnit p)).perform p r
      if x.2.2 then (x.1.accessFault p r.slot r.block r.pc r.mask St.uncorrectable).pumpAll p
      else (x.1.farAnswer p r x.2.1).pumpAll p

/-- FAR_RESPONSE (R309). -/
def execFarResponse (p slot : Nat) (s : State) : Out := onWf (.farResponse p slot) (s.farResponse p slot)

/-! ### Thread-engine memory instructions (R238, R239) -/

/-- The far action of an active lane. -/
def Seat.farAct (t : Seat) (w : DWord) (l : Nat) : FarAct :=
  let op := wOp w
  let sub := wSub w
  let r := wB w % 64
  let drop := if sub < 8 then [] else if wB w / 64 = 1 then [(t.g.s r).toNat, (t.g.s (r + 1)).toNat]
    else if wB w / 64 = 2 then [0] else []
  if op = 0x42 then .load (wDst w) l (2 ^ (sub % 4)) (sub / 4 % 2 == 1) (8 ≤ sub) drop
  else if op = 0x43 then .store (2 ^ (sub % 4)) (t.g.b w l) (8 ≤ sub)
  else if op = 0x44 then .atom (sub % 8) (t.g.b w l) (t.g.t (wC w) l) (wDst w) l (8 ≤ sub)
  else if op = 0x50 then .lock (wDst w) l (lockWord t.p t.slot l)
  else .unlock (wDst w) l (lockWord t.p t.slot l)

/-- Bytes a far instruction accesses. -/
def farSize (w : DWord) : Nat := if wOp w < 0x44 then 2 ^ (wSub w % 4) else 4

/-- A far access (R238): alignment in every active lane, then translation lane by lane, then one request a lane (R308). -/
def farRun (w : DWord) (s : State) (t : Seat) : Issued :=
  let ls := t.g.lanes
  if !threadLegal t.pr.nreg w then .fault St.illegalInstruction
  else if ls.any (fun l => t.g.farAddr w l % farSize w != 0) then .fault St.alignment
  else match ls.findSome? (fun l => match s.laneXl t w l with
      | .ok _ => none
      | .no st => some st) with
    | some st => .fault st
    | none =>
      let reqs := ls.filterMap (fun l => match s.laneXl t w l with
        | .ok pl => some (⟨t.g.stamp, t.slot, t.g.block, t.d.ctx, t.g.farAddr w l, pl, t.farAct w l, t.g.pc, t.g.active, []⟩ : FarReq)
        | .no _ => none)
      let s1 := s.putGroup t t.g.advance
      let k := s1.work t.p
      .done ((s1.setWork t.p { k with farWait := k.farWait ++ reqs }).pumpAll t.p)

/-- Distinct deck rows of 512 bytes that addresses lie in: the bank accesses of R273. -/
def deckRows (as : List Nat) : Nat := ((as.map (· / 512)).eraseDups).length

/-- The units of R507 for deck accesses of a context. -/
def State.deckUnits (s : State) (p : Nat) (c : CtxId) (rows : Nat) : State := s.activity (p / 48) [c] (500 * rows)

/-- The fault of a deck access (R238): a lane outside the block's allocation, else a misaligned lane. -/
def Seat.deckFault (t : Seat) (w : DWord) (n : Nat) : Option Nat :=
  let lo := t.b.deckLo
  let hi := t.b.deckLo + 16384 * t.b.granules
  let as := t.g.lanes.map (fun l => t.g.deckAddr w l)
  if as.any (fun a => a < lo || hi < a + n) then some St.deckRange
  else if as.any (fun a => a % n != 0) then some St.alignment
  else none

/-- LDD and STD (R239): lanes act in ascending order. Log entry 108 (DEDUCED). -/
def deckRun (w : DWord) (s : State) (t : Seat) : Issued :=
  let n := 2 ^ (wSub w % 4)
  if !threadLegal t.pr.nreg w then .fault St.illegalInstruction
  else match t.deckFault w n with
    | some st => .fault st
    | none =>
      let ls := t.g.lanes
      let as := ls.map (fun l => t.g.deckAddr w l)
      let s0 := s.deckUnits t.p t.d.ctx (deckRows as)
      if wOp w = 0x40 then
        let s1 := as.foldl (fun u a => u.deckCheck t.p a n) s0
        let val (l : Nat) : Word := extend n (wSub w / 4 % 2 == 1) (s.deckBytes t.p (t.g.deckAddr w l) n)
        .done (s1.putGroup t (t.write (wDst w) val))
      else
        let s1 := ls.foldl (fun u l => u.deckPut t.p (t.g.deckAddr w l) (natLe n (t.g.b w l).toNat)) s0
        .done (s1.putGroup t t.g.advance)

/-- LOCKG and UNLOCKG on deck words (R232, R233): each active lane in ascending order. UNLOCKG is a release, so the
core's head is written out first (R165). -/
def deckLockRun (w : DWord) (s : State) (t : Seat) : Issued :=
  if !threadLegal t.pr.nreg w then .fault St.illegalInstruction
  else match t.deckFault w 4 with
    | some st => .fault st
    | none =>
      let isLock := wOp w == 0x50
      let s0 := (if isLock then s else s.headOut t.p t.b.cid.ptn).deckUnits t.p t.d.ctx
        (deckRows (t.g.lanes.map (fun l => t.g.deckAddr w l)))
      let lane (x : State × Group) (l : Nat) : State × Group :=
        let a := t.g.deckAddr w l
        let own := lockWord t.p t.slot l
        let old : Word := BitVec.ofNat 32 (leNat (x.1.deckBytes t.p a 4))
        let r := if isLock then lockStep own old else unlockStep own old
        let u := x.1.deckCheck t.p a 4
        let u := match r.1 with
          | some v => u.deckPut t.p a (natLe 4 v.toNat)
          | none => u
        let g := if isLock then (x.2.setT (wDst w) l old).setT (wDst w + 1) l r.2 else x.2.setT (wDst w) l r.2
        (u, g)
      let y := t.g.lanes.foldl lane (s0, t.g)
      .done (y.1.putGroup t y.2.advance)

/-- LOCKG and UNLOCKG by SUB[0] (R232). -/
def lockRun (w : DWord) (s : State) (t : Seat) : Issued :=
  if wSub w % 2 = 1 then farRun w s t else deckLockRun w s t

/-- LDD (R239). -/
def execLdd (p slot : Nat) (w : DWord) (s : State) : Out := onWf (.ldd p slot w) (s.issue p slot w 0x40 (deckRun w))

/-- STD (R239). -/
def execStd (p slot : Nat) (w : DWord) (s : State) : Out := onWf (.std p slot w) (s.issue p slot w 0x41 (deckRun w))

/-- LDF (R239, R319). -/
def execLdf (p slot : Nat) (w : DWord) (s : State) : Out := onWf (.ldf p slot w) (s.issue p slot w 0x42 (farRun w))

/-- STF (R239, R316). -/
def execStf (p slot : Nat) (w : DWord) (s : State) : Out := onWf (.stf p slot w) (s.issue p slot w 0x43 (farRun w))

/-- ATOMF (R238). -/
def execAtomf (p slot : Nat) (w : DWord) (s : State) : Out := onWf (.atomf p slot w) (s.issue p slot w 0x44 (farRun w))

/-- LOCKG (R232). -/
def execLockg (p slot : Nat) (w : DWord) (s : State) : Out := onWf (.lockg p slot w) (s.issue p slot w 0x50 (lockRun w))

/-- UNLOCKG (R233). -/
def execUnlockg (p slot : Nat) (w : DWord) (s : State) : Out :=
  onWf (.unlockg p slot w) (s.issue p slot w 0x51 (lockRun w))

end Sys2Proof.Machine
end

