-- ==== Sys2Proof/Machine/Mover.lean ====
section
/-! DEFINITION. The tensor mover (R291 to R306): TCOPY, TWAIT, taking a copy from a channel, completing it, and the
remote cache of the hold (R282 to R284). -/

namespace Sys2Proof.Machine

/-! ### Issue (R291, R292) -/

/-- The fault of a TCOPY or TWAIT at issue, highest first (R292). -/
def moverFault (w : DWord) (t : Seat) (descs : List Nat) (reserved : Bool) : Option Nat :=
  let lo := t.b.deckLo
  let hi := t.b.deckLo + 16384 * t.b.granules
  if !t.g.converged then some St.groupDivergent
  else if reserved || opReserved (wOp w) then some St.illegalInstruction
  else if descs.any (fun a => a < lo || hi < a + 128) then some St.deckRange
  else if descs.any (fun a => a % 128 != 0) then some St.alignment
  else none

/-- TCOPY queues a copy on its channel (R291, R293). -/
def tcopyRun (w : DWord) (s : State) (t : Seat) : Issued :=
  let src := fld (t.g.s (fld w 15 10)) 21 0
  let dst := fld (t.g.s (fld w 21 16)) 21 0
  match moverFault w t [src, dst] (fld w 63 29 != 0) with
  | some st => .fault st
  | none =>
    let c : CopyEntry :=
      ⟨t.g.stamp, t.slot, t.g.block, src, dst, (t.g.s (fld w 27 22)).toNat % 2 ^ 18, fld w 28 28 == 1, t.g.pc, t.g.active⟩
    let s1 := s.putGroup t t.g.advance
    let k := s1.work t.p
    let ch := k.chan (fld w 9 8)
    .done (s1.setWork t.p (k.setChan (fld w 9 8) { ch with queue := ch.queue ++ [c] }))

/-- TWAIT holds the group for its earlier copies on the named channel, or all four (R294). -/
def twaitRun (w : DWord) (s : State) (t : Seat) : Issued :=
  match moverFault w t [] (fld w 63 11 != 0) with
  | some st => .fault st
  | none =>
    let m : BitVec 4 := if fld w 10 10 = 1 then 15 else 1 <<< fld w 9 8
    .done (s.putGroup t { t.g.advance with held := .twait m t.g.stamp })

/-- TCOPY (R291). -/
def execTcopy (p slot : Nat) (w : DWord) (s : State) : Out := onWf (.tcopy p slot w) (s.issue p slot w 0xC0 (tcopyRun w))

/-- TWAIT (R294). -/
def execTwait (p slot : Nat) (w : DWord) (s : State) : Out := onWf (.twait p slot w) (s.issue p slot w 0xC1 (twaitRun w))

/-! ### The remote cache (R282 to R284) -/

/-- Whether the partition's reads of other packages use the cache (R282). -/
def State.cacheOn (s : State) (n : Nat) : Bool :=
  let h := s.reg (Reg.holdMode n)
  fld h 0 0 == 1 && fld h 4 4 == 0

/-- Sets of sixteen 256-byte lines in the partition's cache part on one die (R280, R282). -/
def State.cacheSets (s : State) (n die : Nat) : Nat :=
  ((s.quartersOf n).filter (fun k => k / 4 == die)).length * (s.field (Reg.holdMode n) 3 1) * 3145728 / 4096

/-- The set of a line. The spec gives no index function: line number modulo the sets (log entry 11). -/
def State.cacheSet (s : State) (n die addr : Nat) : Nat := addr / 256 % max 1 (s.cacheSets n die)

/-- The bytes of a line the requester may hit (R283). -/
def State.cacheHit (s : State) (n die : Nat) (c : CtxId) (addr : Nat) : Option CacheLine :=
  s.cache.find? (fun l => l.ptn == n && l.die == die && l.ctx == c && l.addr == addr / 256 * 256)

/-- Marks a line as used last: lines stand in order of use, oldest first. -/
def State.cacheUse (s : State) (l : CacheLine) : State := { s with cache := s.cache.filter (· != l) ++ [l] }

/-- Fills a line, the line of its set unused for longest leaving a full set (R282). -/
def State.cacheFill (s : State) (l : CacheLine) : State :=
  let same (x : CacheLine) : Bool :=
    x.ptn == l.ptn && x.die == l.die && s.cacheSet l.ptn l.die x.addr == s.cacheSet l.ptn l.die l.addr
  let old := s.cache.filter (fun x => !(x.ptn == l.ptn && x.die == l.die && x.ctx == l.ctx && x.addr == l.addr))
  let kept := if 16 ≤ (old.filter same).length then dropAt old (old.findIdx same) else old
  { s with cache := kept ++ [l] }

/-- One line a copy reads through the cache: a hit gives its bytes, a miss fetches the line from its package (R282). The
fetch holds no far-request slot (R309); its TAG names the core alone (log entry 11). -/
def State.cacheRead (s : State) (p ch copy : Nat) (d : Disp) (old : Bool) (line : Nat) : State :=
  let n := d.cid.ptn
  let die := p / 48
  match s.cacheHit n die d.ctx line with
  | some l => ((s.countPtn n 4 1).cacheUse l).copyGot p ch copy old l.addr l.bytes
  | none =>
    let s1 := s.countPtn n 5 1
    let f : Fill := ⟨p, ch, copy, n, d.ctx, line, old, true, []⟩
    let s2 := { s1 with fills := s1.fills ++ [f] }
    s2.sendPacket (s2.packetTo d.ctx (line / 2 ^ 52) 1 p 0 (line % 2 ^ 52) 256 die []) 3

/-! ### Taking a copy (R293, R296) -/

/-- The status that refuses a copy: the first condition of R296 that holds. -/
def State.copyRefused (s : State) (p : Nat) (b : Block) (d : Disp) (pr : Prog) (c : CopyEntry) : Option Nat :=
  let deck := (s.work p).deck
  let sb := Mem.bytes deck c.src 128
  let db := Mem.bytes deck c.dst 128
  let ts := [tensorOf sb, tensorOf db]
  let n := d.cid.ptn
  if pairInvalid sb db c.perm c.reblk then some St.descriptorInvalid
  else if ts.any (fun t => t.space == 1 && !t.inside b.deckLo (b.deckLo + 16384 * b.granules)) then some St.deckRange
  else if ts.any (fun t => t.space == 2 && t.anyLive && (!t.inside 0 (s.scratchSize n) || !s.ownsHold n d.ctx)) then
    some St.holdRange
  else if ts.any (fun t => t.space == 3 && !t.inside 0 (4096 * pr.stashPeak)) then some St.stashOverflow
  else none

/-- STASH_STATUS.OVERFLOWS counts one more, saturating (R162). -/
def State.stashOverflowed (s : State) (n : Nat) : State :=
  s.setField (Reg.stashStatus n) 47 32 (min 65535 (s.field (Reg.stashStatus n) 47 32 + 1))

/-- Whether a channel is still generating requests of an earlier copy (R293). -/
def State.generating (s : State) (p ch : Nat) : Bool :=
  let w := s.work p
  (w.chan ch).runs.any (fun r =>
    w.farWait.any (fun q => match q.act with
      | .run c k _ => c == ch && k == r.entry.stamp
      | _ => false) || (!r.writing && r.dst.space == 0))

/-- The region segments that a stash view reads in full (R164). -/
def fullSegs (d : Disp) (as : List Nat) : List Nat :=
  let segs := (as.map (· / segBytes)).eraseDups
  (segs.filter (fun k => (as.filter (fun a => a / segBytes == k)).length == segBytes)).map (fun k => (d.seg (k * segBytes)).1)

/-- The reads of an accepted copy: on-package bytes at once, far bytes by request or through the cache. -/
def State.copyReads (s : State) (p ch : Nat) (d : Disp) (c : CopyEntry) (t : Tensor) (old : Bool) : State × Bool :=
  let as := t.addrs
  if t.space = 0 then
    let cached (a : Nat) : Bool := !t.nocache && a / 2 ^ 52 != s.pkgNo && s.cacheOn d.cid.ptn
    let lines := sortNat ((as.filter cached).map (fun a => a / 256 * 256))
    let s1 := lines.foldl (fun u l => u.cacheRead p ch c.stamp d old l) s
    let reqs := (readRuns (s1.placeOf d.who) old (as.filter (fun a => !cached a))).map (fun u =>
      (⟨c.stamp, c.slot, c.block, d.ctx, u.addr, u.place, .run ch c.stamp u, c.pc, c.mask, []⟩ : FarReq))
    let k := s1.work p
    (s1.setWork p { k with farWait := k.farWait ++ reqs }, false)
  else
    let r := s.spaceRead p d t.space as
    let s1 := r.2.1.foldl (fun u e => u.copyGot p ch c.stamp old e.1 [e.2]) r.1
    let s2 := if t.space = 1 then s1.deckUnits p d.ctx (deckRows as) else s1
    let s3 := if t.consume then (fullSegs d as).foldl (fun u g => u.consume p d.cid.ptn g) s2 else s2
    (s3, r.2.2)

/-- The objects that hold a far destination are being written by the dispatch from the copy's start on (R305, R339). -/
def State.noteDest (s : State) (d : Disp) (dst : Tensor) : State :=
  if dst.space = 0 then
    (dst.addrs.filterMap (s.placeOf d.who)).foldl (fun t pl => t.noteWrite d.cid pl) s
  else s

/-- The channel starts an accepted copy (R293, R298, R305). -/
def State.copyStart (s : State) (p ch : Nat) (d : Disp) (c : CopyEntry) (src dst : Tensor) : State :=
  let w := s.work p
  let k := w.chan ch
  let s1 := s.setWork p (w.setChan ch { k with runs := k.runs ++ [⟨c, src, dst, false, [], []⟩] })
  let a := s1.copyReads p ch d c src false
  let b := if dst.acc || dst.fmt == 4 then a.1.copyReads p ch d c dst true else (a.1, false)
  let s2 := if dst.space = 1 then b.1.deckUnits p d.ctx (deckRows dst.addrs) else b.1
  if a.2 || b.2 then s2.accessFault p c.slot c.block c.pc c.mask St.uncorrectable
  else (s2.pumpAll p).copyStep p ch c.stamp

/-- COPY_TAKE: a channel takes the next copy of its queue once it has issued every request of the copy before it and no
earlier access of the core stands in the way (R293, R295), validates it (R296) and starts it. Log entry 102 (DESIGN CHOICE). -/
def State.copyTake (s : State) (p ch : Nat) : State :=
  let w := s.work p
  let k := w.chan ch
  match k.queue with
  | [] => s
  | c :: rest =>
    match Tab.get? w.blocks c.block with
    | none => s
    | some b => match s.disp? b.cid with
      | none => s
      | some d => match Tab.get? (s.ptn b.cid.ptn).progs d.prog with
        | none => s
        | some pr =>
          if !(s.core p).running || d.status != 0 || s.generating p ch || w.blocked c.stamp (copyEnvs w.deck b.cid c) then s
          else
            let s1 := (s.setWork p (w.setChan ch { k with queue := rest })).deckCheck p c.src 128
            let s1 := s1.deckCheck p c.dst 128
            match s1.copyRefused p b d pr c with
            | some st =>
              if st = St.stashOverflow then (s1.endDisp d st (faultInfo p c.slot c.pc)).stashOverflowed b.cid.ptn
              else s1.accessFault p c.slot c.block c.pc c.mask st
            | none =>
              let src := deckTensor w.deck c.src
              let dst := deckTensor w.deck c.dst
              let bad := ((if src.space = 0 then s1.xlFails d.who ⟨true, false⟩ src.addrs else none).or
                (if dst.space = 0 then s1.xlFails d.who ⟨dst.acc, true⟩ dst.addrs else none))
              match bad with
              | some st => (s1.noteDest d dst).accessFault p c.slot c.block c.pc c.mask st
              | none => (s1.noteDest d dst).copyStart p ch d c src dst

/-- COPY_COMPLETE: every destination byte of copy k of a channel has been written or acknowledged (R294). -/
def State.copyComplete (s : State) (p ch k : Nat) : State :=
  let w := s.work p
  let c := w.chan ch
  match c.runs[k]? with
  | none => s
  | some r =>
    if r.writing && !s.copyBusy p ch r.entry.stamp then
      (s.setWork p (w.setChan ch { c with runs := dropAt c.runs k })).pumpAll p
    else s

/-- COPY_TAKE (R293). -/
def execCopyTake (p ch : Nat) (s : State) : Out := onWf (.copyTake p ch) (s.copyTake p ch)

/-- COPY_COMPLETE (R294). -/
def execCopyComplete (p ch k : Nat) (s : State) : Out := onWf (.copyComplete p ch k) (s.copyComplete p ch k)

end Sys2Proof.Machine
end

