-- ==== Sys2Proof/Machine/Matrix.lean ====
section
/-! DEFINITION. The matrix arrays (R103 to R142, R147 to R153): issue checks, the pass scheduler, latching a pass, folding
its rows, draining and clearing accumulators. -/

namespace Sys2Proof.Machine

/-! ### Issue (R135 to R138) -/

/-- Whether a range lies in the block's deck allocation. -/
def Block.holds (b : Block) (r : Int × Int) : Bool :=
  (b.deckLo : Int) ≤ r.1 && r.2 ≤ ((b.deckLo + 16384 * b.granules : Nat) : Int)

/-- Whether a stored region is a MATRIX_OPERAND fault (R120, R137). -/
def Region.bad (r : Region) (b : Block) : Bool :=
  opData r.o % 32 != 0 || opPitch r.o < r.rowBytes || !b.holds r.data || !b.holds r.scales

/-- The fault of an MPASS at issue, highest first (R137). -/
def mpassFault (w : DWord) (t : Seat) (o v x m : DWord) : Option Nat :=
  let f := mFmt w
  let rs := [passStream w o x, passTile w v x]
  if !t.g.converged then some St.groupDivergent
  else if fld w 27 27 != 0 || fld w 63 52 != 0 || !isL f || !(fld w 15 14 == 1 || fld w 15 14 == 2) ||
      !(fld w 17 16 == 1 || fld w 17 16 == 2) || exRows x == 0 || exKv x == 0 || exNv x == 0 || 64 < exKv x ||
      fld x 63 35 != 0 || fld w 25 24 == 3 then some St.illegalInstruction
  else if rs.any (fun r => r.bad t.b) || (maskRange (fld w 25 24) (exRows x) m).any (fun r => !t.b.holds r) ||
      rowsPerHalf f < exAcc x + exRows x || 64 * prodP f < exNv x then some St.matrixOperand
  else if (fld w 15 14 == 1 && fld w 18 18 != fld w 20 20) || (fld w 17 16 == 1 && fld w 19 19 != 1 - fld w 21 21) then
    some St.scaleAxis
  else none

/-- DX_ROW of a MALT's extents word (R136). -/
def exDx (x : DWord) : Nat := fld x 8 0
/-- DW_ROW. -/
def exDw (x : DWord) : Nat := fld x 17 9

/-- The fault of a MALT at issue (R129, R137). -/
def maltFault (w : DWord) (t : Seat) (y xo v x m : DWord) : Option Nat :=
  let f := mFmt w
  let p := prodP f
  if !t.g.converged then some St.groupDivergent
  else if fld w 63 49 != 0 || !(f == 5 || f == 6) || fld w 18 17 == 3 || fld x 63 18 != 0 then some St.illegalInstruction
  else if (maltRegions w y xo v).any (fun r => r.bad t.b) ||
      (maskRange (fld w 18 17) (64 * p) m).any (fun r => !t.b.holds r) ||
      rowsPerHalf f < exDx x + 64 || rowsPerHalf f < exDw x + 64 * p then some St.matrixOperand
  else none

/-- The fault of an MDRAIN or MZERO at issue (R134, R137). -/
def accFault (w : DWord) (t : Seat) (o x : DWord) : Option Nat :=
  let f := dFmt w
  let drain := wOp w == 0xA2
  if !t.g.converged then some St.groupDivergent
  else if fld w 21 10 != 0 || fld w 39 34 != 0 || fld w 63 46 != 0 || (!drain && (fld w 23 23 != 0 || fld w 33 28 != 0)) ||
      !isL f || exRows x == 0 || exNv x == 0 || fld x 63 35 != 0 then some St.illegalInstruction
  else if (drain && (opData o % 32 != 0 || opPitch o < 4 * exNv x || !t.b.holds (drainRange o x))) ||
      rowsPerHalf f < exAcc x + exRows x || 64 * prodP f < exNv x then some St.matrixOperand
  else none

/-- Queues an accepted matrix instruction (R138): on the forward tile queue, the backward one or the accumulator queue. -/
def State.mxQueue (s : State) (t : Seat) (m : MxEntry) : Issued :=
  let s1 := s.putGroup t t.g.advance
  let k := s1.work t.p
  let a := k.array (mArr m.w)
  let a1 := if wOp m.w = 0xA0 ∧ fld m.w 26 26 = 0 then { a with fwd := a.fwd ++ [m] }
    else if wOp m.w = 0xA0 ∨ wOp m.w = 0xA1 then { a with bwd := a.bwd ++ [m] }
    else { a with accq := a.accq ++ [m] }
  .done (s1.setWork t.p (k.setArray (mArr m.w) a1))

/-- MPASS at issue. -/
def mpassRun (w : DWord) (s : State) (t : Seat) : Issued :=
  let r (hi lo : Nat) : DWord := t.g.s (fld w hi lo)
  match mpassFault w t (r 33 28) (r 39 34) (r 45 40) (r 51 46) with
  | some st => .fault st
  | none => s.mxQueue t ⟨t.g.stamp, t.slot, t.g.block, w, r 33 28, r 39 34, r 45 40, r 51 46, 0⟩

/-- MALT at issue. -/
def maltRun (w : DWord) (s : State) (t : Seat) : Issued :=
  let r (hi lo : Nat) : DWord := t.g.s (fld w hi lo)
  match maltFault w t (r 24 19) (r 30 25) (r 36 31) (r 42 37) (r 48 43) with
  | some st => .fault st
  | none => s.mxQueue t ⟨t.g.stamp, t.slot, t.g.block, w, r 24 19, r 30 25, r 36 31, r 42 37, r 48 43⟩

/-- MDRAIN and MZERO at issue. -/
def accRun (w : DWord) (s : State) (t : Seat) : Issued :=
  let r (hi lo : Nat) : DWord := t.g.s (fld w hi lo)
  match accFault w t (r 33 28) (r 45 40) with
  | some st => .fault st
  | none => s.mxQueue t ⟨t.g.stamp, t.slot, t.g.block, w, r 33 28, r 45 40, 0, 0, 0⟩

/-- MSYNC holds the group for its earlier matrix instructions on the named array, or all four (R141). -/
def msyncRun (w : DWord) (s : State) (t : Seat) : Issued :=
  if !t.g.converged then .fault St.groupDivergent
  else if fld w 63 11 != 0 then .fault St.illegalInstruction
  else
    let m : BitVec 4 := if fld w 10 10 = 1 then 15 else 1 <<< mArr w
    .done (s.putGroup t { t.g.advance with held := .msync m t.g.stamp })

/-- MPASS (R106). -/
def execMpass (p slot : Nat) (w : DWord) (s : State) : Out := onWf (.mpass p slot w) (s.issue p slot w 0xA0 (mpassRun w))

/-- MALT (R126). -/
def execMalt (p slot : Nat) (w : DWord) (s : State) : Out := onWf (.malt p slot w) (s.issue p slot w 0xA1 (maltRun w))

/-- MDRAIN (R134). -/
def execMdrain (p slot : Nat) (w : DWord) (s : State) : Out := onWf (.mdrain p slot w) (s.issue p slot w 0xA2 (accRun w))

/-- MZERO (R134). -/
def execMzero (p slot : Nat) (w : DWord) (s : State) : Out := onWf (.mzero p slot w) (s.issue p slot w 0xA3 (accRun w))

/-- MSYNC (R141). -/
def execMsync (p slot : Nat) (w : DWord) (s : State) : Out := onWf (.msync p slot w) (s.issue p slot w 0xA4 (msyncRun w))

/-! ### The order of accumulator rows (R139) -/

/-- Accumulator rows an instruction touches: the half, the entries [lo, hi), and whether the order of R139 is strict for
them (MDRAIN, MZERO, and the rows a pass clears). -/
structure Rows where
  half  : Nat
  lo    : Nat
  hi    : Nat
  strict : Bool
deriving DecidableEq, Repr

/-- Rows from row r on, n of them, in a format's view of a half (R133). -/
def rowsAt (fmt half r n : Nat) (strict : Bool) : Rows := ⟨half, 64 * prodP fmt * r, 64 * prodP fmt * (r + n), strict⟩

/-- What a queued matrix instruction touches. -/
def MxEntry.touches (m : MxEntry) : List Rows :=
  if wOp m.w = 0xA0 then [rowsAt (mFmt m.w) (fld m.w 22 22) (exAcc m.opC) (exRows m.opC) (fld m.w 23 23 == 1)]
  else if wOp m.w = 0xA1 then
    let h := fld m.w 14 14
    [rowsAt (mFmt m.w) h (exDx m.opD) 64 (fld m.w 15 15 == 1),
     rowsAt (mFmt m.w) (1 - h) (exDw m.opD) (64 * prodP (mFmt m.w)) (fld m.w 16 16 == 1)]
  else [rowsAt (dFmt m.w) (fld m.w 22 22) (exAcc m.opB) (exRows m.opB) true]

/-- Whether two touch the same rows in a way that R139 orders. -/
def Rows.ordered (a b : Rows) : Bool := a.half == b.half && (a.strict || b.strict) && a.lo < b.hi && b.lo < a.hi

/-- Every instruction of an array not yet complete. -/
def MxArray.open_ (a : MxArray) : List MxEntry := a.fwd ++ a.bwd ++ a.accq ++ a.taken.map (·.entry)

/-- Whether R139 holds an instruction back on its array. -/
def MxArray.waits (a : MxArray) (m : MxEntry) : Bool :=
  a.open_.any (fun e => e.stamp < m.stamp && e.touches.any (fun x => m.touches.any (Rows.ordered x)))

/-! ### Latching a pass (R105 to R107, R111, R120 to R132) -/

/-- The element bits stored at row r and column c of a region (R76, R120). -/
def Region.elem (g : Region) (deck : Memory) (r c : Nat) : Nat :=
  let a := opData g.o + r * opPitch g.o
  if g.width = 4 then (let b := (Mem.read deck (a + c / 2)).toNat; if c % 2 = 1 then b / 16 else b % 16)
  else if g.width = 8 then (Mem.read deck (a + c)).toNat
  else (Mem.read deck (a + 2 * c)).toNat + 256 * (Mem.read deck (a + 2 * c + 1)).toNat

/-- The scale of the element (R121). -/
def Region.scale (g : Region) (deck : Memory) (r c : Nat) : Int := scaleInt (Mem.read deck (g.scaleAddr r c)).toNat

/-- 64 reduction elements, those at or past kv being zero, and the scales of their two blocks; at maps a reduction index
to a stored position. -/
def Region.line (g : Region) (deck : Memory) (kv : Nat) (at_ : Nat → Nat × Nat) : List Nat × Int × Int :=
  let sc (i : Nat) : Int := if i < kv then g.scale deck (at_ i).1 (at_ i).2 else 0
  ((List.range 64).map (fun i => if i < kv then g.elem deck (at_ i).1 (at_ i).2 else 0), sc 0, sc 32)

/-- Whether a stream row is not skipped (R131, R132). -/
def rowKept (maskm : Nat) (m : DWord) (deck : Memory) (r : Nat) : Bool :=
  if maskm = 1 then (Mem.read deck (m.toNat + r / 8)).getLsbD (r % 8)
  else if maskm = 2 then m.getLsbD (r / 32)
  else true

/-- The pass of an MPASS. -/
def passOf (m : MxEntry) (deck : Memory) : SubPass :=
  let w := m.w
  let x := m.opC
  let st := passStream w m.opA x
  let ti := passTile w m.opB x
  let kv := exKv x
  let row (r : Nat) : StreamRow :=
    let l := st.line deck kv (fun i => if fld w 20 20 = 1 then (i, r) else (r, i))
    ⟨exAcc x + r, l.1, l.2.1, l.2.2⟩
  let col (n : Nat) : Column :=
    let l := ti.line deck kv (fun i => if fld w 21 21 = 1 then (n, i) else (i, n))
    ⟨l.1, l.2.1, l.2.2⟩
  ⟨mFmt w, fld w 22 22, fld w 23 23 == 1, 64 * prodP (mFmt w), kv,
    ((List.range (exRows x)).filter (rowKept (fld w 25 24) m.opD deck)).map row, (List.range (exNv x)).map col, false⟩

/-- The 1 + P passes of a MALT (R126 to R128). -/
def maltPasses (m : MxEntry) (deck : Memory) : List SubPass :=
  let w := m.w
  let f := mFmt w
  let p := prodP f
  let h := fld w 14 14
  let y : Region := ⟨m.opA, 64, 64 * p, fmtWidth f, 2, 0⟩
  let x : Region := ⟨m.opB, 64, 64 * p, fmtWidth f, 2, 0⟩
  let v : Region := ⟨m.opC, 64 * p, 64 * p, fmtWidth f, 2, 0⟩
  let dwRow (k : Nat) : StreamRow := let l := x.line deck 64 (fun i => (i, k)); ⟨exDw m.opD + k, l.1, l.2.1, l.2.2⟩
  let dwCol (n : Nat) : Column := let l := y.line deck 64 (fun i => (i, n)); ⟨l.1, l.2.1, l.2.2⟩
  let dxRow (q r : Nat) : StreamRow := let l := y.line deck 64 (fun i => (r, 64 * q + i)); ⟨exDx m.opD + r, l.1, l.2.1, l.2.2⟩
  let dxCol (q k : Nat) : Column := let l := v.line deck 64 (fun i => (k, 64 * q + i)); ⟨l.1, l.2.1, l.2.2⟩
  ⟨f, 1 - h, fld w 16 16 == 1, 64 * p, 64,
    ((List.range (64 * p)).filter (rowKept (fld w 18 17) m.opE deck)).map dwRow, (List.range (64 * p)).map dwCol, false⟩ ::
  (List.range p).map (fun q => ⟨f, h, fld w 15 15 == 1 && q == 0, 64 * p, 64,
    (List.range 64).map (dxRow q), (List.range (64 * p)).map (dxCol q), false⟩)

/-- What an array takes of an entry: its operands are read from the deck now (R140). -/
def takenOf (m : MxEntry) (deck : Memory) : Taken := ⟨m, if wOp m.w = 0xA0 then [passOf m deck] else maltPasses m deck⟩

/-! ### The deck bytes a pass reads (R120, R121, R127, R132) -/

/-- The bytes of stored row r of a region. -/
def Region.rowData (g : Region) (r : Nat) : Int × Int :=
  let a := opData g.o + r * opPitch g.o
  ((a : Int), ((a + g.rowBytes : Nat) : Int))

/-- The bytes of the element stored at row r and column c. -/
def Region.elemData (g : Region) (r c : Nat) : Int × Int :=
  let a := opData g.o + r * opPitch g.o + c * g.width / 8
  ((a : Int), ((a + max 1 (g.width / 8) : Nat) : Int))

/-- The scale byte of the element stored at row r and column c. -/
def Region.scaleData (g : Region) (r c : Nat) : Int × Int := ((g.scaleAddr r c : Int), (g.scaleAddr r c : Int) + 1)

/-- What the feeders read of a stationary region: its data, and its scales. -/
def Region.tileReads (g : Region) : List (List (Int × Int)) :=
  [(List.range g.rows).map g.rowData,
   ((List.range g.rows).flatMap (fun r => (List.range g.cols).map (g.scaleData r))).eraseDups]

/-- What the feeders read of a stream region: the data of the stream rows kept and the scales of the rows scaled, ts saying
that a stream row is a stored column (R124). A skipped row is not read (R132). -/
def Region.streamReads (g : Region) (ts : Bool) (kept scaled : List Nat) : List (List (Int × Int)) :=
  let cells (f : Nat → Nat → Int × Int) (l : List Nat) : List (Int × Int) :=
    if ts then (List.range g.rows).flatMap (fun i => l.map (f i)) else l.flatMap (fun r => (List.range g.cols).map (f r))
  [if ts then cells g.elemData kept else kept.map g.rowData, (cells g.scaleData scaled).eraseDups]

/-- The stream rows whose scales a pass reads: a block mask skips those of skipped rows too (R132). -/
def scaleRows (maskm n : Nat) (kept : List Nat) : List Nat := if maskm = 2 then kept else List.range n

/-- The deck bytes that an array reads as it takes an entry, by feeder: skipped rows are not read (R132), and a MALT reads dY
once (R127). -/
def MxEntry.reads (m : MxEntry) (deck : Memory) : List (List (Int × Int)) :=
  let w := m.w
  if wOp w = 0xA0 then
    let n := exRows m.opC
    let kept := (List.range n).filter (rowKept (fld w 25 24) m.opD deck)
    (passStream w m.opA m.opC).streamReads (fld w 20 20 == 1) kept (scaleRows (fld w 25 24) n kept) ++
      (passTile w m.opB m.opC).tileReads ++ [maskRange (fld w 25 24) n m.opD]
  else
    let n := 64 * prodP (mFmt w)
    let kept := (List.range n).filter (rowKept (fld w 18 17) m.opE deck)
    match maltRegions w m.opA m.opB m.opC with
    | [y, x, v] => y.tileReads ++ x.streamReads true kept (scaleRows (fld w 18 17) n kept) ++ v.tileReads ++
        [maskRange (fld w 18 17) n m.opE]
    | _ => []

/-- The 512-byte deck rows that ranges touch: a feeder fetches each once (R273, R274). -/
def rangeRows (rs : List (Int × Int)) : Nat :=
  ((rs.flatMap (fun r => (List.range ((r.2 - 1) / 512 - r.1 / 512 + 1).toNat).map (fun (i : Nat) => r.1 / 512 + (i : Int)))).eraseDups).length

/-! ### Weights in the cells (R117, R118) -/

/-- The earliest pass taken that has a row to stream and whose front has not passed. -/
def MxArray.coming (x : MxArray) : Option SubPass :=
  (x.taken.flatMap (·.subs)).find? (fun u => !u.entered && !u.rows.isEmpty)

/-- The weight feeder fills the shadow registers with the next pass's weights once their contents have moved (R118). -/
def MxArray.load (x : MxArray) : MxArray :=
  if x.shadow.isEmpty then { x with shadow := (x.coming.map (·.cols)).getD [] } else x

/-- The weights that the products of a pass's next row use: its first row carries the front, at which the cells copy shadow to
active (R117). -/
def MxArray.weights (x : MxArray) (u : SubPass) : List Column := if u.entered then x.active else x.shadow

/-- The registers once a row of a pass has streamed (R117): the front has moved shadow to active. -/
def MxArray.front (x : MxArray) (u : SubPass) : MxArray :=
  if u.entered then x else { x with active := x.shadow, shadow := [] }

/-- Whether the array can begin the stream entry of a new pass (R149): every row of the passes taken has entered. As a pass
holds the entry for 64 beats or more and its last fold is done ROWS + 127 beats after its first row (R116, R119), at most two
passes then have folds to come. -/
def MxArray.entryFree (x : MxArray) : Bool :=
  ((x.taken.flatMap (·.subs)).filter (fun u => !u.rows.isEmpty)).length ≤ 2

/-- Whether folds of passes taken are still to come. -/
def MxArray.folding (x : MxArray) : Bool := x.taken.any (fun t => t.subs.any (fun u => !u.rows.isEmpty))

/-! ### The pass scheduler (R147 to R153) -/

/-- Whether the head of a tile queue is ready (R148). -/
def Work.headReady (w : Work) (a : MxArray) : List MxEntry → Bool
  | [] => false
  | m :: _ => !w.blocked m.stamp m.envs && !a.waits m

/-- What a take decision chooses (R150): backward or forward, the streak after it, and whether the run limit forced it;
none where no head is ready. bias and limit are PASS_SCHED's fields. -/
def takeChoice (bias limit streak : Nat) (f b fEarlier : Bool) : Option (Bool × Nat × Bool) :=
  if bias = 2 then
    if f && b then some (!fEarlier, streak, false)
    else if b then some (true, streak, false)
    else if f then some (false, streak, false)
    else none
  else
    let prefBack := bias == 0
    let pref := if prefBack then b else f
    let other := if prefBack then f else b
    if pref && other then
      (if 0 < limit && limit ≤ streak then some (!prefBack, 0, true) else some (prefBack, streak + 1, false))
    else if pref then some (prefBack, 0, false)
    else if other then some (!prefBack, 0, false)
    else none

/-- The stall beats that a take brings (R119, R125): a pass of fewer than 64 rows that follows another waits on the weight
lane, and one that starts an idle array with a transposer set waits for it. A pass may have followed another while folds of
that one are still to come; whether it does is free. Log entry 115 (DESIGN CHOICE). -/
def State.takeStalls (s : State) (p a : Nat) (folding : Bool) (m : MxEntry) (rows : Nat) : State :=
  if folding && Config.choice s.fresh % 2 == 1 then s.drawn.count p (8 * a + 2) (64 - rows)
  else if wOp m.w = 0xA0 ∧ (fld m.w 20 20 = 1 ∨ fld m.w 21 21 = 1) then s.drawn.count p (8 * a + 1) 64
  else s.drawn

/-- TAKE_DECISION: array a of core p, where it can begin the stream entry of a new pass, takes the head that R150 chooses,
reading its operands; a decision that finds no head ready though one waits counts PASS_WAIT_BOTH (R149, R153). -/
def State.takeDecision (s : State) (p a : Nat) : State :=
  let w := s.work p
  let x := w.array a
  let sched := s.reg (Reg.passSched (s.ptnOfCore p))
  let stampOf (l : List MxEntry) : Nat := (l.head?.map (·.stamp)).getD 0
  if !(s.core p).running || !x.entryFree then s
  else match takeChoice (fld sched 1 0) (fld sched 5 2) x.streak (w.headReady x x.fwd) (w.headReady x x.bwd)
      (stampOf x.fwd < stampOf x.bwd) with
  | none => if x.fwd.isEmpty && x.bwd.isEmpty then s else s.count p 35 1
  | some (back, streak, forced) =>
    match (if back then x.bwd else x.fwd) with
    | [] => s
    | m :: rest =>
      let t := takenOf m w.deck
      let x1 := { x with taken := x.taken ++ [t], streak := streak }
      let x2 := if back then { x1 with bwd := rest } else { x1 with fwd := rest }
      let rs := m.reads w.deck
      let s1 := (s.setWork p (w.setArray a x2.load)).deckReads p rs.flatten
      let s2 := (s1.count p (if back then 33 else 32) 1).count p 34 (b2n forced)
      let s3 := s2.takeStalls p a x.folding m ((t.subs.map (·.rows.length)).headD 0)
      match s3.disp? (w.cidOf m.block) with
      | none => s3
      | some d => s3.deckUnits p d.ctx ((rs.map rangeRows).foldl (· + ·) 0)

/-! ### Products, block sums and folds (R108 to R115) -/

/-- One product in units of 2^−56 of its block's top (R108). -/
def product (f : LF) (x w : Nat) : Int :=
  let cx := x % (f.cmax + 1)
  let cw := w % (f.cmax + 1)
  if cx = 0 ∨ cw = 0 then 0
  else
    let d : Int := ((f.cmax - cx + (f.cmax - cw) : Nat) : Int)
    let e := Int.fdiv (-d) f.k
    let r := (-d - e * f.k).toNat
    let m := mTab (r * (256 / f.k))
    let mag := if 0 ≤ e + 33 then m * 2 ^ (e + 33).toNat else m / 2 ^ (-(e + 33)).toNat
    if bit x (f.width - 1) != bit w (f.width - 1) then -(mag : Int) else mag

/-- A block sum (R109): the products of 32 reduction indices. -/
def blockSum (f : LF) (xs ws : List Nat) : Int := (List.zipWith (product f) xs ws).foldl (· + ·) 0

/-- b0 x 2^(s0 − 56) + b1 x 2^(s1 − 56) + acc, exactly, rounded once to binary32; an exact zero is +0 (R112, R113). -/
def foldValue (b0 s0 b1 s1 : Int) (acc : Word) (clr : Bool) : Word :=
  let part (b e : Int) : Val := .fin (b < 0) b.natAbs (e - 56)
  let v := (part b0 s0).add (part b1 s1)
  let r := if clr then v else v.add (f32.decode acc.toNat)
  match r with
  | .fin _ m _ => if m = 0 then 0 else toF32 r
  | _ => toF32 r

/-- Whether a word is a binary32 infinity. -/
def isInf32 (x : Word) : Bool := x.toNat % 2 ^ 31 == f32.infBits

/-- Products of a row and a column that are not gated (R115). -/
def ungated (f : LF) (xs ws : List Nat) : Nat :=
  ((xs.zip ws).filter (fun e => e.1 % (f.cmax + 1) != 0 && e.2 % (f.cmax + 1) != 0)).length

/-- The accumulator entry that a column of a stream row folds into (R133). -/
def SubPass.entryOf (u : SubPass) (r : StreamRow) (n : Nat) : Nat := 32768 * u.half + u.width * r.out + n

/-- The entry's new value after the fold of one row and column (R111, R112). -/
def SubPass.foldEntry (u : SubPass) (r : StreamRow) (c : Column) (acc : Word) : Word :=
  let f := lfmt u.fmt
  foldValue (blockSum f (r.codes.take 32) (c.codes.take 32)) (r.e0 + c.e0)
    (blockSum f (r.codes.drop 32) (c.codes.drop 32)) (r.e1 + c.e1) acc u.clr

/-- The accumulator store after the fold of one row, and how many folds gave an infinity. -/
def SubPass.foldRow (u : SubPass) (r : StreamRow) (acc : Table Word) : Table Word × Nat :=
  ((List.range u.cols.length).zip u.cols).foldl (fun (x : Table Word × Nat) nc =>
    let k := u.entryOf r nc.1
    let v := u.foldEntry r nc.2 (Tab.get acc k 0)
    (Tab.set x.1 k v, x.2 + b2n (isInf32 v))) (acc, 0)

/-- The units of R507 of an ungated product. -/
def productUnits (fmt : Nat) : Nat := if fmt = 4 then 1 else if fmt = 5 then 2 else 4

/-- The first pass with a row left, and the passes once that row has streamed. -/
def nextRow : List SubPass → Option (SubPass × StreamRow × List SubPass)
  | [] => none
  | u :: rest => match u.rows with
    | [] => nextRow rest
    | r :: more => some (u, r, { u with rows := more, entered := true } :: rest)

/-- FOLD: the next stream row of the earliest pass taken crosses the cells, and the fold unit adds its sums (R112, R116, R117).
Log entry 105 (DESIGN CHOICE). -/
def State.fold (s : State) (p a : Nat) : State :=
  let w := s.work p
  let x := w.array a
  match x.taken with
  | [] => s
  | t :: rest =>
    match nextRow t.subs with
    | none => s
    | some (u0, r, subs) =>
      let u := { u0 with cols := x.weights u0 }
      let y := u.foldRow r x.acc
      let prods := (u.cols.map (fun c => ungated (lfmt u.fmt) r.codes c.codes)).foldl (· + ·) 0
      let x1 := { x.front u0 with acc := y.1, taken := { t with subs := subs } :: rest }
      let s1 := s.setWork p (w.setArray a x1.load)
      let s2 := ((s1.count p (8 * a) 1).count p (8 * a + 5) prods).count p (8 * a + 6) (u.kv * u.cols.length - prods)
      let s3 := s2.count p (8 * a + 7) y.2
      match s3.disp? (w.cidOf t.entry.block) with
      | none => s3
      | some d => s3.activity (p / 48) [d.ctx] (productUnits u.fmt * prods)

/-- The rows of an MDRAIN or MZERO: entries of the columns named, by row. -/
def accEntries (m : MxEntry) : List (Nat × List Nat) :=
  let base := 32768 * fld m.w 22 22
  let width := 64 * prodP (dFmt m.w)
  (List.range (exRows m.opB)).map (fun r =>
    (r, (List.range (exNv m.opB)).map (fun n => base + width * (exAcc m.opB + r) + n)))

/-- The deck bytes an MDRAIN writes, by stored row. -/
def drainRows (m : MxEntry) : List (Int × Int) :=
  if wOp m.w = 0xA2 then (List.range (exRows m.opB)).map (fun r =>
    (((opData m.opA + r * opPitch m.opA : Nat) : Int), ((opData m.opA + r * opPitch m.opA + 4 * exNv m.opB : Nat) : Int)))
  else []

/-- Runs the accumulator queue's head (R134): MDRAIN writes its rows to the deck as binary32, and clears them under CLRA;
MZERO clears. -/
def State.runAcc (s : State) (p a : Nat) (m : MxEntry) : State :=
  let acc := ((s.work p).array a).acc
  let drain := wOp m.w == 0xA2
  let es := accEntries m
  let s1 := if drain then es.foldl (fun t e =>
      t.deckPut p (opData m.opA + e.1 * opPitch m.opA) (e.2.flatMap (fun k => natLe 4 (Tab.get acc k 0).toNat))) s else s
  let clear := !drain || fld m.w 23 23 == 1
  let w := s1.work p
  let x := w.array a
  let gone := es.flatMap (·.2)
  if clear then s1.setWork p (w.setArray a { x with acc := x.acc.filter (fun e => !gone.contains e.1) }) else s1

/-- PASS_COMPLETE: the earliest pass taken whose last fold is done completes; else the head of the accumulator queue runs,
once nothing holds it back (R139 to R141). Log entry 105 (DESIGN CHOICE). -/
def State.passComplete (s : State) (p a : Nat) : State :=
  let w := s.work p
  let x := w.array a
  let drainHead : State :=
    match x.accq with
    | [] => s
    | m :: rest =>
      if !(s.core p).running || w.blocked m.stamp m.envs || x.waits m then s
      else
        let s1 := (s.setWork p (w.setArray a { x with accq := rest })).runAcc p a m
        (match s1.disp? (w.cidOf m.block) with
        | none => s1
        | some d => s1.deckUnits p d.ctx (rangeRows (drainRows m))).pumpAll p
  match x.taken with
  | t :: rest =>
    if (nextRow t.subs).isNone then (s.setWork p (w.setArray a { x with taken := rest })).pumpAll p else drainHead
  | [] => drainHead

/-- TAKE_DECISION (R149). -/
def execTakeDecision (p a : Nat) (s : State) : Out := onWf (.takeDecision p a) (s.takeDecision p a)

/-- FOLD (R112). -/
def execFold (p a : Nat) (s : State) : Out := onWf (.fold p a) (s.fold p a)

/-- PASS_COMPLETE (R141). -/
def execPassComplete (p a : Nat) (s : State) : Out := onWf (.passComplete p a) (s.passComplete p a)

end Sys2Proof.Machine
end

