-- ==== Sys2Proof/Machine/Vector.lean ====
section
/-! DEFINITION. The vector engine and the reduction unit (R243 to R271): issue checks and who holds the engine, the
effect of each instruction on lanes and masks, conversions, deck access, reductions. -/

namespace Sys2Proof.Machine

/-! ### Encodings (R252, R253, R256 to R261, R264, R266) -/

/-- Which fields an opcode names: VD, VA, VB, VC, MK, MEN, MZ, SS, SUB, PART, FMT, SHAPE, CTL as bits 0 to 12. -/
def veNames (op : Nat) : Nat :=
  let m := 16 + 32 + 64
  if op = 0x80 ∨ op = 0x84 then 1 + m + 128 + 256
  else if op = 0x81 then 2 + m + 128 + 256
  else if op = 0x82 then 1 + 4 + m + 128
  else if op = 0x83 then 2 + 4 + m + 128
  else if op ∈ [0x85, 0x88, 0x89, 0x8A, 0x8F] then 1 + 2 + 4 + m
  else if op = 0x8B ∨ op = 0x8E then 1 + 2 + 4 + 8 + m
  else if op ∈ [0x8C, 0x8D, 0x91] then 1 + 2 + 4 + m + 256
  else if op = 0x90 then 1 + 2 + m
  else if op = 0x92 then 1 + 2 + 4 + 128 + 256
  else if op = 0x94 then 1 + 2 + m + 256 + 512 + 4096
  else if op ∈ [0x95, 0x96, 0x97] then 1 + 2 + m + 128 + 512 + 1024 + 2048 + 4096
  else if op = 0x98 then 128
  else if op = 0x9A then 2 + 16 + 32 + 256 + 512 + 4096
  else if op = 0x9B then 1 + m + 128 + 256 + 512
  else 0

/-- Whether every field the opcode does not name is 0. Log entry 103 (DEDUCED). -/
def veUnused (w : DWord) : Bool :=
  let n := veNames (wOp w)
  let z (i v : Nat) : Bool := bit n i || v == 0
  z 0 (vVd w) && z 1 (vVa w) && z 2 (vVb w) && z 3 (vVc w) && z 4 (vMk w) && z 5 (fld w 31 31) && z 6 (fld w 32 32) &&
    z 7 (vSs w) && z 8 (vSub w) && z 9 (vPart w) && z 10 (vFmt w) && z 11 (vShape w) && z 12 (vCtl w) && fld w 63 62 == 0

/-- Whether the element type is allowed (R253's TY column). -/
def veTyOk (op ty : Nat) : Bool :=
  if op ∈ [0x8B, 0x8F, 0x90] then ty ≤ 2
  else if op = 0x8D then ty == 0 || ty == 3
  else if 0x92 ≤ op then ty == 0
  else true

/-- Whether the sub-operation is allowed. -/
def veSubOk (op ty sub : Nat) : Bool :=
  if op ∈ [0x80, 0x81, 0x84, 0x8C] then sub ≤ 1
  else if op = 0x8D then sub ≤ 3 || (ty == 3 && sub ≤ 5)
  else if op = 0x91 then sub ≤ 7
  else if op = 0x92 then sub ≤ 9
  else if op = 0x94 ∨ op = 0x9B then sub ≤ 5
  else if op = 0x9A then sub % 8 ≤ 4
  else sub == 0

/-- The reserved encodings of conversions and reductions (R72, R87, R257, R258, R261, R264). A mask register number
stands in bits [2:0] of its field, the rest 0 (R252). -/
def veFormOk (w : DWord) : Bool :=
  let op := wOp w
  let c := vCtl w
  if op = 0x8D then vVd w < 8
  else if op = 0x8E then vVc w < 8
  else if op = 0x92 then vVd w < 8 && vVa w < 8 && vVb w < 8
  else if op = 0x94 then !bit c 7 && vPart w ≤ (if vSub w < 4 then 1 else 0)
  else if op = 0x95 ∨ op = 0x96 ∨ op = 0x97 then
    isL (vFmt w) && fmtShapeOk (vFmt w) (vShape w) && !bit c 7 && vPart w < 32 / (lfmt (vFmt w)).width &&
      (op == 0x96 || vShape w != 2 || ctlSupplied c)
  else if op = 0x9A then c < 2
  else true

/-- A vector-engine word that is no reserved encoding. -/
def vectorLegal (w : DWord) : Bool :=
  veUnused w && veTyOk (wOp w) (vTy w) && veSubOk (wOp w) (vTy w) (vSub w) && veFormOk w

/-- The fault of a vector-engine instruction at issue, highest first (R268). -/
def vectorFault (w : DWord) (t : Seat) : Option Nat :=
  let s := t.g.s (vSs w)
  let deck := wOp w ≤ 0x83
  if !t.g.converged then some St.groupDivergent
  else if !vectorLegal w then some St.illegalInstruction
  else if deck && ((0x82 ≤ wOp w && vBound s < 4) || !t.b.holds (vRange w s)) then some St.deckRange
  else if deck && vBase s % 4 != 0 then some St.alignment
  else none

/-! ### Taking the engine (R244 to R246) -/

/-- The engine's registers, masks and accumulators set to zero (R246). -/
def Engine.zero (e : Engine) : Engine := { e with v := [], k := [], accs := [] }

/-- Gives core p's engine to a holder of a context: zeroed and counted where the last holder's context differs (R246). -/
def State.giveEngine (s : State) (p : Nat) (h : Holder) (c : CtxId) : State :=
  let w := s.work p
  let e := w.engine
  let was := e.last != [] && e.last != [(c.id, c.gen)]
  let e1 := if was then e.zero else e
  let left := e1.waiters.filter (fun b => h != .block b)
  let s1 := s.setWork p { w with engine := { e1 with holder := h, last := [(c.id, c.gen)], waiters := left } }
  s1.count p 63 (b2n was)

/-- Queues a vector-engine instruction (R244, R268, R269): the block takes a free engine; VOWN gives it up at issue.
Log entry 104 (DEDUCED). -/
def vectorRun (w : DWord) (s : State) (t : Seat) : Issued :=
  match vectorFault w t with
  | some st => .fault st
  | none =>
    let s1 := if (s.work t.p).engine.holder = .block t.g.block then s else s.giveEngine t.p (.block t.g.block) t.d.ctx
    let k := s1.work t.p
    let v : VeEntry := ⟨t.g.stamp, t.slot, t.g.block, w, t.g.s (vSs w)⟩
    let e := { k.engine with queue := k.engine.queue ++ [v] }
    let e := if wOp w = 0x9C then { e with holder := .nobody } else e
    .done ((s1.setWork t.p { k with engine := e }).putGroup t t.g.advance)

/-! ### Registers and masks (R249, R250) -/

/-- The lanes of vector register r. -/
def Engine.vreg (e : Engine) (r : Nat) : List Word := (List.range 128).map (fun l => Tab.get e.v (128 * r + l) 0)

/-- Lane l of vector register r. -/
def Engine.lane (e : Engine) (r l : Nat) : Word := Tab.get e.v (128 * r + l) 0

/-- Mask register k. -/
def Engine.mreg (e : Engine) (k : Nat) : BitVec 128 := Tab.get e.k k 0

/-- The active mask of an instruction (R250). -/
def Engine.active (e : Engine) (w : DWord) : BitVec 128 := if vMen w then e.mreg (vMk w) else BitVec.allOnes 128

/-- Writes lane l of vector register r. -/
def Engine.setLane (e : Engine) (r l : Nat) (x : Word) : Engine := { e with v := Tab.set e.v (128 * r + l) x }

/-- Writes VD under a mask (R250): active lanes take f, inactive ones keep their value, or are zero under MZ. -/
def Engine.put (e : Engine) (w : DWord) (mask : BitVec 128) (f : Nat → Word) : Engine :=
  (List.range 128).foldl (fun x l =>
    if mask.getLsbD l then x.setLane (vVd w) l (f l)
    else if vMz w then x.setLane (vVd w) l 0 else x) e

/-- Writes mask register k. -/
def Engine.setMreg (e : Engine) (k : Nat) (m : BitVec 128) : Engine := { e with k := Tab.set e.k k m }

/-- A mask of the lanes that satisfy a test. -/
def maskOf (f : Nat → Bool) : BitVec 128 :=
  (List.range 128).foldl (fun m l => if f l then m ||| (1 <<< l) else m) 0

/-! ### Lane arithmetic (R253) -/

/-- Applies an operation of a linear format to the elements of a lane under TY 0 to 2. -/
def byElem (ty : Nat) (f : Lin → Nat → Nat → Nat → Nat) (a b c : Word) : Word :=
  let q := linFmt ty
  if ty = 0 then BitVec.ofNat 32 (f q a.toNat b.toNat c.toNat)
  else BitVec.ofNat 32 (f q (a.toNat % 65536) (b.toNat % 65536) (c.toNat % 65536) +
    65536 * f q (a.toNat / 65536) (b.toNat / 65536) (c.toNat / 65536))

/-- A shift of a value of some bits by an amount below them: SUB 3 left, 4 right logical, 5 right arithmetic. -/
def shiftBits (sub width x n : Nat) : Nat :=
  if sub = 3 then x * 2 ^ n % 2 ^ width
  else if sub = 4 then x / 2 ^ n
  else unsigned width (Int.fdiv (signed width x) (2 ^ n))

/-- VBIT of a lane. -/
def vbitLane (ty sub : Nat) (a b : Word) : Word :=
  if sub = 0 then a &&& b
  else if sub = 1 then a ||| b
  else if sub = 2 then a ^^^ b
  else if sub ≤ 5 then
    (if ty = 1 ∨ ty = 2 then
      BitVec.ofNat 32 (shiftBits sub 16 (a.toNat % 65536) (b.toNat % 65536 % 16) +
        65536 * shiftBits sub 16 (a.toNat / 65536) (b.toNat / 65536 % 16))
    else BitVec.ofNat 32 (shiftBits sub 32 a.toNat (b.toNat % 32)))
  else if ty = 3 then (if sub = 6 ∧ !a.msb then a else 0 - a)
  else
    let signs : Word := if ty = 0 then 0x80000000 else 0x80008000
    if sub = 6 then a &&& ~~~ signs else a ^^^ signs

/-- A lane of an arithmetic instruction: a, b, c from VA, VB, VC. -/
def arithLane (w : DWord) (a b c : Word) : Word :=
  let op := wOp w
  let ty := vTy w
  let sub := vSub w
  if op = 0x91 then vbitLane ty sub a b
  else if ty = 3 then
    (if op = 0x88 then a + b
    else if op = 0x89 then a - b
    else if op = 0x8A then a * b
    else if sub = 0 then (if BitVec.slt b a then b else a)
    else (if BitVec.slt a b then b else a))
  else byElem ty (fun q x y z =>
    if op = 0x88 then q.add x y
    else if op = 0x89 then q.sub x y
    else if op = 0x8A then q.mul x y
    else if op = 0x8B then q.fma x y z
    else if op = 0x8C then q.minmax (sub == 1) x y
    else if op = 0x8F then q.div x y
    else q.sqrt x) a b c

/-- VMASK's new mask register (R256); SUB 8 and 9 write none. -/
def vmaskValue (sub : Nat) (a b old : BitVec 128) (s : DWord) : BitVec 128 :=
  if sub = 0 then a &&& b
  else if sub = 1 then a ||| b
  else if sub = 2 then a ^^^ b
  else if sub = 3 then a &&& ~~~ b
  else if sub = 4 then ~~~ a
  else if sub = 5 then BitVec.ofNat 128 (2 ^ min s.toNat 128 - 1)
  else if sub = 6 then BitVec.ofNat 128 (old.toNat / 2 ^ 64 * 2 ^ 64 + s.toNat)
  else BitVec.ofNat 128 (old.toNat % 2 ^ 64 + 2 ^ 64 * s.toNat)

/-- The engine after an instruction on its registers alone: VBCAST, VPERM, arithmetic, VCMP, VSEL, VMASK. -/
def Engine.run (e : Engine) (v : VeEntry) : Engine :=
  let w := v.w
  let op := wOp w
  let m := e.active w
  let a := e.lane (vVa w)
  let b := e.lane (vVb w)
  let c := e.lane (vVc w)
  if op = 0x84 then e.put w m (fun l => if vSub w = 0 then v.sval.truncate 32 else BitVec.ofNat 32 l)
  else if op = 0x85 then e.put w m (fun l => a ((b l).toNat % 128))
  else if op = 0x8D then
    let test (l : Nat) : Bool := ((if vTy w = 0 then fcmpFlag (vSub w) (a l) (b l) else icmpFlag (vSub w) (a l) (b l))).getD false
    let old := e.mreg (vVd w)
    e.setMreg (vVd w) ((maskOf test &&& m) ||| (if vMz w then 0 else old &&& ~~~ m))
  else if op = 0x8E then e.put w m (fun l => if (e.mreg (vVc w)).getLsbD l then a l else b l)
  else if op = 0x92 then
    (if 8 ≤ vSub w then e
    else e.setMreg (vVd w) (vmaskValue (vSub w) (e.mreg (vVa w)) (e.mreg (vVb w)) (e.mreg (vVd w)) v.sval))
  else e.put w m (fun l => arithLane w (a l) (b l) (c l))

/-! ### Conversions (R257 to R263) -/

/-- What a conversion has done so far: the registers' lanes, the generators, and the counts of R263 and of draws. -/
structure Conv where
  v     : Table Word
  gens  : Table DWord
  sats  : Nat
  nans  : Nat
  draws : Nat
deriving DecidableEq, Repr

/-- Puts width bits at element e of a part of register r (R257, R258): lane 4 x width x PART + e x width / 32. -/
def packPut (v : Table Word) (r width part e x : Nat) : Table Word :=
  let k := 128 * r + 4 * width * part + e * width / 32
  let lo := e * width % 32
  Tab.set v k (BitVec.ofNat 32 (setBits (Tab.get v k 0).toNat (lo + width - 1) lo x))

/-- The bits of element e of a part of register r. -/
def packGet (v : Table Word) (r width part e : Nat) : Nat :=
  let lo := e * width % 32
  bits (Tab.get v (128 * r + 4 * width * part + e * width / 32) 0).toNat (lo + width - 1) lo

/-- Runs a conversion over the elements in ascending order (R262): an active element is converted, drawing where the
rounding is stochastic; an inactive one keeps its bits or is zero under MZ (R250). width is the destination's, part its
part; val answers the element's input from the registers as they were. -/
def convert128 (p : Nat) (w : DWord) (mask : BitVec 128) (ctl width part : Nat) (conv : Nat → Rnd → Enc)
    (v : Table Word) (gens : Table DWord) : Conv :=
  (List.range 128).foldl (fun (x : Conv) e =>
    if mask.getLsbD e then
      let d := drawRnd p ctl e x.gens
      let r := conv e d.1
      ⟨packPut x.v (vVd w) width part e r.bits, d.2, x.sats + b2n r.sat, x.nans + b2n r.nan, x.draws + b2n (ctlStoch ctl)⟩
    else if vMz w then { x with v := packPut x.v (vVd w) width part e 0 }
    else x) ⟨v, gens, 0, 0, 0⟩

/-- VCVT (R257). Every active element draws where the control byte rounds stochastically (R94), though SUB 2, 3 and 5 do not
round under it. Log entry 103 (DEDUCED). -/
def vcvtRun (p : Nat) (w : DWord) (mask : BitVec 128) (v : Table Word) (gens : Table DWord) : Conv :=
  let sub := vSub w
  let ctl := vCtl w
  let lane (e : Nat) : Word := Tab.get v (128 * vVa w + e) 0
  if sub < 2 then
    let f := linFmt (1 + sub)
    convert128 p w mask ctl 16 (vPart w) (fun e r =>
      let x := f32.decode (lane e).toNat
      ⟨f.encode r (ctlSatf ctl) x, f.overflows r x, false⟩) v gens
  else if sub < 4 then
    convert128 p w mask ctl 32 0 (fun e _ => ⟨f32.near ((linFmt (sub - 1)).decode (packGet v (vVa w) 16 (vPart w) e)), false, false⟩) v gens
  else if sub = 4 then
    convert128 p w mask ctl 32 0 (fun e r => ⟨f32.encode r (ctlSatf ctl) (Val.ofInt (lane e).toInt), false, false⟩) v gens
  else
    convert128 p w mask ctl 32 0 (fun e _ => ⟨(convert 2 (lane e)).toNat, false, false⟩) v gens

/-- Scale byte b of a scalar. -/
def scaleOf (s : DWord) (b : Nat) : Int := scaleInt (fld s (8 * b + 7) (8 * b))

/-- The scales R89 chooses for four blocks of 32 elements over their active elements. -/
def chooseFour (mask : BitVec 128) (val : Nat → Val) : List Int :=
  (List.range 4).map (fun b =>
    chooseScale (((List.range 32).filter (fun i => mask.getLsbD (32 * b + i))).map (fun i => val (32 * b + i))))

/-- Four scales as 32 bits. -/
def packScales (es : List Int) : Nat := leNat (es.map (fun e => BitVec.ofNat 8 (scaleByte e)))

/-- VCVTL, VDECL and VREBLK (R258 to R260): the conversion, and the scales chosen, if any. -/
def vlRun (p : Nat) (w : DWord) (s : DWord) (mask : BitVec 128) (v : Table Word) (gens : Table DWord) :
    Conv × Option (List Int) :=
  let op := wOp w
  let ctl := vCtl w
  let f := lfmt (vFmt w)
  let old (e : Nat) : Val := f.decode (scaleOf s (e / 32)) (packGet v (vVa w) f.width (vPart w) e)
  if op = 0x96 then
    (convert128 p w mask ctl 32 0 (fun e r => ⟨f32.encode r false (old e), false, false⟩) v gens, none)
  else
    let val (e : Nat) : Val := if op = 0x95 then f32.decode (Tab.get v (128 * vVa w + e) 0).toNat else old e
    let es : List Int := if ctlSupplied ctl then (List.range 4).map (fun b => scaleOf s (if op = 0x95 then b else b + 4))
      else chooseFour mask val
    (convert128 p w mask ctl f.width (vPart w) (fun e r => f.encode ((es[e / 32]?).getD 0) r (val e)) v gens,
      if ctlSupplied ctl then none else some es)

/-! ### The engine's row (R269) -/

/-- Beats an instruction occupies the engine (R269). -/
def veBeats (w : DWord) : Nat :=
  let op := wOp w
  if (op = 0x80 ∨ op = 0x81) ∧ vSub w = 1 then 4
  else if op ∈ [0x82, 0x83, 0x8F, 0x90, 0x98] then 4
  else 1

/-- Vector registers an instruction names. -/
def veRegs (w : DWord) : List Nat :=
  let n := veNames (wOp w)
  (if bit n 0 && wOp w != 0x8D && wOp w != 0x92 then [vVd w] else []) ++ (if bit n 1 && wOp w != 0x92 then [vVa w] else []) ++
  (if bit n 2 && wOp w != 0x92 then [vVb w] else []) ++ (if wOp w = 0x8B then [vVc w] else [])

/-- Whether a queued RGET is still to write a vector register that the instruction names (R266). -/
def Engine.awaits (e : Engine) (w : DWord) : Bool :=
  e.ruq.any (fun r => match r with
    | .get _ _ _ g _ => 4 ≤ vSub g && wOp w != 0x9B && (veRegs w).contains (vVd g)
    | .red _ _ _ _ _ _ => false)

/-- The deck address of lane l (R254, R255). -/
def veAddr (w s : DWord) (off : Word) (l : Nat) : Nat :=
  if wOp w ≤ 0x81 then ((vBase s : Int) + vStep w s * l).toNat
  else
    let o := off.toNat - off.toNat % 4
    vBase s + (if vBound s < o + 4 then vBound s - 4 else o)

/-- Writes scalar register s[r] of the group that issued an instruction, if it has not ended. -/
def State.giveScalar (s : State) (p slot block r : Nat) (f : DWord → DWord) : State :=
  let w := s.work p
  match w.group? slot with
  | some g => if g.block = block then s.setWork p (w.setGroup slot (g.setS r (f (g.s r)))) else s
  | none => s

/-- Replaces the engine of core p. -/
def State.setEngine (s : State) (p : Nat) (e : Engine) : State := s.setWork p { s.work p with engine := e }

/-- The deck accesses: VLD and VGATH read active lanes, VST and VSCAT write them, the highest lane last (R255). -/
def State.veDeck (s : State) (p : Nat) (v : VeEntry) (c : CtxId) : State :=
  let w := v.w
  let e := (s.work p).engine
  let ls := (List.range 128).filter (fun l => (e.active w).getLsbD l)
  let at_ (l : Nat) : Nat := veAddr w v.sval (e.lane (vVb w) l) l
  let s0 := s.deckUnits p c (deckRows (ls.map at_))
  if wOp w = 0x80 ∨ wOp w = 0x82 then
    let s1 := ls.foldl (fun t l => t.deckCheck p (at_ l) 4) s0
    s1.setEngine p (e.put w (e.active w) (fun l => BitVec.ofNat 32 (leNat (s.deckBytes p (at_ l) 4))))
  else ls.foldl (fun t l => t.deckPut p (at_ l) (natLe 4 (e.lane (vVa w) l).toNat)) s0

/-- A conversion instruction on core p (R257 to R263). -/
def State.veConvert (s : State) (p : Nat) (v : VeEntry) : State :=
  let w := v.w
  let e := (s.work p).engine
  let m := e.active w
  let gens := (s.core p).gens
  let r := if wOp w = 0x94 then (vcvtRun p w m e.v gens, none) else vlRun p w v.sval m e.v gens
  let s1 := s.setEngine p { e with v := r.1.v }
  let s2 := s1.setCore p { s1.core p with gens := r.1.gens }
  let s3 := (((s2.count p 58 ((List.range 128).filter (fun l => m.getLsbD l)).length).count p 59 r.1.sats).count p 60
    r.1.nans).count p 61 r.1.draws
  match r.2 with
  | none => s3
  | some es =>
    let sc := packScales es
    s3.giveScalar p v.slot v.block (vSs w) (fun x => if wOp w = 0x95 then setFld x 31 0 sc else setFld x 63 32 sc)

/-- What an instruction of the queue does when the engine runs it. -/
def State.veRun (s : State) (p : Nat) (v : VeEntry) (c : CtxId) : State :=
  let w := v.w
  let op := wOp w
  let e := (s.work p).engine
  if op ≤ 0x83 then s.veDeck p v c
  else if 0x94 ≤ op ∧ op ≤ 0x97 then s.veConvert p v
  else if op = 0x98 then
    s.setCore p { s.core p with gens := (List.range 128).map (fun l => (l, genSeed p v.sval l)) }
  else if op = 0x9A then
    s.setEngine p { e with ruq := e.ruq ++ [.red v.stamp v.slot v.block w (e.vreg (vVa w)) (e.active w)] }
  else if op = 0x9B then s.setEngine p { e with ruq := e.ruq ++ [.get v.stamp v.slot v.block w (e.active w)] }
  else if op = 0x9C then s
  else
    let s1 := s.setEngine p (e.run v)
    if op = 0x92 ∧ 8 ≤ vSub w then
      let k := (e.mreg (vVa w)).toNat
      s1.giveScalar p v.slot v.block (vSs w) (fun _ => BitVec.ofNat 64 (if vSub w = 8 then k % 2 ^ 64 else k / 2 ^ 64))
    else s1

/-- VE_INSTRUCTION_START: the engine runs the head of its queue (R269), unless an earlier access of the core stands in the
way (R315), a queued RGET is still to write a register it names (R266), or the reduction unit has no room (R267). -/
def State.veStart (s : State) (p : Nat) : State :=
  let w := s.work p
  match w.engine.queue with
  | [] => s
  | v :: rest =>
    let full := (wOp v.w == 0x9A || wOp v.w == 0x9B) && 8 ≤ w.engine.ruq.length
    if !(s.core p).running || w.blocked v.stamp v.envs || w.engine.awaits v.w then s
    else if full then s.count p 57 1
    else
      match s.disp? (w.cidOf v.block) with
      | none => s
      | some d =>
        let s1 := (s.setEngine p { w.engine with queue := rest }).count p 55 (veBeats v.w)
        let s2 := (s1.activity (p / 48) [d.ctx] (1280 * veBeats v.w)).veRun p v d.ctx
        s2.pumpAll p

/-! ### Reductions (R264 to R267) -/

/-- The pattern of no element (R265). Log entry 12 (DESIGN CHOICE). -/
def noElem : Word := 0x7FC00000

/-- An element of a MAX, MAXABS or ARGMAX with its index: none where it does not count (R265). -/
def redElem (op : Nat) (x : Word) (i : Nat) : Option (Word × Word) :=
  let n := x.toNat
  if f32.isNan n then none
  else if op = 3 then (if f32.isFin n then some (x &&& 0x7FFFFFFF, BitVec.ofNat 32 i) else none)
  else some (x, BitVec.ofNat 32 i)

/-- The larger of two (R265): −0 below +0, the lower index on a tie. -/
def redPick : Option (Word × Word) → Option (Word × Word) → Option (Word × Word)
  | none, y => y
  | x, none => x
  | some x, some y =>
    let a := f32.rank x.1.toNat
    let b := f32.rank y.1.toNat
    if a < b then some y else if b < a then some x else if BitVec.ult y.2 x.2 then some y else some x

/-- Combines neighbours in pairs, level by level: 7 levels for 128 leaves (R265). -/
def treeFold {α : Type} (f : α → α → α) : Nat → List α → List α
  | 0, l => l
  | k + 1, l =>
    let rec pairs : List α → List α
      | a :: b :: t => f a b :: pairs t
      | t => t
    treeFold f k (pairs l)

/-- An element as a SUM or SUMSQ adds it. -/
def sumElem (op : Nat) (x : Word) : Word := if op = 0 then x else fmul32 x x

/-- What an accumulator lane holds, as a candidate of a maximum. -/
def accHeld (a : RuAcc) (l : Nat) : Option (Word × Word) :=
  let v := Tab.get a.vals l 0
  let i := Tab.get a.idxs l 0
  if v = noElem ∧ i = 0xFFFFFFFF then none else some (v, i)

/-- Stores a result in lane l of an accumulator. -/
def RuAcc.store (a : RuAcc) (l : Nat) (r : Option (Word × Word)) : RuAcc :=
  let x := r.getD (noElem, 0xFFFFFFFF)
  { a with vals := Tab.set a.vals l x.1, idxs := Tab.set a.idxs l x.2 }

/-- The accumulator after a RED (R265). -/
def RuAcc.red (a : RuAcc) (w : DWord) (lanes : List Word) (mask : BitVec 128) : RuAcc :=
  let op := vSub w % 8
  let mode := vSub w / 8
  let fresh := bit (vCtl w) 0 || !a.live || a.op != op || a.mode != mode
  let k := if fresh then 0 else a.k
  let a0 := { a with op := op, mode := mode, live := true, k := k + 1 }
  let x (l : Nat) : Word := (lanes[l]?).getD 0
  if mode = 0 then
    if op < 2 then
      let t := treeFold fadd32 7 ((List.range 128).map (fun l => if mask.getLsbD l then sumElem op (x l) else 0x80000000))
      let r := t.headD 0
      a0.store 0 (some (if fresh then r else fadd32 (Tab.get a.vals 0 0) r, 0))
    else
      let t := treeFold redPick 7 ((List.range 128).map (fun l => if mask.getLsbD l then redElem op (x l) (128 * k + l) else none))
      let r := t.headD none
      a0.store 0 (if fresh then r else redPick (accHeld a 0) r)
  else
    (List.range 128).foldl (fun b l =>
      if !mask.getLsbD l then b
      else if op < 2 then
        let y := sumElem op (x l)
        b.store l (some (if fresh then y else fadd32 (Tab.get a.vals l 0) y, 0))
      else
        let r := redElem op (x l) k
        b.store l (if fresh then r else redPick (accHeld a l) r)) a0

/-- The index of lane l that an RGET reads: R265 gives one for ARGMAX and for a maximum over no element; of another
accumulator that has been started it is a free value (log entry 12). -/
def RuAcc.index (a : RuAcc) (l fresh : Nat) : Word :=
  if !a.live || a.op = 4 || (accHeld a l).isNone then Tab.get a.idxs l 0 else BitVec.ofNat 32 (Config.choice fresh)

/-- The scale of R89 for an accumulator value taken as the largest magnitude (R266). -/
def RuAcc.scale (a : RuAcc) : Int := chooseScale [f32.decode (Tab.get a.vals 0 0).toNat]

/-- RGET (R266). Log entry 12 (DESIGN CHOICE). -/
def State.ruGet (s : State) (p slot block : Nat) (w : DWord) (mask : BitVec 128) : State :=
  let e := (s.work p).engine
  let a := Tab.get e.accs (vPart w) ⟨0, 0, false, 0, [], []⟩
  let sub := vSub w
  let v0 := (Tab.get a.vals 0 0).toNat
  let src (l : Nat) : Nat := if a.mode = 1 then l else 0
  if sub = 4 then s.setEngine p (e.put w mask (fun l => Tab.get a.vals (src l) 0))
  else if sub = 5 then (s.setEngine p (e.put w mask (fun l => a.index (src l) s.fresh))).drawn
  else if sub = 0 then s.giveScalar p slot block (vSs w) (fun _ => BitVec.ofNat 64 v0)
  else if sub = 1 then
    (s.giveScalar p slot block (vSs w) (fun _ => BitVec.ofNat 64 (v0 + 2 ^ 32 * (a.index 0 s.fresh).toNat))).drawn
  else if sub = 2 then s.giveScalar p slot block (vSs w) (fun _ => BitVec.ofInt 64 a.scale)
  else s.giveScalar p slot block (vSs w) (fun _ => BitVec.ofNat 64 (scaleByte a.scale * 0x0101010101010101))

/-- REDUCTION_TAKE: the reduction unit takes the next entry of its queue (R265, R266). An entry across lanes is in progress for 8
beats, one across streams for 2, an RGET for 1 (R269); of these RU_BUSY counts the beats that no entry before it had counted
(R271): one at least, as an entry is taken on each, and otherwise a free number, since timing is not modelled (log entry 115). -/
def State.reductionTake (s : State) (p : Nat) : State :=
  let e := (s.work p).engine
  if !(s.core p).running then s
  else match e.ruq with
    | [] => s
    | .red _ _ _ w lanes mask :: rest =>
      let a := Tab.get e.accs (vPart w) ⟨0, 0, false, 0, [], []⟩
      ((s.setEngine p { e with ruq := rest, accs := Tab.set e.accs (vPart w) (a.red w lanes mask) }).count p 62
        (1 + Config.choice s.fresh % (if vSub w < 8 then 8 else 2))).drawn
    | .get _ slot block w mask :: rest =>
      ((s.setEngine p { e with ruq := rest }).ruGet p slot block w mask).count p 62 1

/-- VE_OWNER_PASS: the freed engine passes to the block that has waited longest, once the last holder's queue and
reductions have drained (R245), zeroed first where the context changes (R246). Log entry 104 (DEDUCED). -/
def State.veOwnerPass (s : State) (p : Nat) : State :=
  let w := s.work p
  match w.engine.waiters with
  | [] => s
  | b :: rest =>
    if w.engine.holder != .nobody || !w.engine.queue.isEmpty || !w.engine.ruq.isEmpty then s
    else match s.disp? (w.cidOf b) with
      | none => s.setEngine p { w.engine with waiters := rest }
      | some d => s.giveEngine p (.block b) d.ctx

/-! ### The rows -/

/-- VLD at issue (R254). -/
def execVld (p slot : Nat) (w : DWord) (s : State) : Out :=
  onWf (.vld p slot w) (s.issue p slot w 0x80 (vectorRun w))

/-- VST at issue (R254). -/
def execVst (p slot : Nat) (w : DWord) (s : State) : Out :=
  onWf (.vst p slot w) (s.issue p slot w 0x81 (vectorRun w))

/-- VGATH at issue (R255). -/
def execVgath (p slot : Nat) (w : DWord) (s : State) : Out :=
  onWf (.vgath p slot w) (s.issue p slot w 0x82 (vectorRun w))

/-- VSCAT at issue (R255). -/
def execVscat (p slot : Nat) (w : DWord) (s : State) : Out :=
  onWf (.vscat p slot w) (s.issue p slot w 0x83 (vectorRun w))

/-- VBCAST at issue (R253). -/
def execVbcast (p slot : Nat) (w : DWord) (s : State) : Out :=
  onWf (.vbcast p slot w) (s.issue p slot w 0x84 (vectorRun w))

/-- VPERM at issue (R253). -/
def execVperm (p slot : Nat) (w : DWord) (s : State) : Out :=
  onWf (.vperm p slot w) (s.issue p slot w 0x85 (vectorRun w))

/-- VADD at issue (R253). -/
def execVadd (p slot : Nat) (w : DWord) (s : State) : Out :=
  onWf (.vadd p slot w) (s.issue p slot w 0x88 (vectorRun w))

/-- VSUB at issue (R253). -/
def execVsub (p slot : Nat) (w : DWord) (s : State) : Out :=
  onWf (.vsub p slot w) (s.issue p slot w 0x89 (vectorRun w))

/-- VMUL at issue (R253). -/
def execVmul (p slot : Nat) (w : DWord) (s : State) : Out :=
  onWf (.vmul p slot w) (s.issue p slot w 0x8A (vectorRun w))

/-- VFMA at issue (R253). -/
def execVfma (p slot : Nat) (w : DWord) (s : State) : Out :=
  onWf (.vfma p slot w) (s.issue p slot w 0x8B (vectorRun w))

/-- VMINMAX at issue (R253). -/
def execVminmax (p slot : Nat) (w : DWord) (s : State) : Out :=
  onWf (.vminmax p slot w) (s.issue p slot w 0x8C (vectorRun w))

/-- VCMP at issue (R253). -/
def execVcmp (p slot : Nat) (w : DWord) (s : State) : Out :=
  onWf (.vcmp p slot w) (s.issue p slot w 0x8D (vectorRun w))

/-- VSEL at issue (R253). -/
def execVsel (p slot : Nat) (w : DWord) (s : State) : Out :=
  onWf (.vsel p slot w) (s.issue p slot w 0x8E (vectorRun w))

/-- VDIV at issue (R253). -/
def execVdiv (p slot : Nat) (w : DWord) (s : State) : Out :=
  onWf (.vdiv p slot w) (s.issue p slot w 0x8F (vectorRun w))

/-- VSQRT at issue (R253). -/
def execVsqrt (p slot : Nat) (w : DWord) (s : State) : Out :=
  onWf (.vsqrt p slot w) (s.issue p slot w 0x90 (vectorRun w))

/-- VBIT at issue (R253). -/
def execVbit (p slot : Nat) (w : DWord) (s : State) : Out :=
  onWf (.vbit p slot w) (s.issue p slot w 0x91 (vectorRun w))

/-- VMASK at issue (R256). -/
def execVmask (p slot : Nat) (w : DWord) (s : State) : Out :=
  onWf (.vmask p slot w) (s.issue p slot w 0x92 (vectorRun w))

/-- VCVT at issue (R257). -/
def execVcvt (p slot : Nat) (w : DWord) (s : State) : Out :=
  onWf (.vcvt p slot w) (s.issue p slot w 0x94 (vectorRun w))

/-- VCVTL at issue (R258). -/
def execVcvtl (p slot : Nat) (w : DWord) (s : State) : Out :=
  onWf (.vcvtl p slot w) (s.issue p slot w 0x95 (vectorRun w))

/-- VDECL at issue (R259). -/
def execVdecl (p slot : Nat) (w : DWord) (s : State) : Out :=
  onWf (.vdecl p slot w) (s.issue p slot w 0x96 (vectorRun w))

/-- VREBLK at issue (R260). -/
def execVreblk (p slot : Nat) (w : DWord) (s : State) : Out :=
  onWf (.vreblk p slot w) (s.issue p slot w 0x97 (vectorRun w))

/-- VSEED at issue (R96). -/
def execVseed (p slot : Nat) (w : DWord) (s : State) : Out :=
  onWf (.vseed p slot w) (s.issue p slot w 0x98 (vectorRun w))

/-- RED at issue (R264). -/
def execRed (p slot : Nat) (w : DWord) (s : State) : Out :=
  onWf (.red p slot w) (s.issue p slot w 0x9A (vectorRun w))

/-- RGET at issue (R266). -/
def execRget (p slot : Nat) (w : DWord) (s : State) : Out :=
  onWf (.rget p slot w) (s.issue p slot w 0x9B (vectorRun w))

/-- VOWN at issue (R244). -/
def execVown (p slot : Nat) (w : DWord) (s : State) : Out :=
  onWf (.vown p slot w) (s.issue p slot w 0x9C (vectorRun w))

/-- VE_INSTRUCTION_START (R269). -/
def execVeInstructionStart (p : Nat) (s : State) : Out := onWf (.veInstructionStart p) (s.veStart p)

/-- REDUCTION_TAKE (R265). -/
def execReductionTake (p : Nat) (s : State) : Out := onWf (.reductionTake p) (s.reductionTake p)

/-- VE_OWNER_PASS (R245). -/
def execVeOwnerPass (p : Nat) (s : State) : Out := onWf (.veOwnerPass p) (s.veOwnerPass p)

end Sys2Proof.Machine
end

