-- ==== Sys2Proof/Machine/Blocks.lean ====
section
/-! DEFINITION. Blocks on cores (R209 to R216, R223), the passing of a core between contexts (R216), stash reservations
(R158), and pre-emption (R352). -/

namespace Sys2Proof.Machine

/-! ### Occupancy (R211, R212) -/

/-- Group-registers of a group of a program (R211). -/
def groupRegs (nreg : Nat) : Nat := 8 * ceilDiv nreg 8

/-- Deck granules of a block of a program (R211). -/
def deckGranules (deckBytes : Nat) : Nat := ceilDiv deckBytes 16384

/-- Deck granules that a partition leaves to the blocks of a core (R156, R211). -/
def State.blockGranules (s : State) (n : Nat) : Nat := 8 * (32 - s.headBanks n)

/-- B of R212 for a program on a core with g granules. -/
def occupancy (g nreg gpb deckBytes : Nat) : Nat :=
  let a := deckGranules deckBytes
  min (4096 / (groupRegs nreg * gpb)) (min (if a = 0 then 16 else g / a) (min (64 / gpb) 16))

/-- The program of a running command. -/
def State.progOf (s : State) (c : Cid) : Option Prog :=
  (s.disp? c).bind (fun d => Tab.get? (s.ptn c.ptn).progs d.prog)

/-- Group-registers in use on a core: those of ended groups are free (R223). -/
def State.regsUsed (s : State) (w : Work) : Nat :=
  (w.groups.map (fun e => ((s.progOf (w.cidOf e.2.block)).map (fun pr => groupRegs pr.nreg)).getD 0)).foldl (· + ·) 0

/-- The granules at which a run of a granules is free below a limit. -/
def Work.deckStarts (w : Work) (limit a : Nat) : List Nat :=
  (List.range (limit + 1 - a)).filter (fun g => w.blocks.all (fun e =>
    let lo := e.2.deckLo / 16384
    a == 0 || e.2.granules == 0 || g + a ≤ lo || lo + e.2.granules ≤ g))

/-- The free group slots of a core, ascending. -/
def Work.freeSlots (w : Work) : List Nat := (List.range 64).filter (fun k => (Tab.get? w.groups k).isNone)

/-- Whether a core's work may be of a context: it holds no block and no command's units of another one (R216). -/
def Work.belongs (w : Work) (c : CtxId) : Bool :=
  w.ctx == [c] || (w.blocks.isEmpty && (match w.engine.holder with
    | .command _ => false
    | _ => true))

/-- Whether core p can take a whole block of a dispatch now (R214). -/
def State.coreTakes (s : State) (p : Nat) (d : Disp) (pr : Prog) : Bool :=
  let w := s.work p
  (s.core p).running && w.belongs d.ctx && w.blocks.length < 16 &&
  pr.gpb ≤ w.freeSlots.length && s.regsUsed w + groupRegs pr.nreg * pr.gpb ≤ 4096 &&
  !(w.deckStarts (s.blockGranules d.cid.ptn) (deckGranules pr.deckBytes)).isEmpty

/-! ### Passing a core to a context (R216, R246, R98) -/

/-- Passes core p to the work of a context: on a change of context, accumulators and the engine's state are zeroed,
counted in VE_OWN_ZERO, and the generators take R97's state. -/
def State.passCore (s : State) (p : Nat) (c : CtxId) : State :=
  let k := s.core p
  let w := k.work
  if k.lastCtx = [c] ∨ k.lastCtx = [] then s.setCore p { k with work := { w with ctx := [c] }, lastCtx := [c] }
  else
    let w1 := { w with
      ctx := [c]
      arrays := Tab.mapVals (fun a => { a with acc := [] }) w.arrays
      engine := { w.engine.zero with last := [(c.id, c.gen)] } }
    (s.setCore p { k with work := w1, lastCtx := [c], gens := [] }).count p 63 1

/-! ### Placing a block (R214, R215) -/

/-- The class of the queue of a command (R350). -/
def State.classOf (s : State) (c : Cid) : Nat := ((Tab.get? (s.ptn c.ptn).queues c.queue).map (·.cls)).getD 1

/-- The command read from its queue and not yet retired. -/
def State.cmd? (s : State) (c : Cid) : Option Cmd :=
  (s.ptn c.ptn).cmds.find? (fun k => k.queue == c.queue && k.entry == c.entry)

/-- Replaces a command. -/
def State.setCmd (s : State) (n : Nat) (k : Cmd) : State :=
  let x := s.ptn n
  s.setPtn n { x with cmds := x.cmds.map (fun e => if e.queue = k.queue ∧ e.entry = k.entry then k else e) }

/-- When a command started, in Dealer order. -/
def State.startOf (s : State) (c : Cid) : Nat := ((s.cmd? c).map (·.startSeq)).getD 0

/-- Whether the first of two dispatches places its blocks before the second (R214). -/
def State.placesBefore (s : State) (a b : Disp) : Bool :=
  let ca := s.classOf a.cid
  let cb := s.classOf b.cid
  ca < cb || (ca == cb && s.startOf a.cid < s.startOf b.cid)

/-- The dispatch of partition n whose next block is placed next (R214): while work is pre-empted, trump dispatches only. -/
def State.nextDisp (s : State) (n : Nat) : Option Disp :=
  let l := (s.ptn n).disps.filter (fun d => d.status == 0 && d.granted && d.next < d.blocks &&
    ((s.ptn n).saved.isEmpty || s.classOf d.cid == 0))
  l.find? (fun d => l.all (fun e => !s.placesBefore e d))

/-- Zeroes the deck granules of a new block whose last holder was another context (R215), and records the new holder. -/
def Work.takeDeck (w : Work) (c : CtxId) (lo n : Nat) : Work :=
  (List.range n).foldl (fun x i =>
    let g := lo / 16384 + i
    let kept := Tab.get? x.granuleOwner g == some c
    { x with
      deck := if kept then x.deck else Mem.clear x.deck (16384 * g) (16384 * g + 16384)
      granuleOwner := Tab.set x.granuleOwner g c }) w

/-- A group at its start (R215): every register zero, every lane active. -/
def freshGroup (block index entry : Nat) : Group :=
  ⟨block, index, entry, BitVec.allOnes 32, 0, [], [], [], .no, 0, 0, false⟩

/-- Starts the next block of a dispatch on core p (R214, R215): lowest free group slots; the deck granules are those the
Peray chooses among the runs that fit. Of the block slots, which R214 does not give, it takes the lowest free one (log entry
124); DECK_BASE of a block with no allocation is the address so chosen (R219; log entry 125). -/
def State.placeOn (s : State) (p : Nat) (d : Disp) (pr : Prog) : State :=
  let s1 := s.passCore p d.ctx
  let w := s1.work p
  let a := deckGranules pr.deckBytes
  let lo := 16384 * (s1.pick (w.deckStarts (s1.blockGranules d.cid.ptn) a)).getD 0
  let slots := w.freeSlots.take pr.gpb
  let b := (Tab.lowestFree w.blocks 16).getD 0
  let w1 := w.takeDeck d.ctx lo a
  let gs := ((List.range pr.gpb).zip slots).foldl (fun t e => Tab.set t e.2 (freshGroup b e.1 pr.entry)) w1.groups
  let w2 := { w1 with groups := gs, blocks := Tab.set w1.blocks b ⟨d.cid, d.next, lo, a, slots⟩ }
  ((s1.setWork p w2).setDisp { d with next := d.next + 1 }).drawn

/-- The lowest core of the partition that can take the next block of a dispatch (R214). -/
def State.coreFor (s : State) (d : Disp) (pr : Prog) : Option Nat :=
  (s.coresOf d.cid.ptn).find? (fun p => s.coreTakes p d pr)

/-- BLOCK_PLACE: the next block of partition n goes to the lowest core that can take it; while it fits nowhere nothing is
placed (R214). -/
def State.blockPlace (s : State) (n : Nat) : State :=
  if (s.ptn n).halted then s
  else match s.nextDisp n with
    | none => s
    | some d => match Tab.get? (s.ptn n).progs d.prog with
      | none => s
      | some pr => match s.coreFor d pr with
        | none => s
        | some p => s.placeOn p d pr

/-! ### The end of a block (R223) -/

/-- Whether anything that a block's groups issued is still to complete. -/
def Work.blockBusy (w : Work) (b : Nat) : Bool :=
  w.arrays.any (fun a => a.2.open_.any (fun m => m.block == b)) ||
  w.engine.queue.any (fun v => v.block == b) ||
  w.engine.ruq.any (fun r => match r with
    | .red _ _ x _ _ _ => x == b
    | .get _ _ x _ _ => x == b) ||
  w.chans.any (fun c => c.2.queue.any (fun q => q.block == b) || c.2.runs.any (fun r => r.entry.block == b)) ||
  w.farAll.any (fun r => r.block == b)

/-- Frees a block slot: its groups, deck granules and the vector engine it holds (R244). -/
def Work.freeBlock (w : Work) (b : Nat) : Work :=
  { w with
    blocks := Tab.erase w.blocks b
    groups := w.groups.filter (fun e => e.2.block != b)
    engine := { w.engine with
      holder := if w.engine.holder = .block b then .nobody else w.engine.holder
      waiters := w.engine.waiters.filter (· != b) } }

/-- BLOCK_END: a block whose groups have all ended and whose work has completed ends (R223). -/
def State.blockEnd (s : State) (p b : Nat) : State :=
  let w := s.work p
  match Tab.get? w.blocks b with
  | none => s
  | some k =>
    if w.groups.any (fun e => e.2.block == b) || w.blockBusy b then s
    else match s.disp? k.cid with
      | none => s
      | some d => (s.setWork p (w.freeBlock b)).setDisp { d with ended := d.ended + 1 }

/-! ### Stash reservations (R158, R160) -/

/-- Draws k of the listed numbers, in the order the Peray chooses (R158). -/
def State.pickMany : Nat → State → List Nat → State × List Nat
  | 0, s, _ => (s, [])
  | k + 1, s, l => match s.pick l with
    | none => (s, [])
    | some x =>
      let r := State.pickMany k s.drawn (l.filter (· != x))
      (r.1, x :: r.2)

/-- The free granules of a partition's region. -/
def State.freeGranules (s : State) (n : Nat) : List Nat :=
  (List.range (s.stashSize n)).filter (fun g => (s.ptn n).resv.all (fun r => !r.granules.contains g))

/-- Granules a stash peak needs (R157). -/
def stashNeed (peak : Nat) : Nat := ceilDiv (peak * 4096) 2097152

/-- Gives a dispatch its reservation if enough granules are free, their segments unwritten (R158, R160); it starts
then. -/
def State.reserve (s : State) (d : Disp) (need : Nat) : State :=
  let n := d.cid.ptn
  let free := s.freeGranules n
  if free.length < need then s
  else
    let r := State.pickMany need s free
    let x := r.1.ptn n
    let y := { x with
      resv := x.resv ++ [⟨d.cid, r.2⟩]
      waitResv := x.waitResv.filter (· != d.cid)
      written := x.written.filter (fun seg => !r.2.contains (seg / 32)) }
    let s1 := ((r.1.setPtn n y).setDisp { d with granules := r.2, granted := true }).tick
    match s1.cmd? d.cid with
    | none => s1
    | some k => s1.setCmd n { k with startSeq := s1.dealer.seq }

/-- Whether a command counts as started: it runs, a dispatch with its stash reservation, or has ended (R351, R377). -/
def Ptn.started (x : Ptn) (n : Nat) (k : Cmd) : Bool :=
  (k.stage == .running && !x.waitResv.contains ⟨n, k.queue, k.entry⟩) || k.stage == .ended

/-- Whether queue q may start one more command: fewer than 64 started ones still owe their record and none is held (R360). -/
def Ptn.roomToStart (x : Ptn) (n q : Nat) : Bool :=
  (x.cmds.filter (fun c => c.queue == q && x.started n c)).length < 64 && (Tab.get? x.queues q).any (fun y => y.held.isEmpty)

/-- STASH_RESERVATION_GRANT (R158, R360). -/
def State.grant (s : State) (n q e : Nat) : State :=
  let c : Cid := ⟨n, q, e⟩
  if !(s.ptn n).waitResv.contains c || (s.ptn n).halted || !(s.ptn n).roomToStart n q then s
  else match s.disp? c, s.progOf c with
    | some d, some pr => if d.status != 0 then s else s.reserve d (stashNeed pr.stashPeak)
    | _, _ => s

/-! ### Pre-emption (R352, R143, R248, R306, R166) -/

/-- Whether a core's engines all stand at a tile boundary: no pass taken, nothing in the vector engine's queue or the
reduction unit's, no copy and no far request in progress. -/
def Work.atBoundary (w : Work) : Bool :=
  w.arrays.all (fun a => a.2.taken.isEmpty) && w.engine.queue.isEmpty && w.engine.ruq.isEmpty &&
  w.chans.all (fun c => c.2.runs.isEmpty) && w.farAll.isEmpty

/-- The part of a core's work that belongs to blocks and to a command that satisfy a test. The accumulators, the engine's
registers and the deck are copied whole. -/
def Work.part (w : Work) (keep : Nat → Bool) (keepCmd : Cid → Bool) : Work :=
  let m (l : List MxEntry) : List MxEntry := l.filter (fun e => keep e.block)
  { w with
    groups := w.groups.filter (fun e => keep e.2.block)
    blocks := w.blocks.filter (fun e => keep e.1)
    arrays := Tab.mapVals (fun a => { a with fwd := m a.fwd, bwd := m a.bwd, accq := m a.accq }) w.arrays
    engine := { w.engine with
      holder := (match w.engine.holder with
        | .block b => if keep b then .block b else .nobody
        | .command c => if keepCmd c then .command c else .nobody
        | .nobody => .nobody)
      waiters := w.engine.waiters.filter keep }
    chans := Tab.mapVals (fun c => { c with queue := c.queue.filter (fun q => keep q.block) }) w.chans }

/-- Whether a block of a core belongs to a trump command. Log entry 106 (DEDUCED). -/
def State.trumpBlock (s : State) (w : Work) (b : Nat) : Bool := s.classOf (w.cidOf b) == 0

/-- Saves the normal and background work of core p (R352): dirty head segments are written out first, and those of the
saved commands leave the head (R166). -/
def State.saveCore (s : State) (n p : Nat) : State :=
  let w0 := s.work p
  let trump (c : Cid) : Bool := s.classOf c == 0
  let held := match w0.engine.holder with
    | .command c => !trump c
    | _ => false
  if !held && w0.blocks.all (fun e => s.trumpBlock w0 e.1) then s
  else
    let s1 := s.headOut p n
    let w := s1.work p
    let gone := (w.blocks.filter (fun e => !s.trumpBlock w e.1)).map (·.2.cid)
    let mine (h : HeadSeg) : Bool := (s.ptn n).resv.any (fun r => gone.contains r.cid && r.granules.contains (h.seg / 32))
    let kept := { w.part (fun b => s.trumpBlock w b) trump with head := w.head.filter (fun h => !mine h) }
    let x := s1.ptn n
    (s1.setPtn n { x with saved := x.saved ++ [⟨p, { w.part (fun b => !s.trumpBlock w b) (fun c => !trump c) with head := [] }⟩] }).setWork p kept

/-- Whether a trump queue's dispatch or update cannot start for lack of cores (R352): a dispatch whose next block fits nowhere,
or an UPDATE at step 3 of R176 whose slot has drained and whose cores hold other work (R186, R216, R243). -/
def State.starved (s : State) (c : Cid) (k : Cmd) : Bool :=
  match s.disp? c with
  | some d => d.granted && d.next < d.blocks && d.status == 0 &&
      ((Tab.get? (s.ptn c.ptn).progs d.prog).any (fun pr => (s.coreFor d pr).isNone))
  | none => k.stage == .running && (s.ptn c.ptn).updates.any (fun u => u.cid == c && u.stage == .draining &&
      (Tab.get? (s.ptn c.ptn).objs u.obj).any (fun o => (o.slot ((u.gen + 1) % max 1 o.slots.length)).readers == 0) &&
      ((s.coresOf c.ptn).take (u.last - u.first)).any (fun p => !(s.work p).belongs u.ctx || (s.work p).engine.holder != .nobody))

/-- PREEMPT: a starved trump command pre-empts the partition's normal and background work, once every engine stands at a
tile boundary (R352). Log entry 106 (DEDUCED). -/
def State.preempt (s : State) (n q e : Nat) : State :=
  let c : Cid := ⟨n, q, e⟩
  let cores := s.coresOf n
  match s.cmd? c with
  | none => s
  | some k =>
    if s.classOf c != 0 || !s.starved c k || !(s.ptn n).saved.isEmpty || (s.ptn n).halted ||
        !cores.all (fun p => (s.work p).atBoundary) then s
    else cores.foldl (fun t p => t.saveCore n p) s

/-- Deck bytes of saved blocks laid over the present deck. -/
def restoreDeck (now saved : Memory) (bs : Table Block) : Memory :=
  bs.foldl (fun m e =>
    let lo := e.2.deckLo
    let hi := lo + 16384 * e.2.granules
    (saved.filter (fun c => lo ≤ c.1 && c.1 < hi)).foldl (fun t c => Mem.write t c.1 c.2) (Mem.clear m lo hi)) now

/-- Restores the saved work of a core (R216, R143, R248): everything but the generators, and the streaks, which belong to the
arrays (R150). -/
def State.restoreCore (s : State) (v : Saved) : State :=
  match v.work.ctx with
  | [] => s
  | c :: _ =>
    let s1 := s.passCore v.core c
    let w := s1.work v.core
    let owner := v.work.blocks.foldl (fun t e =>
      (List.range e.2.granules).foldl (fun u i => Tab.set u (e.2.deckLo / 16384 + i) c) t) w.granuleOwner
    s1.setWork v.core { v.work with
      arrays := (List.range 4).map (fun i => (i, { v.work.array i with streak := (w.array i).streak }))
      deck := restoreDeck w.deck v.work.deck v.work.blocks
      granuleOwner := owner
      head := w.head }

/-- Reads the save area of a partition (R353): one uncorrectable unit there resets the partition (R478). -/
def State.readSave (s : State) (n : Nat) : State × Bool :=
  match (s.ptn n).save.flatMap (fun f => s.lostIn n (f * frameBytes) frameBytes) with
  | [] => (s, false)
  | pl :: _ => ((s.readUnit pl [] (chanUnit (chanOf pl)) false).1, true)

/-- PREEMPTED_WORK_RESUME: pre-empted work is restored once no trump command of the partition runs or waits only for
resources, and its cores hold no work (R352); what the save area has lost resets the partition (R478).
Log entry 106 (DEDUCED). -/
def State.resume (s : State) (n : Nat) : State :=
  let x := s.ptn n
  let busy := x.cmds.any (fun k => s.classOf ⟨n, k.queue, k.entry⟩ == 0 && (k.stage == .ready || k.stage == .running))
  if busy || x.halted || x.saved.any (fun v => !(s.work v.core).blocks.isEmpty || (s.work v.core).engine.holder != .nobody) then s
  else if x.saved.isEmpty then s
  else
    let r := s.readSave n
    if r.2 then r.1 else x.saved.foldl (fun t v => t.restoreCore v) (s.setPtn n { x with saved := [] })

/-! ### The rows -/

/-- BLOCK_PLACE (R214). -/
def execBlockPlace (n : Nat) (s : State) : Out := onWf (.blockPlace n) (s.blockPlace n)

/-- BLOCK_END (R223). -/
def execBlockEnd (p b : Nat) (s : State) : Out := onWf (.blockEnd p b) (s.blockEnd p b)

/-- STASH_RESERVATION_GRANT (R158). -/
def execStashReservationGrant (n q e : Nat) (s : State) : Out := onWf (.stashReservationGrant n q e) (s.grant n q e)

/-- PREEMPT (R352). -/
def execPreempt (n q e : Nat) (s : State) : Out := onWf (.preempt n q e) (s.preempt n q e)

/-- PREEMPTED_WORK_RESUME (R352). -/
def execPreemptedWorkResume (n : Nat) (s : State) : Out := onWf (.preemptedWorkResume n) (s.resume n)

end Sys2Proof.Machine
end

