-- ==== Sys2Proof/Machine/Queue.lean ====
section
/-! DEFINITION. Handles (R331 to R333), submission entries, doorbells and completion records (R356 to R361), reading an
entry (R343, R347, R348) and the header check (R376). -/

namespace Sys2Proof.Machine

/-! ### Handles (R331 to R333) -/

/-- KIND of a handle. -/
def hKind (h : Nat) : Nat := bits h 31 28
/-- GEN. -/
def hGen (h : Nat) : Nat := bits h 27 20
/-- INDEX. -/
def hIndex (h : Nat) : Nat := bits h 19 0

/-- Whether a thing with that destroy order still exists for an entry read at seq (R364). -/
def aliveAt (dying seq : Nat) : Bool := dying == 0 || seq < dying

/-- The queue q of partition n. -/
def State.queue? (s : State) (n q : Nat) : Option Queue := Tab.get? (s.ptn n).queues q
/-- Replaces queue q of partition n. -/
def State.setQueue (s : State) (n q : Nat) (x : Queue) : State :=
  let p := s.ptn n
  s.setPtn n { p with queues := Tab.set p.queues q x }

/-- The memory object a handle of any KIND names in partition n. -/
def State.obj? (s : State) (n h : Nat) : Option MemObj := Tab.get? (s.ptn n).objs (hIndex h)

/-- Whether a handle is valid in partition n for an entry read at seq (R333, R364, R170).
Log entry 51 (DEDUCED). Log entry 57 (DEDUCED). -/
def State.validHandle (s : State) (n seq h : Nat) : Bool :=
  let x := s.ptn n
  let i := hIndex h
  let obj (ok : MemObj → Bool) : Bool :=
    Tab.get x.oGens i 0 == hGen h && (Tab.get? x.objs i).any (fun o => aliveAt o.dying seq && ok o)
  let k := hKind h
  if k = 1 then (Tab.get? s.ctxs i).any (fun c => c.gen == hGen h && c.ptn == n && aliveAt c.torn seq)
  else if k = 2 then Tab.get x.qGens i 0 == hGen h && (Tab.get? x.queues i).any (fun y => aliveAt y.dying seq)
  else if k = 3 then obj (fun _ => true)
  else if k = 4 then Tab.get x.pGens i 0 == hGen h && (Tab.get? x.progs i).any (fun y => aliveAt y.dying seq)
  else if k = 5 then Tab.get x.fGens i 0 == hGen h && (Tab.get? x.fences i).any (fun y => aliveAt y.dying seq)
  else if 6 ≤ k && k ≤ 9 then obj (fun o => o.isWeight && k - 6 < o.slots.length)
  else false

/-- Whether a handle is of a fence, a drain fence included. -/
def fenceKind (h : Nat) : Bool := 5 ≤ hKind h && hKind h ≤ 9

/-- Signalled and error of the fence a valid handle names (R342, R170). -/
def State.fenceState (s : State) (n h : Nat) : Bool × Bool :=
  if hKind h = 5 then
    match Tab.get? (s.ptn n).fences (hIndex h) with
    | some f => (f.signalled, f.error)
    | none => (true, true)
  else match s.obj? n h with
    | some o => ((o.slot (hKind h - 6)).readers == 0, false)
    | none => (true, true)

/-- The context of the fence a handle names. -/
def State.fenceCtx (s : State) (n h : Nat) : Option CtxId :=
  if hKind h = 5 then (Tab.get? (s.ptn n).fences (hIndex h)).map (·.ctx) else (s.obj? n h).map (·.ctx)

/-- The job of a context, 0 where it is not open. -/
def State.jobOf (s : State) (c : CtxId) : Nat := ((s.ctx? c).map (·.job)).getD 0

/-- Whether a command of a context may wait on fences of another (R346). -/
def State.mayWait (s : State) (own other : CtxId) : Bool :=
  own == other || (s.jobOf own != 0 && s.jobOf own == s.jobOf other)

/-! ### The submission entry (R356) -/

/-- OPCODE. -/
def eOpcode (raw : List Byte) : Nat := leAt raw 0 1
/-- The header's first word. -/
def eFlags (raw : List Byte) : Nat := leAt raw 0 4
/-- NOTIFY. -/
def eNotify (raw : List Byte) : Bool := bit (eFlags raw) 8
/-- W0_ERR_OK or W1_ERR_OK. -/
def eErrOk (raw : List Byte) (i : Nat) : Bool := bit (eFlags raw) (9 + i)
/-- W0_REMOTE or W1_REMOTE. -/
def eRemote (raw : List Byte) (i : Nat) : Bool := bit (eFlags raw) (11 + i)
/-- TAG. -/
def eTag (raw : List Byte) : Nat := leAt raw 4 4
/-- WAIT0 or WAIT1. -/
def eWait (raw : List Byte) (i : Nat) : Nat := leAt raw (8 + 4 * i) 4
/-- SIGNAL. -/
def eSignal (raw : List Byte) : Nat := leAt raw 16 4
/-- W0_PKG or W1_PKG. -/
def ePkg (raw : List Byte) (i : Nat) : Nat := bits (leAt raw 20 4) (16 * i + 11) (16 * i)
/-- W0_PTN or W1_PTN. -/
def ePtn (raw : List Byte) (i : Nat) : Nat := bits (leAt raw 20 4) (16 * i + 15) (16 * i + 12)
/-- The number in n bytes of the body at an offset. -/
def eBody (raw : List Byte) (off n : Nat) : Nat := leAt raw (24 + off) n

/-- Whether the bytes of the body from an offset on are all zero, as reserved fields must be (R18). -/
def bodyClear (raw : List Byte) (off : Nat) : Bool := (raw.drop (24 + off)).all (· == 0)

/-! ### Completion records (R356, R359, R360) -/

/-- The 32 bytes of a completion record. -/
def Completion.bytes (r : Completion) (n q phase : Nat) : List Byte :=
  natLe 4 (r.status + 2 ^ 16 * q + 2 ^ 22 * n + 2 ^ 31 * phase) ++ natLe 4 r.tag.toNat ++ natLe 8 r.seq ++
  natLe 4 r.sqHead.toNat ++ natLe 4 r.detail.toNat ++ natLe 8 r.info.toNat

/-- PHASE of record number c (R359). -/
def recordPhase (c log2 : Nat) : Nat := (c / 2 ^ log2 + 1) % 2

/-- Whether the completion ring has room for the next record (R360). -/
def Queue.hasRoom (x : Queue) : Bool := x.cqHead + BitVec.ofNat 32 (2 ^ x.cqLog2) - x.records != 0

/-- Writes the next completion record, raising the queue's interrupt where the entry asked for it. -/
def State.postOne (s : State) (n q : Nat) (r : Completion) : State :=
  match s.queue? n q with
  | none => s
  | some x =>
    let c := x.records.toNat
    let s1 := s.hostWrite (x.cqBase + 32 * (c % 2 ^ x.cqLog2)) (r.bytes n q (recordPhase c x.cqLog2))
    let s2 := s1.setQueue n q { x with records := x.records + 1 }
    if r.notify then s2.irq x.vector else s2

/-- Writes held records while there is room. -/
def State.postHeld (s : State) (n q : Nat) : List Completion → State
  | [] => match s.queue? n q with
    | none => s
    | some x => s.setQueue n q { x with held := [] }
  | r :: rs => match s.queue? n q with
    | none => s
    | some x =>
      if x.hasRoom then (s.postOne n q r).postHeld n q rs else s.setQueue n q { x with held := r :: rs }

/-- A completion: written, held while the ring is full, or discarded when its queue is being revoked (R360, R366). -/
def State.complete (s : State) (n q : Nat) (r : Completion) : State :=
  match s.queue? n q with
  | none => s
  | some x =>
    if x.held.isEmpty && x.hasRoom then s.postOne n q r
    else if x.revoked then s.countPtn n 3 1
    else (s.setQueue n q { x with held := x.held ++ [r] }).countPtn n 2 1

/-- Once its commands have retired and its records are written, a queue that is being destroyed is freed (R365, R333), and
the admin queue stops draining, its doorbell line no longer registered (R560). -/
def State.reapQueue (s : State) (n q : Nat) : State :=
  let p := s.ptn n
  match Tab.get? p.queues q with
  | none => s
  | some x =>
    if !(x.held.isEmpty && p.cmds.all (fun k => k.queue != q)) then s
    else if x.dying != 0 then
      s.setPtn n { p with
        queues := Tab.erase p.queues q
        qGens := Tab.set p.qGens q ((Tab.get p.qGens q 0 + 1) % 256) }
    else if q = 0 && p.draining then
      (s.setPtn n { p with draining := false, queues := Tab.set p.queues 0 { x with registered := false } }).setField
        (Reg.adminqCtl n) 23 23 0
    else s

/-! ### Doorbells (R358) -/

/-- The queue manager reads a registered doorbell line: consumed records make room for held ones; a tail beyond the ring
stops the queue (R358). -/
def State.ringQueue (s : State) (n q : Nat) : State :=
  match s.queue? n q with
  | none => s
  | some x =>
    let l := s.hostRead x.doorbell 8
    let tail : Word := BitVec.ofNat 32 (leAt l 0 4)
    let bad := decide (2 ^ x.sqLog2 < (tail - x.sqHead).toNat)
    let y := { x with cqHead := BitVec.ofNat 32 (leAt l 4 4), seen := BitVec.ofNat 64 (leAt l 0 8) }
    let s1 := s.setQueue n q (if bad then { y with stopped := true } else { y with sqTail := tail })
    let s2 := if bad then s1.raise .doorbellInvalid (mkHandle 2 (Tab.get (s.ptn n).qGens q 0) q) n else s1
    let s3 := if bad && q == 0 then s2.setField (Reg.adminqCtl n) 22 22 1 else s2
    (s3.postHeld n q x.held).reapQueue n q

/-- The queues whose registered doorbell line a write of host software touches, as partition and queue. -/
def State.touched (s : State) (w : HostWrite) : List (Nat × Nat) :=
  s.ptns.flatMap (fun p => (p.2.queues.filter (fun e =>
    e.2.registered && e.2.doorbell < w.addr + w.bytes.length && w.addr < e.2.doorbell + 64)).map (fun e => (p.1, e.1)))

/-- Host software writes host memory; the coherence agent forwards what touches a doorbell line (R358).
Its other accesses are left out: log entry 126 (DESIGN CHOICE). Log entry 9 (DESIGN CHOICE). -/
def State.hostSoftware (s : State) (ws : List HostWrite) : State :=
  let s1 := ws.foldl (fun t w => t.hostWrite w.addr w.bytes) s
  ((ws.flatMap s1.touched).eraseDups).foldl (fun t e => t.ringQueue e.1 e.2) s1

/-- DOORBELL_WRITE: the words of the line, after what host software wrote before them (R326, R358). -/
def State.doorbell (s : State) (wr : List HostWrite) (line : Nat) (sqTail cqHead : Word) : State :=
  s.hostSoftware (wr ++ [⟨64 * line, natLe 4 sqTail.toNat ++ natLe 4 cqHead.toNat⟩])

/-- DOORBELL_WRITE (R358). -/
def execDoorbellWrite (wr : List HostWrite) (line : Nat) (sqTail cqHead : Word) (s : State) : Out :=
  onWf (.doorbellWrite wr line sqTail cqHead) (s.doorbell wr line sqTail cqHead)

/-! ### Reading an entry (R343, R347, R348, R375 step 1) -/

/-- The handle of a name in Cmd.names. -/
def nameOf (n h : Nat) : Nat := n * 2 ^ 32 + h

/-- TAG of the fence notice that registers a wait: low byte 192 + queue, then which wait, then the entry (log entry 13). -/
def waitTag (q e which : Nat) : Nat := 192 + q + 2 ^ 8 * which + 2 ^ 9 * (e % 64)

/-- Registers wait i of a command read from work queue q, if it is on another package (R347, R426). One of a context without a job
is outside R346, and the header check refuses it. -/
def State.registerWait (s : State) (n : Nat) (x : Queue) (k : Cmd) (i : Nat) : State :=
  let h := eWait k.raw i
  let pkg := ePkg k.raw i
  if k.queue = 0 || h = 0 || !eRemote k.raw i || pkg = s.pkgNo || s.jobOf x.ctx = 0 then s
  else
    let peer := (s.ctx? x.ctx).bind (fun c => Tab.get? c.peers pkg)
    if !s.namesPkg pkg || peer.isNone then
      let p := s.ptn n
      s.setPtn n { p with cmds := p.cmds.map (fun c =>
        if c.queue = k.queue ∧ c.entry = k.entry then { c with status := St.unreachable } else c) }
    else
      let tag := waitTag k.queue k.entry i
      let pay := natLe 4 h ++ natLe 4 0 ++ natLe 4 tag ++ natLe 4 0
      let pk := s.packetTo x.ctx pkg 7 tag 0 0 16 ((s.diesOf n).headD 0) pay
      let p := s.ptn n
      let w : RemoteWait := ⟨⟨n, k.queue, k.entry⟩, i, pkg, ePtn k.raw i, BitVec.ofNat 32 h, tag, false, false, false, false⟩
      (s.setPtn n { p with remoteWaits := p.remoteWaits ++ [w] }).sendPacket (pktSeal { pk with destPtn := ePtn k.raw i }) 3

/-- Whether queue q may read its next entry (R355, R358, R366, R487): in solo mode only queues of the solo context do;
the admin queue goes on (log entry 14). -/
def State.mayRead (s : State) (n q : Nat) (x : Queue) : Bool :=
  let solo := s.reg (Reg.fltSolo n)
  x.registered && !x.stopped && !x.revoked && x.dying == 0 && x.sqHead != x.sqTail && !(s.ptn n).halted &&
  !(q == 0 && (s.ptn n).draining) && (q == 0 || fld solo 12 12 == 0 || x.ctx.id == fld solo 11 0)

/-- The fence whose PENDING an entry counts in: a valid fence of KIND 5 of the queue's context (R343). -/
def State.signalOf (s : State) (n q : Nat) (x : Queue) (seq : Nat) (raw : List Byte) : List Nat :=
  let h := eSignal raw
  if q != 0 && hKind h == 5 && s.validHandle n seq h && s.fenceCtx n h == some x.ctx then [hIndex h] else []

/-- Whether one more fence may take a hardware fence slot (R348). Log entry 66 (DEDUCED). -/
def State.slotFree (s : State) (n i : Nat) : Bool :=
  let l := (s.ptn n).fences.filter (fun f => f.2.pending != 0)
  l.length < 64 || l.any (fun f => f.1 == i)

/-- Where the package itself wrote a registered doorbell line since it was last read, the queue manager reads it (R358). The model
does so at the queue's next ENTRY_READ (log entry 131). -/
def State.lineMoved (s : State) (n q : Nat) : State :=
  match s.queue? n q with
  | none => s
  | some x => if x.registered && x.seen.toNat != leAt (s.hostRead x.doorbell 8) 0 8 then s.ringQueue n q else s

/-- ENTRY_READ (R375 step 1): an unsignalled count of PENDING is one more, in its 16 bits (R342, log entry 130).
Log entry 63 (DEDUCED). -/
def State.entryRead (s0 : State) (n q : Nat) : State :=
  let s := s0.lineMoved n q
  match s.queue? n q with
  | none => s
  | some x =>
    if !s.mayRead n q x then s
    else
      let e := x.sqHead.toNat
      let raw := s.hostRead (x.sqBase + 64 * (e % 2 ^ x.sqLog2)) 64
      let seq := s.dealer.seq + 1
      let sig := s.signalOf n q x seq raw
      if !sig.all (fun i => s.slotFree n i) then
        if x.slotWait then s else (s.setQueue n q { x with slotWait := true }).countPtn n 1 1
      else
        let own := ([eWait raw 0, eWait raw 1, eSignal raw].zipIdx.filter (fun w =>
          s.validHandle (if w.2 < 2 && eRemote raw w.2 then ePtn raw w.2 else n) seq w.1)).map (fun w =>
            nameOf (if w.2 < 2 && eRemote raw w.2 then ePtn raw w.2 else n) w.1)
        let k : Cmd := ⟨q, e, seq, raw, .read, 0, 0, 0, [], [], [], 0, sig, own⟩
        let s1 := s.tick
        let p := s1.ptn n
        let s2 := s1.setPtn n { p with
          cmds := p.cmds ++ [k]
          queues := Tab.set p.queues q { x with sqHead := x.sqHead + 1, slotWait := false } }
        let s3 := sig.foldl (fun t i => match Tab.get? (t.ptn n).fences i with
          | none => t
          | some f => t.setFence n i { f with pending := (f.pending + 1) % 65536, signalled := false }) s2
        (s3.registerWait n x k 0).registerWait n x k 1

/-- ENTRY_READ (R375). -/
def execEntryRead (n q : Nat) (s : State) : Out := onWf (.entryRead n q) (s.entryRead n q)

/-! ### Start order (R351, R360, R394) -/

/-- The commands of a queue read before one of it. -/
def Ptn.earlier (x : Ptn) (k : Cmd) : List Cmd := x.cmds.filter (fun c => c.queue == k.queue && c.seq < k.seq)

/-- Whether a command's turn to start has come within its queue: every earlier command has started, none of them is a
BARRIER still to complete, and at most 63 started ones still owe their record, none held (R351, R394, R360). -/
def Ptn.turnOf (x : Ptn) (n : Nat) (k : Cmd) : Bool :=
  (x.earlier k).all (fun c => x.started n c && !(c.queue != 0 && eOpcode c.raw == 9)) && x.roomToStart n k.queue

/-! ### The header check (R376) -/

/-- The status of the header check: 0 where every test passes. Log entry 52 (DEDUCED). -/
def State.headerStatus (s : State) (n : Nat) (x : Queue) (k : Cmd) : Nat :=
  let raw := k.raw
  let two := [0, 1]
  let h := eSignal raw
  let here (i : Nat) : Bool := eRemote raw i && ePkg raw i == s.pkgNo
  let far (i : Nat) : Bool := eRemote raw i && ePkg raw i != s.pkgNo
  let outside (m i : Nat) : Bool :=
    let w := eWait raw i
    !fenceKind w || !((s.fenceCtx m w).any (fun c => s.mayWait x.ctx c))
  if bits (eFlags raw) 31 13 != 0 || two.any (fun i => !eRemote raw i && (ePkg raw i != 0 || ePtn raw i != 0)) then St.malformed
  else if k.queue = 0 && !(0xE0 ≤ eOpcode raw && eOpcode raw ≤ 0xEB) then St.illegalInstruction
  else if k.queue != 0 && !(1 ≤ eOpcode raw && eOpcode raw ≤ 0x0B) then St.malformed
  else if two.any (fun i => eWait raw i != 0 && !eRemote raw i && !s.validHandle n k.seq (eWait raw i)) ||
      (h != 0 && !s.validHandle n k.seq h) then St.handleInvalid
  else if (two.any (fun i => eWait raw i != 0 && (k.queue == 0 ||
        (!eRemote raw i && outside n i) || (far i && s.jobOf x.ctx == 0) ||
        (here i && (!s.validHandle (ePtn raw i) k.seq (eWait raw i) || outside (ePtn raw i) i))))) ||
      (h != 0 && (k.queue == 0 || !fenceKind h || s.fenceCtx n h != some x.ctx)) then St.fenceInvalid
  else if h != 0 && hKind h != 5 then St.illegalState
  else St.ok

/-- Ends a command with a status before it has run (R377). -/
def State.failCmd (s : State) (n : Nat) (k : Cmd) (status : Nat) : State :=
  s.setCmd n { k with stage := .ended, status := status }

/-- HEADER_CHECK (R375 step 2). -/
def State.headerCheck (s : State) (n q e : Nat) : State :=
  match s.cmd? ⟨n, q, e⟩, s.queue? n q with
  | some k, some x =>
    if k.stage != .read || !(s.ptn n).turnOf n k || (s.ptn n).halted then s
    else
      let st := s.headerStatus n x k
      if st = 0 then s.setCmd n { k with stage := .waiting } else s.failCmd n k st
  | _, _ => s

/-- HEADER_CHECK (R376). -/
def execHeaderCheck (n q e : Nat) (s : State) : Out := onWf (.headerCheck n q e) (s.headerCheck n q e)

/-! ### Waiting (R345) -/

/-- Wait i of a command: whether it is over, and the error flag found there. -/
def State.waitOver (s : State) (n : Nat) (k : Cmd) (i : Nat) : Bool × Bool :=
  let h := eWait k.raw i
  if h = 0 then (true, false)
  else if !eRemote k.raw i then s.fenceState n h
  else if ePkg k.raw i = s.pkgNo then s.fenceState (ePtn k.raw i) h
  else match (s.ptn n).remoteWaits.find? (fun w => w.cid == ⟨n, k.queue, k.entry⟩ && w.which == i) with
    | some w => (w.signalled, w.error)
    | none => (false, false)

/-- Whether a wait of a command was refused by the owning Dealer (R376). -/
def State.waitRefused (s : State) (n : Nat) (k : Cmd) : Bool :=
  (s.ptn n).remoteWaits.any (fun w => w.cid == ⟨n, k.queue, k.entry⟩ && w.invalid)

/-- What the waits of a command come to: none while it waits, else its status so far (R345, R376, R426). -/
def State.waitStatus (s : State) (n : Nat) (k : Cmd) : Option Nat :=
  if k.status != 0 then some k.status
  else if s.waitRefused n k then some St.fenceInvalid
  else if !((s.waitOver n k 0).1 && (s.waitOver n k 1).1) then none
  else if [0, 1].any (fun i => (s.waitOver n k i).2 && !eErrOk k.raw i) then some St.fenceError
  else some 0

end Sys2Proof.Machine
end

