-- ==== Sys2Proof/Machine/Commands.lean ====
section
/-! DEFINITION. The body check (R375 step 4) and the commands PROG_LOAD, DISPATCH, COPY, FILL, ACCUMULATE, BARRIER, MAP and
UNMAP (R372 to R397). -/

namespace Sys2Proof.Machine

/-! ### Reading memory for a command (R374) -/

/-- The accesses of a command that is no dispatch (R390). -/
def whoOf (n : Nat) (c : CtxId) : Who := ⟨n, c, [], [], false⟩

/-- The pieces of [va, va + len) within one 64 KiB page each: first address and length. -/
def pieces (va len : Nat) : List (Nat × Nat) :=
  (List.range ((va + len - 1) / 65536 - va / 65536 + 1)).map (fun i =>
    let lo := max va ((va / 65536 + i) * 65536)
    (lo, min (va + len) ((va / 65536 + i + 1) * 65536) - lo))

/-- Bytes read for a command, or the status that refuses the read. -/
structure Fetched where
  s      : State
  status : Nat
  bytes  : List Byte
deriving DecidableEq, Repr

/-- Reads memory of the issuing context through its translation and check words (R374, R307, R442). -/
def State.readVa (s : State) (n : Nat) (c : CtxId) (va len : Nat) : Fetched :=
  if len = 0 then ⟨s, 0, []⟩
  else if va / 2 ^ 52 ≠ s.pkgNo ∨ (va + len - 1) / 2 ^ 52 ≠ s.pkgNo then ⟨s, St.malformed, []⟩
  else
    (pieces va len).foldl (fun (x : Fetched) e =>
      if x.status != 0 then x
      else match x.s.translate (whoOf n c) e.1 ⟨true, false⟩ with
        | .no st => ⟨x.s, st, []⟩
        | .ok pl =>
          let r := x.s.eccRead pl e.2 [c] (unitCode 11 ((x.s.diesOf n).headD 0) 0)
          if r.2 then ⟨r.1, St.uncorrectable, []⟩ else ⟨r.1, 0, x.bytes ++ r.1.bytesAt pl e.2⟩) ⟨s, 0, []⟩

/-- A structure of fixed alignment that a body names: a misaligned address is a reserved encoding (R373, R374).
Log entry 54 (DEDUCED). -/
def State.readStruct (s : State) (n : Nat) (c : CtxId) (va len align : Nat) : Fetched :=
  if va % align != 0 then ⟨s, St.malformed, []⟩ else s.readVa n c va len

/-- Reads a second structure after the first. -/
def Fetched.next (f : Fetched) (n : Nat) (c : CtxId) (va len align : Nat) : Fetched :=
  if f.status != 0 then f
  else
    let g := f.s.readStruct n c va len align
    ⟨g.s, g.status, f.bytes ++ g.bytes⟩

/-- Refuses with a status where a test fails. -/
def Fetched.check (f : Fetched) (bad : Bool) (status : Nat) : Fetched :=
  if f.status = 0 && bad then { f with status := status } else f

/-! ### Pages and places of a partition -/

/-- The byte ranges of a partition's compute memory that hold no free page: objects, programs, the stash region, the fix
area, the save area, translation tables and the fence table (R154, R337, R348, R353, R450, R488). Log entry 42 (DEDUCED). -/
def State.usedRanges (s : State) (n : Nat) : List (Nat × Nat) :=
  let x := s.ptn n
  let f := s.reg (Reg.fixArea n)
  (x.objs.flatMap (fun e => if e.2.host then [] else e.2.bases.map (fun b => (4096 * b, 4096 * b + e.2.pageBytes)))) ++
  (x.progs.flatMap (fun e => e.2.frames.map (fun b => (4096 * b, 4096 * b + 65536)))) ++
  [((s.stashBase n) * frameBytes, (s.stashBase n + s.stashSize n) * frameBytes),
   (fld f 35 16 * frameBytes, (fld f 35 16 + fld f 55 36) * frameBytes)] ++
  x.save.map (fun i => (i * frameBytes, (i + 1) * frameBytes)) ++ s.tableRanges n

/-- The host memory ranges that host-memory objects of any partition hold (R563). -/
def State.hostUsed (s : State) : List (Nat × Nat) :=
  s.ptns.flatMap (fun p => p.2.objs.flatMap (fun e =>
    if e.2.host then e.2.bases.map (fun b => (4096 * b, 4096 * b + e.2.pageBytes)) else []))

/-- Whether [a, a + size) meets none of the ranges. -/
def isFree (used : List (Nat × Nat)) (a size : Nat) : Bool := used.all (fun r => a + size ≤ r.1 || r.2 ≤ a || r.1 == r.2)

/-- Chooses count free pages of a size below a limit, from a first address on, that pass a test; the choice is the Peray's
(R333, R563). The answer is in 4 KiB units. -/
def State.pickPages (s : State) (size lo hi : Nat) (ok : Nat → Bool) : Nat → List (Nat × Nat) → Option (State × List Nat)
  | 0, _ => some (s, [])
  | k + 1, used =>
    let total := (hi - lo) / size
    match nextFree total (fun i => isFree used (lo + i * size) size && ok (lo + i * size)) total
        (Config.choice (s.fresh + k) % max 1 total) with
    | none => none
    | some i =>
      let a := lo + i * size
      (s.pickPages size lo hi ok k ((a, a + size) :: used)).map (fun r => (r.1, a / 4096 :: r.2))

/-- Marks k draws as made. -/
def State.drewMany (s : State) (k : Nat) : State := { s with fresh := s.fresh + k }

/-- Chooses pages of a partition's compute memory, on no channel that is being retired (R450 step 1). -/
def State.computePages (s : State) (n size count : Nat) : Option (State × List Nat) :=
  let x := s.ptn n
  let going (c : Nat) : Bool := s.migr.any (fun m => m.chan == c)
  let ok (a : Nat) : Bool := (x.frame? (a / frameBytes)).any (fun cf => !going cf.1)
  (s.pickPages size 0 (x.frameCount * frameBytes) ok count (s.usedRanges n)).map
    (fun r => (r.1.drewMany count, r.2))

/-- Places for translation tables of a size, named by level and address bits (R337): free compute memory, or none where it runs
short, for which the spec gives no status. Log entry 109 (DESIGN CHOICE). -/
def State.placeTables (s : State) (n size : Nat) (keys : List (Nat × Nat)) : List (Nat × Nat × Nat) :=
  match s.computePages n size keys.length with
  | none => []
  | some r => (keys.zip r.2).map (fun e => (e.1.1, e.1.2, e.2))

/-- The tables of levels 2 to 4 that a context's mappings need and that it does not have (R337). -/
def Ctx.tablesNeeded (c : Ctx) : List (Nat × Nat) :=
  ((c.l3.flatMap (fun (e : Nat × DWord) => [(2, e.1 / 2 ^ 18), (3, e.1 / 2 ^ 9)]) ++
    c.l4.flatMap (fun (e : Nat × DWord) => [(2, e.1 / 2 ^ 23), (3, e.1 / 2 ^ 14), (4, e.1 / 2 ^ 5)])).eraseDups).filter (fun k =>
      !c.tabs.any (fun t => t.1 == k.1 && t.2.1 == k.2))

/-- Chooses pages of the host pool (R563, R564). -/
def State.hostPages (s : State) (size count : Nat) : Option (State × List Nat) :=
  let p := s.reg Reg.hostPool
  let lo := fld p 19 0 * frameBytes
  (s.pickPages size lo (lo + fld p 39 20 * frameBytes) (fun _ => true) count s.hostUsed).map
    (fun r => (r.1.drewMany count, r.2))

/-! ### Memory objects named by addresses -/

/-- The object that a context's mapping of an address of this package names (R337). -/
def State.vaObj (s : State) (c : CtxId) (a : Nat) : Option Nat :=
  if a / 2 ^ 52 ≠ s.pkgNo then none
  else (s.ctx? c).bind (fun x => (x.entry (a % 2 ^ 52)).bind (fun e => if pteValid e.1 then some (pteObj e.1) else none))

/-- The objects that a far view's in-bounds positions touch. -/
def State.viewObjs (s : State) (c : CtxId) (t : Tensor) : List Nat :=
  if t.space = 0 then (((t.addrs.map (fun a => a / 65536 * 65536)).eraseDups).filterMap (s.vaObj c)).eraseDups else []

/-- A destination in a weight object with readers or a running update (R379). -/
def State.weightBusy (s : State) (n : Nat) (c : CtxId) (t : Tensor) : Bool :=
  (s.viewObjs c t).any (fun i => (Tab.get? (s.ptn n).objs i).any (fun o =>
    o.isWeight && (o.updating || o.slots.any (fun k => k.readers != 0))))

/-! ### Descriptors of commands (R296, R387 to R389) -/

/-- What R387 refuses in a command's descriptor: SPACE DECK or STASH, or CONSUME. -/
def commandSpaceBad (t : Tensor) : Bool := t.space == 1 || t.space == 3 || t.consume

/-- HOLD_RANGE of R296 for a command of a context. -/
def State.holdBad (s : State) (n : Nat) (c : CtxId) (t : Tensor) : Bool :=
  t.space == 2 && t.anyLive && (!t.inside 0 (s.scratchSize n) || !s.ownsHold n c)

/-- The rows of R296 on a destination alone: zero strides and overlap. -/
def destBad (t : Tensor) : Bool :=
  (t.dims.any (fun d => 1 < d.live.2 && d.stride == 0) && !t.acc) || (!t.noOverlap && !t.aliasOk && !t.acc)

/-- Whether two descriptors are identical in the sense of R389. -/
def identical (a b : Tensor) : Bool :=
  a.space == b.space && a.base == b.base && a.scaleBase == b.scaleBase && a.fmt == b.fmt && a.shape == b.shape &&
  a.ndim == b.ndim && a.ax0 == b.ax0 && a.ax1 == b.ax1 && a.dims == b.dims

/-- Whether the envelopes of two views share a byte. -/
def viewsMeet (a b : Tensor) : Bool := a.space == b.space && a.ranges.any (fun x => b.ranges.any (rangesMeet x))

/-- Whether two views of a space touch the same bytes (R389). -/
def touch (a b : Tensor) : Bool := let as := a.addrs; b.addrs.any (fun x => as.contains x)

/-- DESCRIPTOR_INVALID of an ACCUMULATE (R296, R387, R389): the destination and the sources in order. -/
def accumulateBad (dst : List Byte) (srcs : List (List Byte)) : Bool :=
  let d := tensorOf dst
  tensorReserved dst || tensorMisaligned d || commandSpaceBad d || d.acc || destBad d ||
  srcs.zipIdx.any (fun e =>
    let t := tensorOf e.1
    tensorReserved e.1 || tensorMisaligned t || commandSpaceBad t || t.acc ||
    t.ndim != d.ndim || t.dims.map (·.extent) != d.dims.map (·.extent) ||
    (viewsMeet d t && (e.2 != 0 || (!identical d t && touch d t))))

/-! ### The body check by opcode -/

/-- The load record's first words (R380). -/
def recordBad (r : List Byte) (imageBytes : Nat) : Bool :=
  let w := leAt r 0 4
  let code := leAt r 12 4
  let args := leAt r 24 8
  bits w 7 0 != 1 || bits w 15 8 == 0 || bits w 31 21 != 0 || 4194304 < leAt r 4 4 || code % 8 != 0 || code < 8 ||
  imageBytes - 64 < code || leAt r 16 4 % 8 != 0 || code ≤ leAt r 16 4 || leAt r 20 4 != 0 || args % 65536 != 0 ||
  args / 2 ^ 52 != 0 || (r.drop 32).any (· != 0)

/-- The checks of a PROG_LOAD (R380, R381 steps 1 to 3). -/
def State.checkLoad (s : State) (n : Nat) (c : CtxId) (raw : List Byte) : Fetched :=
  let len := eBody raw 8 4
  let f := (Fetched.check ⟨s, 0, []⟩ (!bodyClear raw 12 || len < 72 || 2 ^ 31 < len) St.malformed).next n c (eBody raw 0 8) 64 64
  let r := f.bytes
  let b := occupancy (s.blockGranules n) (leAt r 1 1) (bits (leAt r 0 4) 20 16 + 1) (leAt r 4 4)
  ((f.check (recordBad r len) St.programInvalid).check (s.stashSize n < stashNeed (leAt r 8 4)) St.stashTooLarge).check
    (b == 0) St.blockTooLarge

/-- Generation binding b of a dispatch descriptor (R171, R382). -/
def bindWord (d : List Byte) (b : Nat) : Nat := leAt d (0x40 + 8 * b) 8

/-- Reserved encodings of a dispatch descriptor (R382, R171). -/
def dispatchReserved (d : List Byte) : Bool :=
  let w := leAt d 4 4
  bits w 23 0 == 0 || 8 < bits w 27 24 || bits w 31 28 != 0 || ((d.drop 12).take 52).any (· != 0) ||
  (List.range 8).any (fun b => if b < bits w 27 24 then bits (bindWord d b) 63 46 != 0 else bindWord d b != 0)

/-- The checks of a DISPATCH (R382 to R384). -/
def State.checkDispatch (s : State) (n : Nat) (c : CtxId) (k : Cmd) : Fetched :=
  let f := (Fetched.check ⟨s, 0, []⟩ (!bodyClear k.raw 8) St.malformed).next n c (eBody k.raw 0 8) 128 128
  let d := f.bytes
  let ph := leAt d 0 4
  let ah := leAt d 8 4
  let nb := bits (leAt d 4 4) 27 24
  let f1 := f.check (dispatchReserved d) St.malformed
  let binds := (List.range nb).map (fun b => bindWord d b % 2 ^ 32)
  let badH (kind h : Nat) : Bool := hKind h != kind || !s.validHandle n k.seq h
  let f2 := f1.check (badH 4 ph || (ah != 0 && !s.validHandle n k.seq ah) || binds.any (badH 3)) St.handleInvalid
  match Tab.get? (s.ptn n).progs (hIndex ph) with
  | none => f2
  | some p =>
    let a := s.obj? n ah
    ((f2.check ((p.argsVa != 0) != (ah != 0) || (ah != 0 && (hKind ah != 3 || a.any (fun o => o.isWeight || o.big)))) St.malformed).check
      (occupancy (s.blockGranules n) p.nreg p.gpb p.deckBytes == 0) St.blockTooLarge)

/-- The checks of a COPY (R386, R387, R296, R379). -/
def State.checkCopy (s : State) (n : Nat) (c : CtxId) (raw : List Byte) : Fetched :=
  let w := eBody raw 16 4
  let f := ((Fetched.check ⟨s, 0, []⟩ (bits w 31 19 != 0 || !bodyClear raw 20) St.malformed).next n c (eBody raw 0 8) 128 128).next
    n c (eBody raw 8 8) 128 128
  let sb := f.bytes.take 128
  let db := f.bytes.drop 128
  let a := tensorOf sb
  let b := tensorOf db
  ((f.check (commandSpaceBad a || commandSpaceBad b || pairInvalid sb db (bits w 17 0) (bit w 18)) St.descriptorInvalid).check
    (s.holdBad n c a || s.holdBad n c b) St.holdRange).check (s.weightBusy n c b) St.illegalState

/-- The checks of a FILL (R388, R387). -/
def State.checkFill (s : State) (n : Nat) (c : CtxId) (raw : List Byte) : Fetched :=
  let f := (Fetched.check ⟨s, 0, []⟩ (!bodyClear raw 8) St.malformed).next n c (eBody raw 0 8) 128 128
  let t := tensorOf f.bytes
  ((f.check (tensorReserved f.bytes || tensorMisaligned t || commandSpaceBad t || t.acc) St.descriptorInvalid).check
    (s.holdBad n c t) St.holdRange).check (s.weightBusy n c t) St.illegalState

/-- Sources i of an ACCUMULATE's stored structures: the destination comes first. -/
def accSource (args : List Byte) (i : Nat) : List Byte := (args.drop (128 * (i + 1))).take 128

/-- The checks of an ACCUMULATE (R389, R387, R379). -/
def State.checkAccumulate (s : State) (n : Nat) (c : CtxId) (raw : List Byte) : Fetched :=
  let w := eBody raw 16 4
  let count := bits w 4 0
  let f := (Fetched.check ⟨s, 0, []⟩ (count == 0 || 16 < count || bits w 7 5 != 0 || bit w 8 || bit w 15 || bits w 31 16 != 0 ||
    !bodyClear raw 20) St.malformed).next n c (eBody raw 0 8) 128 128
  let l := f.next n c (eBody raw 8 8) (8 * count) 8
  let addrs := (List.range count).map (fun i => leAt l.bytes (128 + 8 * i) 8)
  let g := addrs.foldl (fun x a => x.next n c a 128 128) { l with bytes := l.bytes.take 128 }
  let d := tensorOf (g.bytes.take 128)
  let srcs := (List.range count).map (accSource g.bytes)
  ((g.check (accumulateBad (g.bytes.take 128) srcs) St.descriptorInvalid).check
    (s.holdBad n c d || srcs.any (fun b => s.holdBad n c (tensorOf b))) St.holdRange).check (s.weightBusy n c d) St.illegalState

/-- The checks of a MAP (R395, R379): encodings, the handle, the state, the address, the range. -/
def State.checkMap (s : State) (n : Nat) (k : Cmd) : Fetched :=
  let raw := k.raw
  let va := eBody raw 0 8
  let h := eBody raw 8 4
  let fl := eBody raw 20 4
  let f : Fetched := ⟨s, 0, []⟩
  let f1 := ((f.check (bits fl 31 2 != 0 || !bodyClear raw 24 || va / 2 ^ 52 != 0 || eBody raw 16 4 == 0) St.malformed).check
    (!(hKind h == 3 || hKind h == 4) || !s.validHandle n k.seq h) St.handleInvalid).check (hKind h == 4) St.illegalState
  match s.obj? n h with
  | none => f1
  | some o => (f1.check (va % o.pageBytes != 0) St.alignment).check
      (o.pages < eBody raw 12 4 + eBody raw 16 4 || 2 ^ 52 < va + eBody raw 16 4 * o.pageBytes) St.descriptorInvalid

/-- The checks of an UNMAP: its reserved fields (R396). -/
def State.checkUnmap (s : State) (raw : List Byte) : Fetched := Fetched.check ⟨s, 0, []⟩ (!bodyClear raw 12) St.malformed

/-! ### Starting a command (R351) -/

/-- Whether core p can take the units of a command of a context (R216, R243): it holds no other context's work and nobody
holds its vector engine; whole says that its arrays are needed too. -/
def State.engineFree (s : State) (p : Nat) (c : CtxId) (whole : Bool) : Bool :=
  let w := s.work p
  (s.core p).running && w.belongs c && w.engine.holder == .nobody && w.engine.queue.isEmpty &&
  w.engine.ruq.isEmpty && (!whole || w.arrays.all (fun a => a.2.open_.isEmpty))

/-- The cores that the units of a command are dealt to, in order (R186, R205). -/
def State.dealt (s : State) (n units : Nat) : List Nat := (s.coresOf n).take units

/-- Whether the cores of a command with so many units are free for it; while work is pre-empted, for trump commands only
(R352). -/
def State.coresFree (s : State) (n q : Nat) (c : CtxId) (units : Nat) (whole : Bool) : Bool :=
  (s.dealt n units).all (fun p => s.engineFree p c whole) && ((s.ptn n).saved.isEmpty || s.classOf ⟨n, q, 0⟩ == 0)

/-- NBLK of a PRECOND_ROOT (R392). -/
def rootBlocks (raw : List Byte) : Nat := bits (eBody raw 20 4) 19 0

/-- Whether what a command needs in order to start is there: a BARRIER's earlier commands have retired (R394), the previous
UPDATE of an UPDATE's object is over (R176), a PRECOND_ROOT's cores are free (R205). The arguments of an UPDATE begin with
its object's index. -/
def State.resourcesFree (s : State) (n : Nat) (k : Cmd) : Bool :=
  let op := eOpcode k.raw
  let x := s.ptn n
  if k.queue = 0 then true
  else if op = 9 then (x.earlier k).isEmpty
  else if op = 6 then (Tab.get? x.objs (leAt k.args 0 8)).all (fun o => !o.updating)
  else if op = 7 then (Tab.get? x.queues k.queue).any (fun q => s.coresFree n k.queue q.ctx (rootBlocks k.raw) true)
  else true

/-- Whether a ready command can start now: its turn within its queue, and its resources. -/
def State.canStart (s : State) (n : Nat) (k : Cmd) : Bool := k.stage == .ready && (s.ptn n).turnOf n k && s.resourcesFree n k

/-- The class of a queue. -/
def Ptn.cls (x : Ptn) (q : Nat) : Nat := ((Tab.get? x.queues q).map (·.cls)).getD 1

/-- How far a queue is behind the one of its class that started a command last, in ascending queue number (R351). -/
def Ptn.turnDist (x : Ptn) (q : Nat) : Nat := (q + 64 - (Tab.get x.lastTurn (x.cls q) 63 + 1)) % 64

/-- Whether a command starts next: no queue of a higher class, or nearer in turn within its class, has a command that can
start (R351). -/
def State.startsNext (s : State) (n : Nat) (k : Cmd) : Bool :=
  let x := s.ptn n
  s.canStart n k && x.cmds.all (fun o => !s.canStart n o || (x.cls k.queue < x.cls o.queue) ||
    (x.cls k.queue == x.cls o.queue && x.turnDist k.queue ≤ x.turnDist o.queue))

/-- The command and its queue, if it starts now under an opcode. Log entry 2 (DESIGN CHOICE). -/
def State.starting (s : State) (n q e op : Nat) : Option (Cmd × Queue) :=
  match s.cmd? ⟨n, q, e⟩, s.queue? n q with
  | some k, some x =>
    if eOpcode k.raw == op && s.startsNext n k && !(s.ptn n).halted then some (k, x) else none
  | _, _ => none

/-- Marks a command as started (R351): its turn is used. -/
def State.began (s : State) (n : Nat) (k : Cmd) : State :=
  let s1 := s.tick
  let x := s1.ptn n
  (s1.setPtn n { x with lastTurn := Tab.set x.lastTurn (x.cls k.queue) k.queue }).setCmd n
    { k with stage := .running, startSeq := s1.dealer.seq }

/-- Ends a running command with its results (R378, R398): it is retired by COMMAND_RETIRE. -/
def State.endCmd (s : State) (c : Cid) (status detail info : Nat) : State :=
  match s.cmd? c with
  | none => s
  | some k => s.setCmd c.ptn { k with
      stage := .ended, status := status, detail := BitVec.ofNat 32 detail, info := BitVec.ofNat 64 info }

/-! ### PROG_LOAD (R380, R381) -/

/-- Copies the image into a new program object, index and pages of the Peray's choice. -/
def State.progLoadRun (s : State) (c : Cid) (ctx : CtxId) (k : Cmd) : State :=
  let n := c.ptn
  let len := eBody k.raw 8 4
  let f := s.readVa n ctx (eBody k.raw 0 8) len
  if f.status != 0 then f.s.endCmd c f.status 0 0
  else
    let x := f.s.ptn n
    match f.s.computePages n 65536 (ceilDiv len 65536) with
    | none => f.s.endCmd c St.outOfMemory 0 0
    | some (s1, pages) => match s1.pickIndex x.progs 1048576 (fun _ => true) with
      | none => s1.endCmd c St.outOfMemory 0 0
      | some i =>
        let r := k.args
        let pr : Prog := ⟨ctx, f.bytes, leAt r 1 1, bits (leAt r 0 4) 20 16 + 1, leAt r 4 4, leAt r 8 4, leAt r 12 4,
          leAt r 16 4, leAt r 24 8, pages, 0⟩
        let s2 := (s1.setPtn n { x with progs := Tab.set x.progs i pr }).drawn
        s2.endCmd c 0 (occupancy (s2.blockGranules n) pr.nreg pr.gpb pr.deckBytes) (mkHandle 4 (Tab.get x.pGens i 0) i)

/-- PROG_LOAD: copying the image. -/
def State.progLoad (s : State) (n q e : Nat) : State :=
  match s.starting n q e 1 with
  | none => s
  | some (k, x) => (s.began n k).progLoadRun ⟨n, q, e⟩ x.ctx k

/-- PROG_LOAD (R381). -/
def execProgLoad (n q e : Nat) (s : State) : Out := onWf (.progLoad n q e) (s.progLoad n q e)

/-! ### DISPATCH (R172, R173, R383) -/

/-- Adds one reader to the slot of an object's generation, none where its count is at 65,535 (R172, R173). -/
def State.addReader (s : State) (n i gen : Nat) : Option State :=
  match Tab.get? (s.ptn n).objs i with
  | none => none
  | some o =>
    let k := gen % max 1 o.slots.length
    let sl := o.slot k
    if sl.readers = 65535 then none else some (s.setObj n i (o.setSlot k { sl with readers := sl.readers + 1 }))

/-- Takes one reader away; the slot's drain fence is signalled when none is left (R170, R347). -/
def State.dropReader (s : State) (n i gen : Nat) : State :=
  match Tab.get? (s.ptn n).objs i with
  | none => s
  | some o =>
    let k := gen % max 1 o.slots.length
    let sl := o.slot k
    let s1 := s.setObj n i (o.setSlot k { sl with readers := sl.readers - 1 })
    if 1 < sl.readers then s1
    else
      let x := s1.ptn n
      let mine (d : DrainWait) : Bool := d.obj == i && d.slot == k
      (s1.setPtn n { x with drains := x.drains.filter (fun d => !mine d) }).notify n
        (mkHandle (6 + k) (Tab.get x.oGens i 0) i) o.ctx false ((x.drains.filter mine).map (·.waiter))

/-- Changes a context's pin table. -/
def State.setPins (s : State) (c : CtxId) (f : Table Pin → Table Pin) : State :=
  match Tab.get? s.ctxs c.id with
  | none => s
  | some x => s.setCtx c.id { x with pins := f x.pins }

/-- One generation binding (R171, R172): none where it fails. A handle of a plain object names no weight object and fails. -/
def State.bindOne (s : State) (n : Nat) (c : CtxId) (owner : Word) (w : Nat) : Option (State × Bound) :=
  let h := bits w 31 0
  let pin := bits w 43 32
  let act := bits w 45 44
  let held := ((s.ctx? c).bind (fun x => Tab.get? x.pins pin))
  match s.obj? n h with
  | none => none
  | some o =>
    if !o.isWeight then none
    else if act = 1 ∨ act = 3 then
      (match held with
      | some _ => none
      | none => (s.addReader n (hIndex h) o.gen).map (fun t =>
          (t.setPins c (fun p => Tab.set p pin ⟨hIndex h, o.gen, owner⟩), ⟨hIndex h, o.gen, act == 3, [pin]⟩)))
    else
      (match held with
      | none => none
      | some p => if p.obj = hIndex h then some (s, ⟨hIndex h, p.gen, act == 2, [pin]⟩) else none)

/-- The weight objects mapped in a context, in ascending index (R173). -/
def State.mappedWeights (s : State) (n : Nat) (c : CtxId) : List Nat :=
  match s.ctx? c with
  | none => []
  | some x =>
    sortNat (((x.l3 ++ x.l4).filterMap (fun e => if pteValid e.2 then some (pteObj e.2) else none)).filter (fun i =>
      (Tab.get? (s.ptn n).objs i).any (·.isWeight)))

/-- All bindings of a dispatch, then the implicit pins (R172, R173): none where one fails. Log entry 53 (DEDUCED). -/
def State.bindAll (s : State) (n : Nat) (c : CtxId) (owner : Word) (ws : List Nat) : Option (State × List Bound) :=
  let named := ws.foldl (fun (r : Option (State × List Bound)) w => r.bind (fun y =>
    (y.1.bindOne n c owner w).map (fun z => (z.1, y.2 ++ [z.2])))) (some (s, []))
  named.bind (fun y =>
    ((y.1.mappedWeights n c).filter (fun i => y.2.all (fun b => b.obj != i))).foldl
      (fun (r : Option (State × List Bound)) i => r.bind (fun z =>
        let gen := ((Tab.get? (z.1.ptn n).objs i).map (·.gen)).getD 0
        (z.1.addReader n i gen).map (fun t => (t, z.2 ++ [⟨i, gen, true, []⟩])))) (some y))

/-- Starts a dispatch (R383): bindings, then its stash reservation at once or when granules are free (R158).
Log entry 53 (DEDUCED). -/
def State.dispatchRun (s : State) (c : Cid) (x : Queue) (k : Cmd) : State :=
  let n := c.ptn
  let d := k.args
  let binds := (List.range (bits (leAt d 4 4) 27 24)).map (bindWord d)
  let ph := hIndex (leAt d 0 4)
  match s.bindAll n x.ctx x.owner binds with
  | none => s.endCmd c St.illegalState 0 0
  | some (s1, bs) =>
    let pr := Tab.get? (s1.ptn n).progs ph
    let peak := (pr.map (·.stashPeak)).getD 0
    let win := if leAt d 8 4 = 0 then [] else [(pr.map (·.argsVa)).getD 0, hIndex (leAt d 8 4)]
    let disp : Disp := ⟨c, x.ctx, ph, bits (leAt d 4 4) 23 0, 0, 0, bs, win, [], peak == 0, 0, 0⟩
    let p := s1.ptn n
    let s2 := s1.setPtn n { p with disps := p.disps ++ [disp] }
    if peak = 0 then s2
    else (s2.setPtn n { s2.ptn n with waitResv := (s2.ptn n).waitResv ++ [c] }).reserve disp (stashNeed peak)

/-- DISPATCH: processing the bindings and starting. -/
def State.dispatchStart (s : State) (n q e : Nat) : State :=
  match s.starting n q e 2 with
  | none => s
  | some (k, x) => (s.began n k).dispatchRun ⟨n, q, e⟩ x k

/-- DISPATCH (R383). -/
def execDispatch (n q e : Nat) (s : State) : Out := onWf (.dispatch n q e) (s.dispatchStart n q e)

/-! ### COPY, FILL and ACCUMULATE (R386 to R390) -/

/-- The views a command reads, the view it writes, and whether it needs the destination's old bytes. -/
structure Job where
  srcs : List Tensor
  dst  : Tensor
  old  : Bool
deriving DecidableEq, Repr

/-- The job of a COPY, FILL or ACCUMULATE. -/
def moveJob (k : Cmd) : Job :=
  let op := eOpcode k.raw
  let first := tensorOf (k.args.take 128)
  if op = 3 then let d := tensorOf (k.args.drop 128); ⟨[first], d, d.acc || d.fmt == 4⟩
  else if op = 4 then ⟨[], first, first.fmt == 4⟩
  else
    let w := eBody k.raw 16 4
    ⟨(List.range (bits w 4 0)).map (fun i => tensorOf (accSource k.args i)), first, first.fmt == 4 || bit w 14⟩

/-- The key of a byte of a space among a command's fetched bytes. -/
def spaceKey (space a : Nat) : Nat := space * 2 ^ 64 + a

/-- The fetched bytes of one space. -/
def spaceBytes (got : Table Byte) (space : Nat) : Bytes :=
  (got.filter (fun e => e.1 / 2 ^ 64 == space)).map (fun e => (e.1 % 2 ^ 64, e.2))

/-- Whether a view covers a destination block entirely (R388). -/
def Tensor.coversBlock (t : Tensor) (i : List Int) : Bool :=
  (List.range t.ndim).all (fun d =>
    if t.blockAxis d then
      let x := (i[d]?).getD 0
      let lo := x / 32 * 32
      let l := (t.dim d).live
      decide (l.1 ≤ lo ∧ min (lo + 32) ((t.dim d).bound : Int) ≤ l.1 + l.2)
    else true)

/-- The bytes a FILL writes (R388). -/
def fillBytes (t : Tensor) (old : Bytes) : Bytes :=
  let ps := (t.positions.filter t.inBounds).map t.index
  let data := ps.foldl (fun x i => t.put old x i (plusZero t.fmt t.fillBits)) []
  if isL t.fmt then
    ps.foldl (fun x i => if t.coversBlock i then Tab.set x (t.scaleAddr i).toNat (BitVec.ofNat 8 t.fillScale) else x) data
  else data

/-- The sum at one position of an ACCUMULATE, binary32 bits (R180). -/
def accSum (srcs : List (Tensor × Bytes)) (v : List Nat) : Nat :=
  let at_ (e : Tensor × Bytes) : Nat := f32.near (e.1.value e.2 v)
  match srcs with
  | [] => 0
  | e :: rest => rest.foldl (fun acc x => f32.add acc (at_ x)) (at_ e)

/-- The bytes an ACCUMULATE writes, with saturations and NaN inputs counted (R180, R389, R89 to R91). Log entry 64 (DEDUCED). -/
def accBytes (srcs : List (Tensor × Bytes)) (dst : Tensor) (ctl : Nat) (old : Bytes) : Written × Nat :=
  let ps := dst.positions.filter dst.inBounds
  let sums := ps.map (fun v => (dst.index v, f32.decode (accSum srcs v)))
  if isL dst.fmt then
    let f := lfmt dst.fmt
    let keys := (sums.map (fun e => (dst.scaleAddr e.1).toNat)).eraseDups
    keys.foldl (fun (x : Written × Nat) key =>
      let mine := sums.filter (fun e => (dst.scaleAddr e.1).toNat == key)
      let e := if ctlSupplied ctl then scaleInt (Tab.get old key 0).toNat else chooseScale (mine.map (·.2))
      let y := mine.foldl (fun (y : Written × Nat) q =>
        let r := f.encode e .nearest q.2
        (⟨dst.put old y.1.bytes q.1 r.bits, y.1.sats + b2n r.sat⟩, y.2 + b2n r.nan)) x
      if ctlSupplied ctl then y else (⟨Tab.set y.1.bytes key (BitVec.ofNat 8 (scaleByte e)), y.1.sats⟩, y.2)) (⟨[], 0⟩, 0)
  else
    (⟨sums.foldl (fun m e => dst.put old m e.1 ((linFmt dst.fmt).encode .nearest (ctlSatf ctl) e.2)) [], 0⟩, 0)

/-- What a command's reads found: the state, the bytes, and whether one was uncorrectable. -/
structure Gathered where
  s   : State
  got : Table Byte
  bad : Bool
deriving DecidableEq, Repr

/-- Reads listed bytes of a view that lie in this package (R304, R442, R477), by runs within 256-byte blocks. -/
def State.gather (s : State) (c : Cid) (ctx : CtxId) (p : Nat) (got : Table Byte) (space : Nat) (as : List Nat) : Gathered :=
  let n := c.ptn
  let unit := unitCode 11 ((s.diesOf n).headD 0) 0
  let add (g : Table Byte) (sp a : Nat) (bs : List Byte) : Table Byte :=
    bs.zipIdx.foldl (fun u e => Tab.set u (spaceKey sp (a + e.2)) e.1) g
  if space = 2 then
    let r := ((as.map (· / 8)).eraseDups).foldl (fun (x : State × Bool) w =>
      let h := s.holdAt n (8 * w)
      let y := x.1.holdCheck h.1 h.2 1 [ctx] unit
      (y.1, x.2 || y.2)) (s, false)
    ⟨r.1, as.foldl (fun g a => let h := s.holdAt n a; add g 2 a [Mem.read (Tab.get s.hold h.1 []) h.2]) got, r.2⟩
  else
    let runs := (readRuns (s.placeOf (whoOf n ctx)) false as).filter (fun u => !u.place.isRemote)
    runs.foldl (fun (x : Gathered) u =>
      let r := (x.s.activity (p / 48) [ctx] 500).eccRead u.place u.len [ctx] unit
      ⟨r.1, add x.got 0 u.addr (r.1.bytesAt u.place u.len), x.bad || r.2⟩) ⟨s, got, false⟩

/-- The far requests of a command to other packages: its core, and one request per run of bytes (R308). -/
def State.remoteReqs (s : State) (c : Cid) (ctx : CtxId) (runs : List Run) : List FarReq :=
  (runs.filter (fun u => u.place.isRemote)).map (fun u =>
    ⟨s.dealer.seq, 64, 64, ctx, u.addr, u.place, .cmd c u [], 0, 0, []⟩)

/-- Sends far requests of a command from a core. -/
def State.sendReqs (s : State) (p : Nat) (rs : List FarReq) : State :=
  let w := s.work p
  (s.setWork p { w with farWait := w.farWait ++ rs }).pumpAll p

/-- The running move of a command. -/
def State.move? (s : State) (c : Cid) : Option Move := (s.ptn c.ptn).moves.find? (fun m => m.cid == c)

/-- Replaces the running move of its command. -/
def State.setMove (s : State) (m : Move) : State :=
  let x := s.ptn m.cid.ptn
  s.setPtn m.cid.ptn { x with moves := x.moves.map (fun y => if y.cid = m.cid then m else y) }

/-- Drops the move of a command with its requests that have not been sent. -/
def State.dropMove (s : State) (c : Cid) : State :=
  let x := s.ptn c.ptn
  let mine (r : FarReq) : Bool := match r.act with
    | .cmd d _ _ => d == c
    | _ => false
  let s1 := s.setPtn c.ptn { x with moves := x.moves.filter (fun m => m.cid != c) }
  { s1 with cores := Tab.mapVals (fun k => k.setWork { k.work with farWait := k.work.farWait.filter (fun r => !mine r) }) s1.cores }

/-- Whether requests of a command's move are waiting or unanswered. -/
def State.moveBusy (s : State) (m : Move) : Bool :=
  (s.work m.core).farAll.any (fun r => match r.act with
    | .cmd d _ _ => d == m.cid
    | _ => false)

/-- Registers the object slots whose every byte a FILL or COPY has written (R339). -/
def State.noteWhole (s : State) (c : Cid) (ctx : CtxId) (space : Nat) (m : Bytes) : State :=
  if space != 0 then s
  else
    let pls := (m.filterMap (fun e => s.placeOf (whoOf c.ptn ctx) e.1)).eraseDups
    match s.cmd? c with
    | none => s
    | some k =>
      let full := k.writes.filter (fun w => (Tab.get? (s.ptn c.ptn).objs w.1).any (fun o =>
        (pls.filter (fun pl => s.objOf c.ptn pl == some w)).length == o.bytes))
      s.setCmd c.ptn { k with whole := full }

/-- Writes the result of a command whose reads are all in (R387 to R390). -/
def State.moveWrite (s : State) (c : Cid) (ctx : CtxId) (k : Cmd) (m : Move) : State :=
  let n := c.ptn
  let j := moveJob k
  let op := eOpcode k.raw
  let w := eBody k.raw 16 4
  let of (t : Tensor) : Bytes := spaceBytes m.got t.space
  let old := of j.dst
  let r : Written × Nat :=
    if op = 3 then
      match j.srcs with
      | [] => (⟨[], 0⟩, 0)
      | a :: _ => (s.copyResult a j.dst (bits w 17 0) (bit w 18) (of a) old, 0)
    else if op = 4 then (⟨fillBytes j.dst old, 0⟩, 0)
    else accBytes (j.srcs.map (fun t => (t, of t))) j.dst (bits w 15 8) old
  let bs := r.1.bytes
  let s1 := ((s.count m.core 59 r.1.sats).count m.core 60 r.2).drawn
  let s2 := s1.setMove { m with writing := true, bytes := bs.length }
  let s3 := if op = 5 then s2 else s2.noteWhole c ctx j.dst.space bs
  if j.dst.space = 2 then
    bs.foldl (fun t e => let h := t.holdAt n e.1; t.holdPut h.1 h.2 [e.2]) s3
  else
    let runs := writeRuns (s3.placeOf (whoOf n ctx)) bs
    let s4 := (runs.filter (fun u => !u.place.isRemote)).foldl
      (fun t u => (t.activity (m.core / 48) [ctx] 500).store u.place u.bytes) s3
    s4.sendReqs m.core (s4.remoteReqs c ctx runs)

/-- Goes on with a command's move once its reads are answered. Log entry 114 (DESIGN CHOICE). -/
def State.moveStep (s : State) (c : Cid) : State :=
  match s.move? c, s.cmd? c, s.queue? c.ptn c.queue with
  | some m, some k, some x =>
    if m.writing || s.moveBusy m || k.stage != .running || k.status != 0 then s else s.moveWrite c x.ctx k m
  | _, _, _ => s

/-- Registers the destination's objects as being written from the start (R339). -/
def State.noteView (s : State) (c : Cid) (ctx : CtxId) (t : Tensor) : State :=
  if t.space = 0 then (t.addrs.filterMap (s.placeOf (whoOf c.ptn ctx))).foldl (fun u pl => u.noteWrite c pl) s else s

/-- Runs a COPY, FILL or ACCUMULATE: the scratch must still be its context's (R281), translation of every position comes first
(R307), then local reads, then requests for what other packages hold. Log entry 114 (DESIGN CHOICE). -/
def State.moveRun (s : State) (c : Cid) (ctx : CtxId) (k : Cmd) : State :=
  let n := c.ptn
  let j := moveJob k
  let who := whoOf n ctx
  let s1 := s.noteView c ctx j.dst
  let far (t : Tensor) (a : Acc) : Option Nat := if t.space = 0 then s1.xlFails who a t.addrs else none
  let hold := if (j.dst :: j.srcs).any (s1.holdBad n ctx) then some St.holdRange else none
  match (hold.or (j.srcs.findSome? (fun t => far t ⟨true, false⟩))).or (far j.dst ⟨j.dst.acc, true⟩) with
  | some st => s1.endCmd c st 0 0
  | none =>
    let reads := j.srcs ++ (if j.old then [j.dst] else [])
    let core := ((s1.coresOf n).head?).getD 0
    let g := reads.foldl (fun (x : Gathered) t =>
      let y := x.s.gather c ctx core x.got t.space t.addrs
      { y with bad := x.bad || y.bad }) ⟨s1, [], false⟩
    if g.bad then g.s.endCmd c St.uncorrectable 0 0
    else
      let x := g.s.ptn n
      let s2 := g.s.setPtn n { x with moves := x.moves ++ [⟨c, core, g.got, false, 0⟩] }
      let runs := reads.flatMap (fun t => if t.space = 0 then readRuns (s2.placeOf who) false t.addrs else [])
      (s2.sendReqs core (s2.remoteReqs c ctx runs)).moveStep c

/-- COPY, FILL and ACCUMULATE start in the same way. -/
def State.moveStart (s : State) (n q e op : Nat) : State :=
  match s.starting n q e op with
  | none => s
  | some (k, x) => (s.began n k).moveRun ⟨n, q, e⟩ x.ctx { k with stage := .running }

/-- COPY (R386). -/
def execCopy (n q e : Nat) (s : State) : Out := onWf (.copy n q e) (s.moveStart n q e 3)

/-- FILL (R388). -/
def execFill (n q e : Nat) (s : State) : Out := onWf (.fill n q e) (s.moveStart n q e 4)

/-- ACCUMULATE (R389). -/
def execAccumulate (n q e : Nat) (s : State) : Out := onWf (.accumulate n q e) (s.moveStart n q e 5)

/-! ### BARRIER, MAP and UNMAP (R394 to R397) -/

/-- BARRIER completes as it starts. Log entry 2 (DESIGN CHOICE). -/
def State.barrier (s : State) (n q e : Nat) : State :=
  match s.starting n q e 9 with
  | none => s
  | some (k, _) => (s.began n k).endCmd ⟨n, q, e⟩ 0 0 0

/-- BARRIER (R394). -/
def execBarrier (n q e : Nat) (s : State) : Out := onWf (.barrier n q e) (s.barrier n q e)

/-- A translation entry (R337); MAP writes EXEC as 0. -/
def pteOf (rd wr host : Bool) (base obj : Nat) : DWord :=
  BitVec.ofNat 64 (1 + 2 + 4 * b2n rd + 8 * b2n wr + 32 * b2n host + 2 ^ 12 * base + 2 ^ 44 * obj)

/-- Whether any address of a 64 KiB or 2 MiB page is mapped. -/
def Ctx.mapped (c : Ctx) (va size : Nat) : Bool :=
  c.l3.any (fun e => e.1 == va / 2097152 && pteValid e.2) ||
  c.l4.any (fun e => va ≤ 65536 * e.1 && 65536 * e.1 < va + size && pteValid e.2)

/-- Maps pages of an object (R395): a conflict maps nothing. A weight object's entry names the page of slot 0; access goes to
the slot of R173. -/
def State.mapRun (s : State) (c : Cid) (x : Queue) (k : Cmd) : State :=
  let n := c.ptn
  let va := eBody k.raw 0 8
  let h := eBody k.raw 8 4
  let first := eBody k.raw 12 4
  let fl := eBody k.raw 20 4
  match s.obj? n h, Tab.get? s.ctxs x.ctx.id with
  | some o, some t =>
    let pages := List.range (eBody k.raw 16 4)
    if pages.any (fun i => t.mapped (va + i * o.pageBytes) o.pageBytes) then s.endCmd c St.mapConflict 0 0
    else
      let t1 := pages.foldl (fun (y : Ctx) i =>
        let a := va + i * o.pageBytes
        let e := pteOf (bit fl 0) (bit fl 1) o.host ((o.bases[first + i]?).getD 0) (hIndex h)
        { y with
          l3 := if o.big then Tab.set y.l3 (a / 2097152) e else y.l3
          l4 := if o.big then y.l4 else Tab.set y.l4 (a / 65536) e
          owners := Tab.set y.owners (a / 65536) x.owner }) t
      let need := t1.tablesNeeded
      ((s.setCtx x.ctx.id { t1 with tabs := t1.tabs ++ s.placeTables n 4096 need }).drewMany need.length).endCmd c 0 0 0
  | _, _ => s.endCmd c St.handleInvalid 0 0

/-- MAP: writing the entries. -/
def State.mapStart (s : State) (n q e : Nat) : State :=
  match s.starting n q e 10 with
  | none => s
  | some (k, x) => (s.began n k).mapRun ⟨n, q, e⟩ x k

/-- MAP (R395). -/
def execMap (n q e : Nat) (s : State) : Out := onWf (.map n q e) (s.mapStart n q e)

/-- Removes the mappings of [lo, hi) (R396): a mapped page that the range splits is a conflict. The command goes on running
until earlier commands of its context have retired. -/
def State.unmapRun (s : State) (c : Cid) (x : Queue) (k : Cmd) : State :=
  let lo := eBody k.raw 0 8
  let hi := lo + eBody k.raw 8 4 * 65536
  match Tab.get? s.ctxs x.ctx.id with
  | none => s.endCmd c 0 0 0
  | some t =>
    let splits (size : Nat) (e : Nat × DWord) : Bool :=
      let a := size * e.1
      pteValid e.2 && a < hi && lo < a + size && !(lo ≤ a && a + size ≤ hi)
    let split := t.l3.any (splits 2097152) || t.l4.any (splits 65536)
    if split then s.endCmd c St.mapConflict 0 0
    else
      s.setCtx x.ctx.id { t with
        l3 := t.l3.filter (fun e => !(lo ≤ 2097152 * e.1 && 2097152 * e.1 < hi))
        l4 := t.l4.filter (fun e => !(lo ≤ 65536 * e.1 && 65536 * e.1 < hi))
        owners := t.owners.filter (fun e => !(lo ≤ 65536 * e.1 && 65536 * e.1 < hi)) }

/-- UNMAP: removing the entries. -/
def State.unmapStart (s : State) (n q e : Nat) : State :=
  match s.starting n q e 11 with
  | none => s
  | some (k, x) => (s.began n k).unmapRun ⟨n, q, e⟩ x k

/-- UNMAP (R396). -/
def execUnmap (n q e : Nat) (s : State) : Out := onWf (.unmap n q e) (s.unmapStart n q e)

end Sys2Proof.Machine
end

