-- ==== Sys2Proof/Machine/Update.lean ====
section
/-! DEFINITION. The parameter update: UPDATE with its shards, recurrence, peers and publish (R176 to R201, R391), and
PRECOND_ROOT (R202 to R205, R392). -/

namespace Sys2Proof.Machine

/-! ### The update table and the shard map (R184, R188) -/

/-- Word at an offset of the update table. -/
def tbl (t : List Byte) (off : Nat) : Nat := leAt t off 4
/-- Bits [hi:lo] of the table's first word. -/
def tbf (t : List Byte) (hi lo : Nat) : Nat := bits (leAt t 0 4) hi lo
/-- NSLOT. -/
def tbSlots (t : List Byte) : Nat := tbf t 2 0
/-- VSLOT. -/
def tbV (t : List Byte) : Nat := tbf t 5 3
/-- Coefficient word j: offset 0 α, 4 β, 8 γ, 12 flags. -/
def tbCoef (t : List Byte) (j off : Nat) : Nat := leAt t (0x40 + 16 * j + off) 4
/-- F_j. -/
def tbF (t : List Byte) (j : Nat) : Nat := bits (tbCoef t j 12) 2 0
/-- Side of a preconditioner block for a PB code (R188). -/
def pbSide (code : Nat) : Nat := if code = 0 then 0 else 32 * 2 ^ code
/-- Side of the update's preconditioner blocks; 0 for none. -/
def tbSide (t : List Byte) : Nat := pbSide (tbf t 18 16)
/-- Bytes of a state entry: binary32 or bfloat16. -/
def tbStateBytes (t : List Byte) : Nat := if tbf t 11 11 = 1 then 2 else 4

/-- The structures that an UPDATE's arguments hold after the object's index: descriptors, table, shard map. -/
structure UpdArgs where
  w     : Tensor
  g     : Tensor
  wRaw  : List Byte
  gRaw  : List Byte
  table : List Byte
  map   : List Byte
deriving DecidableEq, Repr

/-- The arguments as stored. -/
def updArgs (l : List Byte) : UpdArgs :=
  let w := (l.drop 8).take 128
  let g := (l.drop 136).take 128
  ⟨tensorOf w, tensorOf g, w, g, (l.drop 264).take 256, l.drop 520⟩

/-- The owners of the shards in order (R184); this partition alone where there is no map. -/
def owners (me : Nat × Nat) (map : List Byte) : List (Nat × Nat) :=
  if map = [] then [me]
  else (List.range (bits (leAt map 0 4) 12 0)).map (fun k =>
    let e := leAt map (8 + 4 * k) 4
    (bits e 11 0, bits e 15 12))

/-- SHARD_MAP_INVALID (R185). -/
def shardMapBad (me : Nat × Nat) (map table : List Byte) : Bool :=
  if map = [] then false
  else
    let h := leAt map 0 4
    let n := bits h 12 0
    let os := owners me map
    bits h 31 14 != 0 || leAt map 4 4 != 0 || n == 0 || 4096 < n ||
    (List.range n).any (fun k => bits (leAt map (8 + 4 * k) 4) 31 16 != 0) ||
    os.eraseDups.length != os.length || !os.contains me || (bits h 13 13 == 1) != (tbSide table != 0)

/-! ### Units (R182, R183, R187) -/

/-- Product of a list of numbers. -/
def prodNat (l : List Nat) : Nat := l.foldl (· * ·) 1

/-- Extents of the scale tensor (R82). -/
def Tensor.scaleExts (t : Tensor) : List Nat :=
  (List.range t.ndim).map (fun d => if t.blockAxis d then ceilDiv (t.dim d).bound 32 else (t.dim d).bound)

/-- NU (R182, R183). -/
def unitCount (t : Tensor) (side : Nat) : Nat :=
  if side ≠ 0 then ceilDiv (t.dim 0).bound side * ceilDiv (t.dim 1).bound side
  else if isL t.fmt then prodNat t.scaleExts
  else ceilDiv (prodNat (t.dims.map (·.bound))) 32

/-- Entries that a unit is padded to (R187). -/
def unitPad (t : Tensor) (side : Nat) : Nat := if side ≠ 0 then side * side else if t.shape = 2 then 1024 else 32

/-- The indices of a dense number over extents, innermost fastest. -/
def decomp : List Nat → Nat → List Nat
  | [], _ => []
  | e :: es, q => q % max 1 e :: decomp es (q / max 1 e)

/-- All ways to take one of each list, the first list fastest. -/
def choices : List (List Nat) → List (List Nat)
  | [] => [[]]
  | l :: ls => (choices ls).flatMap (fun r => l.map (fun x => x :: r))

/-- The numbers [lo, hi). -/
def fromTo (lo hi : Nat) : List Nat := (List.range (hi - lo)).map (lo + ·)

/-- The elements of unit u as tensor indices, innermost dimension fastest (R182, R183; within a unit the order is the model's
choice, log entry 120). Rows of a preconditioned weight run along dimension 1 and columns along dimension 0 (log entry 15). -/
def unitElems (t : Tensor) (side u : Nat) : List (List Nat) :=
  let b (d : Nat) : Nat := (t.dim d).bound
  if side ≠ 0 then
    let gc := ceilDiv (b 0) side
    let r := u / max 1 gc
    let c := u % max 1 gc
    choices [fromTo (c * side) (min (b 0) (c * side + side)), fromTo (r * side) (min (b 1) (r * side + side))]
  else if isL t.fmt then
    let coords := decomp t.scaleExts u
    choices ((List.range t.ndim).map (fun d =>
      let x := (coords[d]?).getD 0
      if t.blockAxis d then fromTo (32 * x) (min (b d) (32 * x + 32)) else [x]))
  else
    let bs := t.dims.map (·.bound)
    (fromTo (32 * u) (min (prodNat bs) (32 * u + 32))).map (decomp bs)

/-- The first unit of shard k of n, and that of the next shard (R183). -/
def shardRange (nu n k : Nat) : Nat × Nat := (k * nu / max 1 n, (k + 1) * nu / max 1 n)

/-- The byte addresses of a unit's elements, and of its scales (R288, R289). -/
def unitAddrs (t : Tensor) (side u : Nat) : List Nat :=
  ((unitElems t side u).flatMap (fun v =>
    let i := v.map Int.ofNat
    let a := addrNat (t.byteAddr i)
    (List.range (elemBytes t.fmt)).map (a + ·) ++ (if isL t.fmt then [addrNat (t.scaleAddr i)] else []))).eraseDups

/-! ### The checks of an UPDATE (R185, R189, R391, R379) -/

/-- The fields of the table that must be 0 or hold a defined value (R188, R189). -/
def tableReserved (t : List Byte) : Bool :=
  let n := tbSlots t
  4 < n || 5 < tbf t 18 16 || tbf t 31 19 != 0 || tbl t 0x1C != 0 || tbl t 0x3C != 0 || (t.drop 0x90).any (· != 0) ||
  (List.range n).any (fun j => 4 < tbF t j || bits (tbCoef t j 12) 31 4 != 0)

/-- The rows of R189 that the table and the weight's descriptor alone decide. -/
def tableBad (t : List Byte) (w : Tensor) : Bool :=
  let n := tbSlots t
  let fin (x : Nat) : Bool := f32.isFin x
  let pre := tbf t 15 12 != 0 || (List.range n).any (fun j => tbF t j == 4)
  let neg (x : Nat) : Bool := 2 ^ 31 < x
  tableReserved t || !(tbV t == 7 || tbV t < n) ||
  [4, 8, 12, 16, 20].any (fun o => !fin (tbl t o)) ||
  (List.range n).any (fun j => [0, 4, 8].any (fun o => !fin (tbCoef t j o))) ||
  neg (tbl t 8) || (tbf t 7 7 == 1 && (2 ^ 31 ≤ tbl t 16 || tbl t 16 == 0)) ||
  (tbSide t == 0 && pre) || (tbSide t != 0 && !(w.ndim == 2 && w.shape == 2))

/-- The handles an update needs, with the bytes of an entry of each (R188, R199). -/
def needed (t : List Byte) : List (Nat × Nat) :=
  (List.range (tbSlots t)).map (fun j => (leAt t (0x80 + 4 * j) 4, tbStateBytes t)) ++
  (if tbf t 10 10 = 1 then [(tbl t 0x28, 4)] else []) ++
  (if tbf t 12 12 = 1 then [(tbl t 0x2C, 4)] else []) ++ (if tbf t 13 13 = 1 then [(tbl t 0x30, 4)] else []) ++
  (if tbf t 14 14 = 1 then [(tbl t 0x34, 4)] else []) ++ (if tbf t 15 15 = 1 then [(tbl t 0x38, 4)] else [])

/-- The weight object that holds every byte of the weight tensor in slot 0's mapping (R391). Log entry 59 (DEDUCED). -/
def State.weightOf (s : State) (n : Nat) (c : CtxId) (t : Tensor) : Option Nat :=
  let l := t.addrs.map (fun a => s.vaObj c a)
  match l with
  | some i :: _ => if l.all (· == some i) && (Tab.get? (s.ptn n).objs i).any (·.isWeight) then some i else none
  | _ => none

/-- The status of an UPDATE's handles: 0 in the table, not valid in the context, too small (R189, R333). -/
def State.neededStatus (s : State) (n seq : Nat) (c : CtxId) (a : UpdArgs) (units : Nat) : Nat :=
  let pad := unitPad a.w (tbSide a.table)
  (needed a.table).foldl (fun st e =>
    if st != 0 then st
    else if e.1 = 0 then St.updateTableInvalid
    else if hKind e.1 != 3 || !s.validHandle n seq e.1 then St.handleInvalid
    else match s.obj? n e.1 with
      | none => St.handleInvalid
      | some o => if o.ctx != c then St.handleInvalid else if o.bytes < units * pad * e.2 then St.updateTableInvalid else 0) 0

/-- Units [first, last) of the shard of this partition, and NU. -/
def ownUnits (me : Nat × Nat) (a : UpdArgs) : Nat × Nat × Nat :=
  let os := owners me a.map
  let nu := unitCount a.w (tbSide a.table)
  let r := shardRange nu os.length (os.findIdx (· == me))
  (r.1, r.2, nu)

/-- The checks of an UPDATE: encodings, the structures' reads, R185, R189, then the descriptors, then the state. The bytes
answered begin with the weight object's index. -/
def State.checkUpdate (s : State) (n : Nat) (c : CtxId) (k : Cmd) : Fetched :=
  let raw := k.raw
  let ctl := eBody raw 32 4
  let me := (s.pkgNo, n)
  let f := (((Fetched.check ⟨s, 0, []⟩ (bits ctl 7 6 != 0 || bits ctl 31 24 != 0 || !bodyClear raw 36) St.malformed).next
    n c (eBody raw 0 8) 128 128).next n c (eBody raw 8 8) 128 128).next n c (eBody raw 16 8) 256 256
  let sm := eBody raw 24 8
  let h := if sm = 0 then f else f.next n c sm 8 8
  let cnt := bits (leAt h.bytes 512 4) 12 0
  let m := if sm = 0 || h.status != 0 || 4096 < cnt then h else h.next n c (sm + 8) (4 * cnt) 4
  let a := updArgs (natLe 8 0 ++ m.bytes)
  let own := ownUnits me a
  let m1 := (m.check (shardMapBad me a.map a.table) St.shardMapInvalid).check (tableBad a.table a.w) St.updateTableInvalid
  let need := s.neededStatus n k.seq c a (own.2.1 - own.1)
  let m2 := m1.check (need != 0) need
  let badDesc := tensorReserved a.wRaw || tensorReserved a.gRaw || tensorMisaligned a.w || tensorMisaligned a.g ||
    a.w.space != 0 || commandSpaceBad a.g || a.w.consume || a.w.acc || a.g.acc || destBad a.w ||
    a.w.dims.any (fun d => d.offset != 0 || d.extent != d.bound) || a.g.ndim != a.w.ndim ||
    a.g.dims.map (·.extent) != a.w.dims.map (·.extent)
  let m3 := m2.check badDesc St.descriptorInvalid
  match if m3.status = 0 then s.weightOf n c a.w else none with
  | none => m3.check true St.descriptorInvalid
  | some i =>
    let stuck := (Tab.get? (s.ptn n).objs i).any (fun o =>
      let t := o.slot ((o.gen + 1) % max 1 o.slots.length)
      t.st == .unsettled && t.readers != 0)
    let m4 := (m3.check (s.holdBad n c a.g) St.holdRange).check stuck St.illegalState
    { m4 with bytes := natLe 8 i ++ m4.bytes }

/-! ### Bytes of objects by slot -/

/-- The place of byte off of slot k of an object. -/
def State.slotPlace (s : State) (n : Nat) (o : MemObj) (k off : Nat) : Option Place :=
  s.objPlace n o (k * o.pages + off / o.pageBytes) (off % o.pageBytes)

/-- Reads bytes of slot k of an object through their check words (R442); an unsettled slot refuses (R340). -/
def State.objRead (s : State) (n : Nat) (c : CtxId) (i k off len : Nat) : Fetched :=
  match Tab.get? (s.ptn n).objs i with
  | none => ⟨s, St.unmapped, []⟩
  | some o =>
    if (o.slot k).st == .unsettled then ⟨s, St.unsettled, []⟩
    else if len = 0 then ⟨s, 0, []⟩
    else (pieces off len).foldl (fun (x : Fetched) e =>
      if x.status != 0 then x
      else match x.s.slotPlace n o k e.1 with
        | none => ⟨x.s, St.unmapped, []⟩
        | some pl =>
          let r := x.s.eccRead pl e.2 [c] (unitCode 11 ((x.s.diesOf n).headD 0) 0)
          if r.2 then ⟨r.1, St.uncorrectable, []⟩ else ⟨r.1, 0, x.bytes ++ r.1.bytesAt pl e.2⟩) ⟨s, 0, []⟩

/-- Writes bytes of slot k of an object. -/
def State.objWrite (s : State) (n i k off : Nat) (bs : List Byte) : State :=
  match Tab.get? (s.ptn n).objs i with
  | none => s
  | some o =>
    if bs.length = 0 then s
    else (pieces off bs.length).foldl (fun t e => match t.slotPlace n o k e.1 with
      | none => t
      | some pl => t.store pl ((bs.drop (e.1 - off)).take e.2)) s

/-- The offset within a slot of a byte of a mapped weight object. -/
def State.slotOffset (s : State) (c : CtxId) (o : MemObj) (a : Nat) : Option Nat :=
  (s.ctx? c).bind (fun x => (x.entry (a % 2 ^ 52)).bind (fun e =>
    if pteValid e.1 then some ((o.bases.findIdx (fun b => b == pteAddr e.1)) % max o.pages 1 * o.pageBytes + a % e.2) else none))

/-- The bytes of slot k at listed addresses of the weight's mapping, as they stand. -/
def State.weightBytes (s : State) (n : Nat) (c : CtxId) (i k : Nat) (as : List Nat) : Bytes :=
  match Tab.get? (s.ptn n).objs i with
  | none => []
  | some o => as.filterMap (fun a => (s.slotOffset c o a).bind (fun off => (s.slotPlace n o k off).map (fun pl => (a, s.byteAt pl))))

/-- Writes bytes at addresses of the weight's mapping into slot k, by runs. -/
def State.weightPut (s : State) (n : Nat) (c : CtxId) (i k : Nat) (m : Bytes) : State :=
  match Tab.get? (s.ptn n).objs i with
  | none => s
  | some o =>
    (runsOf (sortNat (m.map (·.1)))).foldl (fun t r => match s.slotOffset c o r.1 with
      | none => t
      | some off => t.objWrite n i k off ((List.range r.2).map (fun j => Tab.get m (r.1 + j) 0))) s

/-! ### The recurrence (R191) -/

/-- Negation of a binary32 value. -/
def neg32 (x : Nat) : Nat := if x < 2 ^ 31 then x + 2 ^ 31 else x - 2 ^ 31
/-- Magnitude. -/
def abs32 (x : Nat) : Nat := x % 2 ^ 31
/-- 1.0. -/
def one32 : Nat := 0x3F800000

/-- sign(x); sign(0) is 0, and the sign of a NaN, which the spec does not state, is a free function of it (R194; log
entry 16). -/
def sign32 (x : Nat) : Nat :=
  if f32.isNan x then Config.nanSign x % 2 ^ 32 else if abs32 x = 0 then 0 else one32 + (x / 2 ^ 31) * 2 ^ 31

/-- The bias correction 1/(1 − α^t), exact and rounded once; a free function of α and t where it divides by zero (log
entry 16). -/
def biasCorr (alpha t : Nat) : Nat :=
  match f32.decode alpha with
  | .fin neg m e =>
    let p : Int := if neg && t % 2 == 1 then -((m ^ t : Nat) : Int) else ((m ^ t : Nat) : Int)
    let k := (e * t)
    let den : Nat := if k < 0 then 2 ^ (-k).toNat else 1
    let num : Int := (den : Int) - (if k < 0 then p else p * (2 ^ k.toNat : Nat))
    if num = 0 then Config.biasAtOne alpha t % 2 ^ 32 else f32.roundRatio (num < 0) den num.natAbs 0
  | _ => Config.biasAtOne alpha t % 2 ^ 32

/-- Which value F_j selects. -/
def selectF (f g pg : Nat) : Nat :=
  if f = 0 then g else if f = 1 then f32.mul g g else if f = 2 then abs32 g else if f = 3 then sign32 g else pg

/-- One element's step (R191): the new weight and the new states; max and min are those of R238. Log entry 65 (DEDUCED). -/
def stepElem (t : List Byte) (cs : List Nat) (g pg w : Nat) (us : List Nat) : Nat × List Nat :=
  let us' := us.zipIdx.map (fun e =>
    f32.add (f32.mul (tbCoef t e.2 0) e.1) (f32.mul (tbCoef t e.2 4) (selectF (tbF t e.2) g pg)))
  let c (j : Nat) : Nat := (cs[j]?).getD one32
  let num0 := us'.zipIdx.foldl (fun acc e => f32.add acc (f32.mul (tbCoef t e.2 8) (f32.mul (c e.2) e.1))) 0
  let num := if tbf t 6 6 = 1 then sign32 num0 else num0
  let v := tbV t
  let den := if v = 7 then one32 else f32.add (f32.sqrt (f32.mul (c v) ((us'[v]?).getD 0))) (tbl t 8)
  let eta := tbl t 4
  let d0 := f32.div (neg32 (f32.mul eta num)) den
  let d1 := if tbf t 7 7 = 1 then f32.minmax true (neg32 (tbl t 16)) (f32.minmax false (tbl t 16) d0) else d0
  let d := if tbf t 8 8 = 1 then f32.sub d1 (f32.mul (f32.mul eta (tbl t 12)) w) else d1
  (f32.add w d, us')

/-! ### Matrix products on the arrays for a command (R200) -/

/-- A matrix of binary32 bits, by rows. -/
abbrev Mat := List (List Nat)

/-- Entry (i, j). -/
def Mat.at_ (m : Mat) (i j : Nat) : Nat := ((m[i]?).getD []).getD j 0
/-- A matrix by its entries. -/
def matOf (r c : Nat) (f : Nat → Nat → Nat) : Mat := (List.range r).map (fun i => (List.range c).map (f i))
/-- Rows. -/
def Mat.rows (m : Mat) : Nat := m.length
/-- Columns. -/
def Mat.cols (m : Mat) : Nat := (m.headD []).length
/-- The transpose. -/
def Mat.transpose (m : Mat) : Mat := matOf m.cols m.rows (fun i j => m.at_ j i)
/-- Entry by entry. -/
def Mat.zip (f : Nat → Nat → Nat) (a b : Mat) : Mat := List.zipWith (List.zipWith f) a b
/-- Entry by entry. -/
def Mat.each (f : Nat → Nat) (a : Mat) : Mat := a.map (fun r => r.map f)

/-- The scales of a matrix in L16, tile-blocked (R89). -/
def Mat.scales (m : Mat) : List (List Int) :=
  (List.range (ceilDiv m.rows 32)).map (fun a => (List.range (ceilDiv m.cols 32)).map (fun b =>
    chooseScale (((m.drop (32 * a)).take 32).flatMap (fun r => ((r.drop (32 * b)).take 32).map f32.decode))))

/-- Scale of tile (a, b). -/
def scaleAt (t : List (List Int)) (a b : Nat) : Int := ((t[a]?).getD []).getD b (-128)

/-- The L16 codes of a matrix, nearest rounding. -/
def Mat.codes (m : Mat) (t : List (List Int)) : Mat :=
  m.zipIdx.map (fun r => r.1.zipIdx.map (fun x => ((lfmt 6).encode (scaleAt t (r.2 / 32) (x.2 / 32)) .nearest (f32.decode x.1)).bits))

/-- One product on the arrays: operands in L16, windows of 64 folded in ascending order into binary32 (R200, R112). -/
def matMul (a b : Mat) : Mat :=
  let sa := a.scales
  let sb := b.scales
  let ca := a.codes sa
  let cb := (b.codes sb).transpose
  let part (l : List Nat) (k : Nat) : List Nat := (l.drop (32 * k)).take 32
  ca.zipIdx.map (fun x => cb.zipIdx.map (fun y =>
    ((List.range (ceilDiv a.cols 64)).foldl (fun (acc : Word) w =>
      foldValue (blockSum (lfmt 6) (part x.1 (2 * w)) (part y.1 (2 * w)))
        (scaleAt sa (x.2 / 32) (2 * w) + scaleAt sb (2 * w) (y.2 / 32))
        (blockSum (lfmt 6) (part x.1 (2 * w + 1)) (part y.1 (2 * w + 1)))
        (scaleAt sa (x.2 / 32) (2 * w + 1) + scaleAt sb (2 * w + 1) (y.2 / 32)) acc (w == 0)) 0).toNat))

/-- The saturations and the NaN inputs of a matrix's conversion to L16 (R91). -/
def Mat.losses (m : Mat) : Nat × Nat :=
  let t := m.scales
  m.zipIdx.foldl (fun x r => r.1.zipIdx.foldl (fun y e =>
    let c := (lfmt 6).encode (scaleAt t (r.2 / 32) (e.2 / 32)) .nearest (f32.decode e.1)
    (y.1 + b2n c.sat, y.2 + b2n c.nan)) x) (0, 0)

/-- A product with the losses of its two operands' conversions added to those so far. -/
def mulLoss (a b : Mat) (l : Nat × Nat) : Mat × (Nat × Nat) :=
  (matMul a b, (l.1 + a.losses.1 + b.losses.1, l.2 + a.losses.2 + b.losses.2))

/-- Counts the losses of a command's conversions on a core: VE_CONV_SAT and VE_CONV_NAN (R91, R263). -/
def State.countLoss (s : State) (p : Nat) (l : Nat × Nat) : State := (s.count p 59 l.1).count p 60 l.2

/-! ### One unit of an UPDATE (R187, R192, R193, R199, R200) -/

/-- The progress of an UPDATE's computation: its status so far, units stepped. -/
structure UpdRun where
  s       : State
  status  : Nat
  stepped : Nat
deriving DecidableEq, Repr

/-- Reads the entries of a unit in an object, by handle: runs of bytes, given by offset and length, and nothing of the padding
between and after them (R187). -/
def State.unitRead (s : State) (n : Nat) (c : CtxId) (h : Nat) (runs : List (Nat × Nat)) : Fetched :=
  runs.foldl (fun (f : Fetched) r =>
    if f.status != 0 then f
    else
      let x := f.s.objRead n c (hIndex h) 0 r.1 r.2
      { x with bytes := f.bytes ++ x.bytes }) ⟨s, 0, []⟩

/-- The run of the k entries, of w bytes each, of local unit i (R187): they stand first, the padding after them. The spec gives
no order within a unit; the model takes that of unitElems (log entry 120). -/
def entryRun (i pad w k : Nat) : List (Nat × Nat) := [(i * pad * w, k * w)]

/-- The runs of the rows of a dim x dim matrix in the top left of local unit i (R199). -/
def matRuns (i side dim : Nat) : List (Nat × Nat) := (List.range dim).map (fun r => (4 * (i * side * side + r * side), 4 * dim))

/-- The entries that bytes hold, w bytes each; bfloat16 entries as binary32 (R192). -/
def entries (w : Nat) (bs : List Byte) (k : Nat) : Nat := if w = 2 then leAt bs (2 * k) 2 * 65536 else leAt bs (4 * k) 4

/-- The bytes of a unit's entries, padding after them written as zero (R187, R192; log entry 120). -/
def entryBytes (w pad : Nat) (xs : List Nat) : List Byte :=
  let one (x : Nat) : List Byte := if w = 2 then natLe 2 (bf16.near (f32.decode x)) else natLe 4 x
  xs.flatMap one ++ List.replicate ((pad - xs.length) * w) 0

/-- The n x n matrix that bytes hold, side entries a row (R199). -/
def statMat (side n : Nat) (bs : List Byte) : Mat := matOf n n (fun i j => leAt bs (4 * (i * side + j)) 4)

/-- The bytes of a matrix padded to PB x PB. -/
def statBytes (side : Nat) (m : Mat) : List Byte :=
  (List.range (side * side)).flatMap (fun k => natLe 4 (if k / side < m.rows ∧ k % side < m.cols then m.at_ (k / side) (k % side) else 0))

/-- The statistics and the product P·g of a unit (R200) on core p: the state after the statistics are written, and pg.
Log entry 15 (DEDUCED). -/
def State.precondUnit (s : State) (n : Nat) (c : CtxId) (p : Nat) (t : List Byte) (i : Nat) (g : Mat) : Fetched × Mat :=
  let side := tbSide t
  let acc (f : Fetched) (on h dim : Nat) (a b : Mat) : Fetched :=
    if f.status != 0 || on = 0 then f
    else
      let r := f.s.unitRead n c h (matRuns i side dim)
      if r.status != 0 then r
      else
        let q := mulLoss a b (0, 0)
        let new_ := Mat.zip (fun x y => f32.add (f32.mul (tbl t 20) x) y) (statMat dim dim r.bytes) q.1
        ⟨(r.s.countLoss p q.2).objWrite n (hIndex h) 0 (i * side * side * 4) (statBytes side new_), 0, []⟩
  let f1 := acc ⟨s, 0, []⟩ (tbf t 12 12) (tbl t 0x2C) g.rows g g.transpose
  let f2 := acc f1 (tbf t 13 13) (tbl t 0x30) g.cols g.transpose g
  let root (x : Fetched × Mat) (on h dim : Nat) (left : Bool) : Fetched × Mat :=
    if x.1.status != 0 || on = 0 then x
    else
      let r := x.1.s.unitRead n c h (matRuns i side dim)
      let m := statMat dim dim r.bytes
      let q := if left then mulLoss m x.2 (0, 0) else mulLoss x.2 m (0, 0)
      if r.status = 0 then ({ r with s := r.s.countLoss p q.2 }, q.1) else (r, x.2)
  root (root (f2, g) (tbf t 14 14) (tbl t 0x34) g.rows true) (tbf t 15 15) (tbl t 0x38) g.cols false

/-- The new bytes of a unit: encoded under the control byte with scales chosen block by block, element k drawing from lane
k mod 128 of the core's engine (R192, R98). -/
def State.encodeUnit (s : State) (p : Nat) (w : Tensor) (ctl : Nat) (old : Bytes) (es : List (List Int × Nat)) : State × Bytes :=
  let vals := es.map (fun e => (e.1, f32.decode e.2))
  let key (i : List Int) : Nat := addrNat (w.scaleAddr i)
  let scaleOf (i : List Int) : Int :=
    if isL w.fmt then chooseScale ((vals.filter (fun e => key e.1 == key i)).map (·.2)) else 0
  let r := vals.zipIdx.foldl (fun (x : Bytes × Table DWord × Nat × Nat × Nat) q =>
    let i := q.1.1
    let d := drawRnd p ctl (q.2 % 128) x.2.1
    let e : Enc := if isL w.fmt then (lfmt w.fmt).encode (scaleOf i) d.1 q.1.2
      else ⟨(linFmt w.fmt).encode d.1 (ctlSatf ctl) q.1.2, (linFmt w.fmt).overflows d.1 q.1.2, false⟩
    let m := w.put old x.1 i e.bits
    let m := if isL w.fmt then Tab.set m (key i) (BitVec.ofNat 8 (scaleByte (scaleOf i))) else m
    (m, d.2, x.2.2.1 + b2n e.sat, x.2.2.2.1 + b2n e.nan, x.2.2.2.2 + b2n (ctlStoch ctl)))
    (([] : Bytes), (s.core p).gens, 0, 0, 0)
  ((((s.setCore p { s.core p with gens := r.2.1 }).count p 59 r.2.2.1).count p 60 r.2.2.2.1).count p 61 r.2.2.2.2, r.1)

/-- What stays the same for all units of an UPDATE. -/
structure UpdJob where
  n     : Nat
  ctx   : CtxId
  obj   : Nat
  readSlot : Nat
  slot  : Nat
  first : Nat
  a     : UpdArgs
  ctl   : Nat
  gscale : Nat
  cs    : List Nat
  got   : Bytes
  cores : List Nat
deriving DecidableEq, Repr

/-- A unit skipped for a non-finite gradient: its old elements and scales go into the new slot (R193); what a byte it shares
with another unit holds of that unit stays. Log entry 61 (DEDUCED). -/
def State.skipUnit (s : State) (j : UpdJob) (p u : Nat) : State :=
  let w := j.a.w
  let side := tbSide j.a.table
  let as := unitAddrs w side u
  let old := s.weightBytes j.n j.ctx j.obj j.readSlot as
  let cur := s.weightBytes j.n j.ctx j.obj j.slot as
  let new_ := (unitElems w side u).foldl (fun (m : Bytes) v =>
    let i := v.map Int.ofNat
    let x := w.put cur m i (w.elem old i)
    if isL w.fmt then Tab.set x (addrNat (w.scaleAddr i)) (BitVec.ofNat 8 (byteIn old (w.scaleAddr i))) else x) []
  (s.weightPut j.n j.ctx j.obj j.slot new_).count p 41 1

/-- One unit of an UPDATE. -/
def UpdRun.unit (x : UpdRun) (j : UpdJob) (u : Nat) : UpdRun :=
  if x.status != 0 then x
  else
    let t := j.a.table
    let w := j.a.w
    let side := tbSide t
    let pad := unitPad w side
    let i := u - j.first
    let p := (j.cores[i % max 1 j.cores.length]?).getD 0
    let es := unitElems w side u
    let gs := es.map (fun v => f32.mul (f32.near (j.a.g.value j.got v)) j.gscale)
    if tbf t 9 9 = 1 && gs.any (fun g => !f32.isFin g) then { x with s := x.s.skipUnit j p u }
    else
      let as := unitAddrs w side u
      let oldRead := x.s.objRead j.n j.ctx j.obj j.readSlot 0 0
      let oldW := oldRead.s.weightBytes j.n j.ctx j.obj j.readSlot as
      let side0 := (es.map (fun v => (v[0]?).getD 0)).eraseDups.length
      let g := matOf (gs.length / max 1 side0) side0 (fun r c => (gs[r * side0 + c]?).getD 0)
      let pre := if side = 0 then ((⟨oldRead.s, 0, []⟩ : Fetched), ([] : Mat)) else oldRead.s.precondUnit j.n j.ctx p t i g
      let pgs := if side = 0 then gs else pre.2.flatten
      let sw := tbStateBytes t
      let read (f : Fetched × List (List Byte)) (h wd : Nat) : Fetched × List (List Byte) :=
        if f.1.status != 0 then f
        else
          let r := f.1.s.unitRead j.n j.ctx h (entryRun i pad wd es.length)
          (r, f.2 ++ [r.bytes])
      let hs := (List.range (tbSlots t)).map (fun k => leAt t (0x80 + 4 * k) 4)
      let st := hs.foldl (fun f h => read f h sw) (pre.1, [])
      let ms := if tbf t 10 10 = 1 then read (st.1, []) (tbl t 0x28) 4 else (st.1, [])
      if oldRead.status != 0 && tbf t 10 10 = 0 then ⟨oldRead.s, oldRead.status, x.stepped⟩
      else if ms.1.status != 0 then ⟨ms.1.s, ms.1.status, x.stepped⟩
      else
        let s0 := ms.1.s
        let out := es.zipIdx.map (fun e =>
          let k := e.2
          let wv := if tbf t 10 10 = 1 then leAt (ms.2.headD []) (4 * k) 4 else f32.near (w.value oldW e.1)
          stepElem t j.cs ((gs[k]?).getD 0) ((pgs[k]?).getD 0) wv (st.2.map (fun b => entries sw b k)))
        let s1 := hs.zipIdx.foldl (fun y h => y.objWrite j.n (hIndex h.1) 0 (i * pad * sw)
          (entryBytes sw pad (out.map (fun o => (o.2[h.2]?).getD 0)))) s0
        let s2 := if tbf t 10 10 = 1 then
          s1.objWrite j.n (hIndex (tbl t 0x28)) 0 (i * pad * 4) (entryBytes 4 pad (out.map (·.1))) else s1
        let cur := s2.weightBytes j.n j.ctx j.obj j.slot as
        let en := s2.encodeUnit p w j.ctl cur (es.zip (out.map (·.1)) |>.map (fun e => (e.1.map Int.ofNat, e.2)))
        ⟨((en.1.weightPut j.n j.ctx j.obj j.slot en.2).count p 40 es.length), 0, x.stepped + 1⟩

/-! ### The run of an UPDATE (R176, R195) -/

/-- The running update of a command. -/
def State.upd? (s : State) (c : Cid) : Option Upd := (s.ptn c.ptn).updates.find? (fun u => u.cid == c)

/-- Replaces the running update of its command. -/
def State.setUpd (s : State) (u : Upd) : State :=
  let x := s.ptn u.cid.ptn
  s.setPtn u.cid.ptn { x with updates := x.updates.map (fun y => if y.cid = u.cid then u else y) }

/-- UPDATE, steps 1 and 2 of R176: the structures are read and checked again (R190), the generation is read and held. -/
def State.updateRun (s : State) (c : Cid) (x : Queue) (k : Cmd) : State :=
  let n := c.ptn
  let f := s.checkUpdate n x.ctx k
  if f.status != 0 then f.s.endCmd c f.status 0 0
  else
    let i := leAt f.bytes 0 8
    let me := (s.pkgNo, n)
    let a := updArgs f.bytes
    let own := ownUnits me a
    match Tab.get? (f.s.ptn n).objs i with
    | none => f.s.endCmd c St.descriptorInvalid 0 0
    | some o => match f.s.addReader n i o.gen with
      | none => f.s.endCmd c St.illegalState 0 0
      | some s1 =>
        let s2 := match Tab.get? (s1.ptn n).objs i with
          | none => s1
          | some o' => s1.setObj n i { o' with updating := true }
        let u : Upd := ⟨c, x.ctx, i, o.gen, .draining, own.2.2, own.1, own.2.1, 0,
          (owners me a.map).filter (· != me), [], [], false⟩
        let p := s2.ptn n
        let s3 := s2.setPtn n { p with updates := p.updates ++ [u] }
        match s3.cmd? c with
        | none => s3
        | some k' => s3.setCmd n { k' with args := f.bytes }

/-- UPDATE: taking it from its queue. Log entry 58 (DEDUCED). -/
def State.updateStart (s : State) (n q e : Nat) : State :=
  match s.starting n q e 6 with
  | none => s
  | some (k, x) => (s.began n k).updateRun ⟨n, q, e⟩ x k

/-- UPDATE (R391). -/
def execUpdate (n q e : Nat) (s : State) : Out := onWf (.update n q e) (s.updateStart n q e)

/-- The slot that an update writes. -/
def State.updSlot (s : State) (u : Upd) : Nat :=
  ((Tab.get? (s.ptn u.cid.ptn).objs u.obj).map (fun o => (u.gen + 1) % max 1 o.slots.length)).getD 0

/-- A push into slot t of a weight object: accepted only while the slot is open for the generation it names (R196). Addresses
are those of the receiving context's mapping. -/
def State.pushArrive (s : State) (n : Nat) (c : CtxId) (va gen : Nat) (bs : List Byte) : Option State :=
  match s.vaObj c (s.pkgNo * 2 ^ 52 + va) with
  | none => none
  | some i => match (s.ptn n).updates.find? (fun u => u.obj == i && u.ctx == c && u.stage != .draining && !u.published &&
      u.gen + 1 == gen) with
    | none => none
    | some u =>
      let m : Bytes := bs.zipIdx.map (fun e => (va + e.2, e.1))
      let s1 := s.weightPut n c i (s.updSlot u) m
      some (s1.setUpd { u with arrived := u.arrived ++ m.map (·.1) })

/-- The own new bytes of an update, by address. -/
def State.ownBytes (s : State) (u : Upd) (a : UpdArgs) : Bytes :=
  let side := tbSide a.table
  s.weightBytes u.cid.ptn u.ctx u.obj (s.updSlot u) ((fromTo u.first u.last).flatMap (unitAddrs a.w side))

/-- The scale addresses of the own units. -/
def ownScales (u : Upd) (a : UpdArgs) : List Nat :=
  if isL a.w.fmt then (fromTo u.first u.last).flatMap (fun q =>
    ((unitElems a.w (tbSide a.table) q).map (fun v => addrNat (a.w.scaleAddr (v.map Int.ofNat)))).eraseDups) else []

/-- Pushes an update's own bytes to a peer whose open notice has arrived (R195 step 6). -/
def State.pushTo (s : State) (u : Upd) (a : UpdArgs) (p : PeerOpen) : State :=
  let sc := ownScales u a
  let place (e : Nat × Byte) : Nat × Byte :=
    let from_ : Int × Nat := if sc.contains e.1 then ((a.w.scaleBase : Int), p.scales) else ((a.w.base : Int), p.data)
    ((((from_.2 % 2 ^ 52 : Nat) : Int) + ((e.1 : Int) - from_.1)).toNat, e.2)
  let m := (s.ownBytes u a).map place
  let runs := writeRuns (fun x => some (.remote p.pkg x)) m
  let s1 := s.setUpd { u with pushed := u.pushed ++ [(p.pkg, p.ptn)] }
  if p.pkg = s.pkgNo then
    runs.foldl (fun t r => (t.pushArrive p.ptn p.ctx r.addr (u.gen + 1) r.bytes).getD (t.countPtn p.ptn 6 1)) s1
  else
    let reqs := runs.map (fun r =>
      (⟨s.dealer.seq, 64, 64, u.ctx, p.pkg * 2 ^ 52 + r.addr, r.place, .cmd u.cid r [(p.ptn, p.ctx)], 0, 0, []⟩ : FarReq))
    s1.sendReqs (((s.coresOf u.cid.ptn).head?).getD 0) reqs

/-- The open notice of a peer for an update: of its context and generation; one at its own addresses if there is one (log
entry 17). -/
def State.openOf (s : State) (u : Upd) (a : UpdArgs) (o : Nat × Nat) : Option PeerOpen :=
  let l := (s.ptn u.cid.ptn).opens.filter (fun p => p.pkg == o.1 && p.ptn == o.2 && p.own == u.ctx && p.gen == u.gen + 1)
  (l.find? (fun p => p.data % 2 ^ 52 == a.w.base % 2 ^ 52)).orElse (fun _ => l.head?)

/-- Pushes to one more peer whose notice is in; fuel bounds the peers. -/
def State.pushAll : Nat → State → Cid → State
  | 0, s, _ => s
  | fuel + 1, s, c =>
    match s.upd? c, s.cmd? c with
    | some u, some k =>
      if u.stage != .computed then s
      else
        let a := updArgs k.args
        match (u.owners.filter (fun o => !u.pushed.contains o)).findSome? (s.openOf u a) with
        | none => s
        | some p =>
          let x := s.ptn c.ptn
          State.pushAll fuel ((s.setPtn c.ptn { x with opens := x.opens.filter (· != p) }).pushTo u a p) c
    | _, _ => s

/-- An open notice reaches partition n of this package (R195): the peer's slot is open, and the updates computed already
push to it. Log entry 17 (DEDUCED). -/
def State.openArrive (s : State) (n : Nat) (p : PeerOpen) : State :=
  let x := s.ptn n
  let s1 := s.setPtn n { x with opens := x.opens ++ [p] }
  (x.updates.filter (fun u => u.ctx == p.own)).foldl (fun t u => State.pushAll u.owners.length t u.cid) s1

/-- Notes that the slot of an update is open for an owner, its latest generation there (R195, R196). -/
def State.noteOpen (s : State) (u : Upd) (o : Nat × Nat) : State :=
  let x := s.ptn u.cid.ptn
  s.setPtn u.cid.ptn { x with
    opened := x.opened.filter (fun e => !(e.obj == u.obj && e.pkg == o.1 && e.ptn == o.2)) ++ [⟨u.obj, u.gen + 1, o.1, o.2⟩] }

/-- Sends the open notice of an update to one owner (R195 step 4); none where it has no route. A partition of this package
takes it at once; it goes to the context of the same job there (log entry 17). -/
def State.sendOpen (s : State) (u : Upd) (w : Tensor) (o : Nat × Nat) : Option State :=
  let n := u.cid.ptn
  let here := s.pkgNo * 2 ^ 52
  let data := here + w.base % 2 ^ 52
  let scales := if isL w.fmt then here + w.scaleBase % 2 ^ 52 else 0
  if o.1 = s.pkgNo then
    let own := s.ctxs.find? (fun e => e.2.ptn == o.2 && e.2.torn == 0 && e.2.job != 0 && e.2.job == s.jobOf u.ctx)
    own.map (fun e => (s.noteOpen u o).openArrive o.2 ⟨o.1, n, u.ctx, ⟨e.1, e.2.gen⟩, u.gen + 1, data, scales⟩)
  else if s.jobOf u.ctx = 0 ∨ !s.namesPkg o.1 ∨ ((s.ctx? u.ctx).bind (fun c => Tab.get? c.peers o.1)).isNone then none
  else
    let pay := natLe 8 data ++ natLe 8 scales ++ natLe 4 (u.gen + 1) ++ List.replicate 12 0
    let pk := s.packetTo u.ctx o.1 8 0 0 0 32 ((s.diesOf n).headD 0) pay
    some ((s.noteOpen u o).sendPacket (pktSeal { pk with destPtn := o.2 }) 3)

/-- Takes the vector engine of a core for a command of a context (R216, R243, R246). -/
def State.takeEngine (s : State) (c : Cid) (ctx : CtxId) (p : Nat) : State := (s.passCore p ctx).giveEngine p (.command c) ctx

/-- Whether a command holds the vector engines of its cores: pre-empted work does not (R352). -/
def State.holdsCores (s : State) (c : Cid) (cores : List Nat) : Bool := cores.all (fun p => (s.work p).engine.holder == .command c)

/-- What the engine of a core, and where they took part its arrays' accumulators, hold after a command has run on it, which
the spec does not say: free values (log entry 18). The command no longer holds the engine (R243). -/
def State.leaveEngine (s : State) (p : Nat) (arrays : Bool) : State :=
  let w := s.work p
  let free (k : Nat) : Word := BitVec.ofNat 32 (Config.choice (s.fresh + k))
  let accOf (i : Nat) : RuAcc :=
    ⟨0, 0, bit (Config.choice (s.fresh + 4104 + i)) 0, 0, (List.range 128).map (fun l => (l, free (5000 + 256 * i + l))),
      (List.range 128).map (fun l => (l, free (5128 + 256 * i + l)))⟩
  let e := { w.engine with
    holder := .nobody
    v := (List.range 4096).map (fun k => (k, free k))
    k := (List.range 8).map (fun i => (i, BitVec.ofNat 128 (Config.choice (s.fresh + 4096 + i))))
    accs := (List.range 8).map (fun i => (i, accOf i)) }
  let arr := if arrays then (List.range 4).map (fun i =>
      (i, { w.array i with acc := (List.range 65536).map (fun k => (k, free (8192 + 65536 * i + k))) })) else w.arrays
  { s.setWork p { w with engine := e, arrays := arr } with fresh := s.fresh + 300000 }

/-- Takes a command off the cores whose vector engines it holds. -/
def State.leaveCores (s : State) (c : Cid) : State :=
  { s with cores := Tab.mapVals (fun k => k.setWork (k.work.release c)) s.cores }

/-- Ends a running update with a status (R178): its slot t, which retirement leaves unsettled, closes, its move stops and its
cores are free. -/
def State.updFail (s : State) (c : Cid) (status info : Nat) : State :=
  let s1 := match s.upd? c with
    | none => s
    | some u => s.writes c (u.obj, s.updSlot u)
  let x := s1.ptn c.ptn
  (((s1.setPtn c.ptn { x with updates := x.updates.map (fun u => if u.cid = c then { u with stage := .draining } else u)
    }).leaveCores c).dropMove c).endCmd c status 0 info

/-- The addresses of the gradient multiplier's bytes (R188); none where GSCALE_ADDR is 0. -/
def UpdArgs.gscaleAt (a : UpdArgs) : List Nat :=
  let x := leAt a.table 0x20 8
  if x = 0 then [] else (List.range 4).map (x + ·)

/-- Computes the own shard once the gradient is in (R195 step 5). Log entry 62 (DEDUCED). -/
def State.updCompute (s : State) (u : Upd) (k : Cmd) (m : Move) : State :=
  let c := u.cid
  let n := c.ptn
  let a := updArgs k.args
  let t := a.table
  let far := spaceBytes m.got 0
  let scale := if a.gscaleAt = [] then one32 else leNat (a.gscaleAt.map (fun x => Tab.get far x 0))
  let cs := (List.range (tbSlots t)).map (fun j =>
    if bit (tbCoef t j 12) 3 then biasCorr (tbCoef t j 0) (tbl t 0x18 + 1) else one32)
  let slots := ((Tab.get? (s.ptn n).objs u.obj).map (fun o => o.slots.length)).getD 1
  let j : UpdJob := ⟨n, u.ctx, u.obj, u.gen % max 1 slots, s.updSlot u, u.first, a, bits (eBody k.raw 32 4) 7 0,
    scale, cs, spaceBytes m.got a.g.space, s.coresOf n⟩
  let r := (fromTo u.first u.last).foldl (fun (x : UpdRun) q => x.unit j q) (⟨s, 0, 0⟩ : UpdRun)
  let used := s.dealt n (u.last - u.first)
  let s1 := used.foldl (fun y p => y.leaveEngine p (tbSide t != 0)) r.s
  if r.status != 0 then s1.updFail c r.status 0
  else
    let s2 := s1.setUpd { u with stage := .computed, stepped := r.stepped }
    State.pushAll u.owners.length s2 c

/-- Goes on with an update whose gradient reads are answered. -/
def State.updStep (s : State) (c : Cid) : State :=
  match s.upd? c, s.cmd? c, s.move? c with
  | some u, some k, some m =>
    if u.stage != .open_ || s.moveBusy m || k.stage != .running || !s.holdsCores c (s.dealt c.ptn (u.last - u.first)) then s
    else s.updCompute u k m
  | _, _, _ => s

/-- Goes on with a command whose requests to other packages are answered. -/
def State.cmdStep (s : State) (c : Cid) : State :=
  match s.cmd? c with
  | none => s
  | some k => if eOpcode k.raw = 6 then s.updStep c else s.moveStep c

/-- The objects that an update writes: the new slot, states, master, statistics (R191, R200). -/
def updWrites (t : List Byte) : List (Nat × Nat) :=
  ((List.range (tbSlots t)).map (fun j => leAt t (0x80 + 4 * j) 4) ++
    (if tbf t 10 10 = 1 then [tbl t 0x28] else []) ++ (if tbf t 12 12 = 1 then [tbl t 0x2C] else []) ++
    (if tbf t 13 13 = 1 then [tbl t 0x30] else [])).map (fun h => (hIndex h, 0))

/-- SLOT_DRAINED: slot t has no reader and the cores are free (R176 step 3, R195 step 4): open notices go out, the gradient
of the own units is read and the shard is computed. -/
def State.slotDrained (s : State) (n q e : Nat) : State :=
  let c : Cid := ⟨n, q, e⟩
  match s.upd? c, s.cmd? c with
  | some u, some k =>
    let a := updArgs k.args
    let t := s.updSlot u
    let units := u.last - u.first
    let idle := (Tab.get? (s.ptn n).objs u.obj).any (fun o => (o.slot t).readers == 0)
    if u.stage != .draining || k.stage != .running || !idle || (s.ptn n).halted ||
        !s.coresFree n q u.ctx units (tbSide a.table != 0) then s
    else
      let s1 := (s.dealt n units).foldl (fun y p => y.takeEngine c u.ctx p) (s.setUpd { u with stage := .open_ })
      let s2 := ((u.obj, t) :: updWrites a.table).foldl (fun y w => y.writes c w) s1
      match u.owners.foldl (fun (y : Option State) o => y.bind (fun z => z.sendOpen u a.w o)) (some s2) with
      | none => s2.updFail c St.unreachable 0
      | some s3 =>
        let es := (fromTo u.first u.last).flatMap (unitElems a.w (tbSide a.table))
        let as := ((es.filter a.g.inBounds).flatMap (fun v =>
          let i := a.g.index v
          let x := addrNat (a.g.byteAddr i)
          (List.range (elemBytes a.g.fmt)).map (x + ·) ++ (if isL a.g.fmt then [addrNat (a.g.scaleAddr i)] else []))).eraseDups
        let far := (if a.g.space = 0 then as else []) ++ a.gscaleAt
        match s3.xlFails (whoOf n u.ctx) ⟨true, false⟩ far with
        | some st => s3.updFail c st 0
        | none =>
          let core := ((s3.coresOf n).head?).getD 0
          let g := s3.gather c u.ctx core [] 0 far
          let g := if a.g.space = 0 || g.bad then g else g.s.gather c u.ctx core g.got a.g.space as
          if g.bad then g.s.updFail c St.uncorrectable 0
          else
            let p := g.s.ptn n
            let s4 := g.s.setPtn n { p with moves := p.moves ++ [⟨c, core, g.got, false, 0⟩] }
            (s4.sendReqs core (s4.remoteReqs c u.ctx (readRuns (s4.placeOf (whoOf n u.ctx)) false far))).updStep c
  | _, _ => s

/-- SLOT_DRAINED (R176). -/
def execSlotDrained (n q e : Nat) (s : State) : Out := onWf (.slotDrained n q e) (s.slotDrained n q e)

/-- Whether every byte of a unit has come from its peer. -/
def Upd.has (u : Upd) (a : UpdArgs) (q : Nat) : Bool :=
  (unitAddrs a.w (tbSide a.table) q).all (fun x => u.arrived.contains (x % 2 ^ 52))

/-- The units of the peers. -/
def Upd.theirs (u : Upd) : List Nat := fromTo 0 u.first ++ fromTo u.last u.nu

/-- PUBLISH: every unit is present and visible (R176 step 5, R195 step 8); STEP + 1 is written into the table (R190).
Log entry 60 (DEDUCED). -/
def State.publish (s : State) (n q e : Nat) : State :=
  let c : Cid := ⟨n, q, e⟩
  match s.upd? c, s.cmd? c with
  | some u, some k =>
    let a := updArgs k.args
    if u.stage != .computed || u.published || k.stage != .running || !u.theirs.all (u.has a) then s
    else match Tab.get? (s.ptn n).objs u.obj with
      | none => s
      | some o => match s.translate (whoOf n u.ctx) (eBody k.raw 16 8 + 0x18) ⟨false, true⟩ with
        | .no st => s.updFail c st 0
        | .ok pl =>
          let s1 := (s.setObj n u.obj { o with gen := (u.gen + 1) % 2 ^ 32 }).raise .generation
            (mkHandle 3 (Tab.get (s.ptn n).oGens u.obj 0) u.obj) (u.gen + 1)
          let s2 := s1.setUpd { u with published := true }
          let s3 := (s2.noteWrite c pl).store pl (natLe 4 (tbl a.table 0x18 + 1))
          match s3.cmd? c with
          | none => s3
          | some k' => s3.setCmd n { k' with
              status := 0, detail := BitVec.ofNat 32 u.stepped, info := BitVec.ofNat 64 ((u.gen + 1) % 2 ^ 32) }
  | _, _ => s

/-- PUBLISH (R195). -/
def execPublish (n q e : Nat) (s : State) : Out := onWf (.publish n q e) (s.publish n q e)

/-- UPDATE_PEER_TIMEOUT: an update that has sent its open notices and lacks units of its peers fails (R197). -/
def State.peerTimeout (s : State) (n q e : Nat) : State :=
  let c : Cid := ⟨n, q, e⟩
  match s.upd? c, s.cmd? c with
  | some u, some k =>
    let a := updArgs k.args
    if u.stage == .draining || u.published || k.stage != .running || u.theirs.all (u.has a) then s
    else s.updFail c St.updatePeerTimeout (u.theirs.filter (u.has a)).length
  | _, _ => s

/-- UPDATE_PEER_TIMEOUT (R197). -/
def execUpdatePeerTimeout (n q e : Nat) (s : State) : Out := onWf (.updatePeerTimeout n q e) (s.peerTimeout n q e)

/-! ### PRECOND_ROOT (R202 to R205, R392) -/

/-- P. -/
def rootP (raw : List Byte) : Nat := bits (eBody raw 8 4) 2 0
/-- MAX_ITER, as R392's bits [8:3] hold it: 1 to 63, so R203's 64 has no code and code 0 is outside the range (log entry
121). -/
def rootIter (raw : List Byte) : Nat := bits (eBody raw 8 4) 8 3
/-- Block side. -/
def rootSide (raw : List Byte) : Nat := pbSide (bits (eBody raw 8 4) 11 9)

/-- The checks of a PRECOND_ROOT (R392, R203, R379). -/
def State.checkRoot (s : State) (n : Nat) (k : Cmd) : Fetched :=
  let raw := k.raw
  let w := eBody raw 8 4
  let tol := eBody raw 12 4
  let eps := eBody raw 16 4
  let st := eBody raw 0 4
  let ro := eBody raw 4 4
  let bad := !(rootP raw == 1 || rootP raw == 2 || rootP raw == 4) || rootIter raw == 0 || 64 < rootIter raw ||
    bits w 11 9 == 0 || 5 < bits w 11 9 || bits w 31 12 != 0 || tol < 0x3B000000 || 0x3F000000 < tol ||
    (2 ^ 31 < eps) || !f32.isFin eps || rootBlocks raw == 0 || bits (eBody raw 20 4) 31 20 != 0 || !bodyClear raw 24
  let need := rootBlocks raw * rootSide raw * rootSide raw * 4
  let small (h : Nat) : Bool := (s.obj? n h).any (fun o => o.bytes < need)
  let busy := (s.ptn n).updates.any (fun u => (s.cmd? u.cid).any (fun x =>
    x.stage == .running && (updWrites (updArgs x.args).table).any (fun o => o.1 == hIndex st || o.1 == hIndex ro)))
  (((Fetched.check ⟨s, 0, []⟩ bad St.malformed).check
    ([st, ro].any (fun h => hKind h != 3 || !s.validHandle n k.seq h)) St.handleInvalid).check
    (hIndex st == hIndex ro || small st || small ro) St.descriptorInvalid).check busy St.illegalState

/-- Sums numbers pairwise in an order the spec leaves open (log entry 16): the first of a free pair at each step. -/
def freeSum (draw : Nat) : Nat → List Nat → Nat
  | 0, l => l.headD 0
  | fuel + 1, l =>
    match l with
    | [] => 0
    | [x] => x
    | x :: rest =>
      let i := Config.choice (draw + fuel) % rest.length
      let y := (rest[i]?).getD 0
      freeSum draw fuel (dropAt rest i ++ [f32.add x y])

/-- The greatest |m − i| (R202), as the reduction unit takes a maximum. -/
def offIdentity (m : Mat) : Nat :=
  let d := m.zipIdx.flatMap (fun r => r.1.zipIdx.map (fun x => abs32 (f32.sub x.1 (if x.2 = r.2 then one32 else 0))))
  (d.drop 1).foldl (f32.minmax true) (d.headD 0)

/-- binary32 of a small number. -/
def natF32 (x : Nat) : Nat := f32.near (Val.ofInt x)

/-- The coupled Newton iteration: the root and the iteration it succeeded at, or none (R202), with the losses of the products'
conversions (R91). -/
def newton (p tol : Nat) : Nat → Nat → Mat → Mat → Nat → Nat → Nat × Nat → Option (Mat × Nat) × (Nat × Nat)
  | 0, _, _, _, _, _, loss => (none, loss)
  | fuel + 1, k, x, m, rPrev, rises, loss =>
    let n := m.rows
    let t := (matOf n n (fun i j => f32.sub (if i = j then natF32 (p + 1) else 0) (m.at_ i j))).each (fun v => f32.div v (natF32 p))
    let half (a : Mat) : Mat := (Mat.zip f32.add a a.transpose).each (fun v => f32.div v (natF32 2))
    let x1 := mulLoss x t loss
    let t2 := if 2 ≤ p then mulLoss t t x1.2 else (t, x1.2)
    let tp := if p = 4 then mulLoss t2.1 t2.1 t2.2 else t2
    let mm := mulLoss tp.1 m tp.2
    let m1 := half mm.1
    let x2 := half x1.1
    let r := offIdentity m1
    if !f32.isFin r then (none, mm.2)
    else if r ≤ tol then (some (x2, k), mm.2)
    else
      let up := if rPrev < r then rises + 1 else 0
      if up = 2 then (none, mm.2) else newton p tol fuel (k + 1) x2 m1 r up mm.2

/-- One block of a PRECOND_ROOT (R202): z^(1/4) is the square root taken twice (log entry 16). -/
def rootBlock (draw p iter tol eps : Nat) (a0 : Mat) : Option (Mat × Nat) × (Nat × Nat) :=
  let side := a0.rows
  let a := matOf side side (fun i j => if i = j then f32.add (a0.at_ i j) eps else a0.at_ i j)
  let sq := a.flatten.map (fun v => f32.mul v v)
  let fro := f32.sqrt (freeSum draw sq.length sq)
  if !f32.isFin fro || abs32 fro = 0 then (none, (0, 0))
  else
    let z := f32.div (natF32 (p + 1)) (f32.mul (natF32 2) fro)
    let y := if p = 1 then z else if p = 2 then f32.sqrt z else f32.sqrt (f32.sqrt z)
    let x := matOf side side (fun i j => if i = j then y else 0)
    let m := a.each (fun v => f32.mul z v)
    newton p tol iter 1 x m (offIdentity m) 0 (0, 0)

/-- The least side of a matrix outside whose top left corner a block holds zeros alone; at least 1. -/
def leastSide (side : Nat) (bs : List Byte) : Nat :=
  (List.range (side * side)).foldl (fun m k => if leAt bs (4 * k) 4 = 0 then m else max m (max (k / side) (k % side) + 1)) 1

/-- The running PRECOND_ROOT of a command. -/
def State.root? (s : State) (c : Cid) : Option RootJob := (s.ptn c.ptn).roots.find? (fun r => r.cid == c)

/-- Replaces the running PRECOND_ROOT of its command. -/
def State.setRoot (s : State) (r : RootJob) : State :=
  let x := s.ptn r.cid.ptn
  s.setPtn r.cid.ptn { x with roots := x.roots.map (fun y => if y.cid = r.cid then r else y) }

/-- Block b of a PRECOND_ROOT on core p: its root is written only when it succeeds (R202, R204, R205). R392 names no size of an
edge block, whose matrix fills the top left corner (R199): the size is a free one that leaves nothing but zeros outside (log
entry 122). -/
def State.rootStep (s : State) (r : RootJob) (raw : List Byte) (p : Nat) : Fetched × RootJob :=
  let n := r.cid.ptn
  let side := rootSide raw
  let at_ := r.next * side * side * 4
  let f := s.unitRead n r.ctx (eBody raw 0 4) [(at_, side * side * 4)]
  if f.status != 0 then (f, r)
  else
    let least := leastSide side f.bytes
    let dim := least + Config.choice f.s.fresh % (side + 1 - least)
    let a : Mat := matOf dim dim (fun i j => (statMat side side f.bytes).at_ i j)
    let o := rootBlock (f.s.fresh + 1) (rootP raw) (rootIter raw) (eBody raw 12 4) (eBody raw 16 4) a
    let s1 := (f.s.drewMany (side * side + 1)).countLoss p o.2
    match o.1 with
    | none => (⟨s1, 0, []⟩, { r with next := r.next + 1, failed := r.failed + 1 })
    | some (m, k) => (⟨s1.objWrite n (hIndex (eBody raw 4 4)) 0 at_ (statBytes side m), 0, []⟩,
        { r with next := r.next + 1, most := max r.most k })

/-- A PRECOND_ROOT runs its next block, and ends after the last one (R204, R205). -/
def State.rootRun (s : State) (c : Cid) : State :=
  match s.root? c, s.cmd? c with
  | some r, some k =>
    let used := s.dealt c.ptn (rootBlocks k.raw)
    if k.stage != .running || (s.ptn c.ptn).halted || !s.holdsCores c used then s
    else
      let x := s.rootStep r k.raw ((used[r.next % max 1 used.length]?).getD 0)
      let s1 := x.1.s.setRoot x.2
      if x.1.status = 0 ∧ x.2.next < rootBlocks k.raw then s1
      else
        let s2 := used.foldl (fun y p => y.leaveEngine p true) s1
        if x.1.status != 0 then s2.endCmd c x.1.status 0 0
        else s2.endCmd c (if x.2.failed = 0 then 0 else St.rootNotConverged) x.2.failed x.2.most
  | _, _ => s

/-- PRECOND_ROOT: it takes the partition's cores and runs its first block; the row of a running one runs its next block, a
block being one tile for pre-emption and stopping (R205; log entry 123). -/
def State.rootStart (s : State) (n q e : Nat) : State :=
  let c : Cid := ⟨n, q, e⟩
  match s.starting n q e 7 with
  | none => s.rootRun c
  | some (k, x) =>
    let s1 := (s.dealt n (rootBlocks k.raw)).foldl (fun y p => y.takeEngine c x.ctx p) (s.began n k)
    let s2 := s1.writes c (hIndex (eBody k.raw 4 4), 0)
    let p := s2.ptn n
    (s2.setPtn n { p with roots := p.roots ++ [⟨c, x.ctx, 0, 0, 0⟩] }).rootRun c

/-- PRECOND_ROOT (R392). -/
def execPrecondRoot (n q e : Nat) (s : State) : Out := onWf (.precondRoot n q e) (s.rootStart n q e)

end Sys2Proof.Machine
end

