-- ==== Sys2Proof/Machine/Objects.lean ====
section
/-! DEFINITION. The object requests of the admin queue (R362 to R367), stopping a command (R354), and freeing what is
destroyed (R333, R364). -/

namespace Sys2Proof.Machine

/-! ### Scrubbing -/

/-- Sets n bytes from a place on to zero, every unit covered with a good check word (R364, R460, R485). -/
def State.scrub (s : State) (pl : Place) (n : Nat) : State :=
  let u := unitOf pl
  let hit (v : Nat) : Bool := u ≤ v && v < u + ceilDiv n 128
  let s1 : State := { s with flips := s.flips.filter (fun e => !hit e.1), poison := s.poison.filter (fun v => !hit v) }
  match pl with
  | .chan c q => { s1 with cmem := Mem.clear s1.cmem (cmemKey c q) (cmemKey c q + n) }
  | .host a => { s1 with hmem := Mem.clear s1.hmem a (a + n) }
  | .remote _ _ => s1

/-- Sets the hold bytes of listed quarters to zero and drops their remote-cache lines (R281, R460, R485). -/
def State.scrubHold (s : State) (quarters : List Nat) : State :=
  let mine (key : Nat) : Bool := quarters.any (fun k => holdKey k 0 ≤ key && key < holdKey (k + 1) 0)
  { s with
    hold := s.hold.filter (fun e => !quarters.contains e.1)
    flips := s.flips.filter (fun e => !mine e.1)
    cache := s.cache.filter (fun l => !quarters.contains (4 * l.die + l.quarter)) }

/-- Scrubs a partition's scratch, leaving its remote cache (R281). -/
def State.scrubScratch (s : State) (n : Nat) : State := { s.scrubHold (s.quartersOf n) with cache := s.cache }

/-! ### Naming and freeing (R364, R333) -/

/-- Whether a command in progress names a thing by one of listed handles, or may still name it in a body not yet read: one
read before its destruction and not past its body check (R364). -/
def State.named (s : State) (n dying : Nat) (hs : List Nat) : Bool :=
  s.ptns.any (fun p => p.2.cmds.any (fun k => k.names.any (fun x => hs.any (fun h => x == nameOf n h)) ||
    (p.1 == n && k.seq < dying && (k.stage == .read || k.stage == .waiting))))

/-- Whether a running dispatch or update uses an object of partition n without naming it. -/
def Ptn.usesObj (x : Ptn) (i : Nat) : Bool :=
  x.disps.any (fun d => d.bounds.any (fun b => b.obj == i)) || x.updates.any (fun u => u.obj == i)

/-- Removes the mappings of an object from every context of its partition, its pins and its sinks (R364). -/
def State.unmapAll (s : State) (n i h : Nat) : State :=
  let fix (c : Ctx) : Ctx :=
    if c.ptn = n then { c with
      l3 := c.l3.filter (fun e => pteObj e.2 != i)
      l4 := c.l4.filter (fun e => pteObj e.2 != i)
      pins := c.pins.filter (fun e => e.2.obj != i)
      sink := c.sink.filter (· != h) }
    else c
  { s with ctxs := Tab.mapVals fix s.ctxs }

/-- Frees a memory object (R364, R333): unmapped, its pages scrubbed, its generation advanced. -/
def State.freeObj (s : State) (n i : Nat) (o : MemObj) : State :=
  let g : Nat := Tab.get (s.ptn n).oGens i 0
  let s1 := s.unmapAll n i (mkHandle 3 g i)
  let s2 := (List.range o.bases.length).foldl (fun t k => match t.objPlace n o k 0 with
    | none => t
    | some pl => t.scrub pl o.pageBytes) s1
  let x := s2.ptn n
  s2.setPtn n { x with
    objs := Tab.erase x.objs i, oGens := Tab.set x.oGens i ((g + 1) % 256), opened := x.opened.filter (fun o => o.obj != i) }

/-- Frees a program object. -/
def State.freeProg (s : State) (n i : Nat) (pr : Prog) : State :=
  let s1 := pr.frames.foldl (fun t b => match t.ptnPlace n (4096 * b) with
    | none => t
    | some pl => t.scrub pl 65536) s
  let x := s1.ptn n
  s1.setPtn n { x with progs := Tab.erase x.progs i, pGens := Tab.set x.pGens i ((Tab.get x.pGens i 0 + 1) % 256) }

/-- Frees a fence. -/
def State.freeFence (s : State) (n i : Nat) : State :=
  let x := s.ptn n
  s.setPtn n { x with fences := Tab.erase x.fences i, fGens := Tab.set x.fGens i ((Tab.get x.fGens i 0 + 1) % 256) }

/-- Frees a queue (R365, R366): its doorbell line is no longer registered. -/
def State.freeQueue (s : State) (n q : Nat) : State :=
  let x := s.ptn n
  s.setPtn n { x with queues := Tab.erase x.queues q, qGens := Tab.set x.qGens q ((Tab.get x.qGens q 0 + 1) % 256) }

/-- Marks a thing destroyed at an order; one already so keeps its own (R364). -/
def dieAt (old seq : Nat) : Nat := if old = 0 then seq else old

/-- Frees what partition n destroys and no command names any longer (R364). Log entry 73 (DEDUCED). -/
def State.reap (s : State) (n : Nat) : State :=
  let x := s.ptn n
  let s1 := x.objs.foldl (fun t e =>
    let g : Nat := Tab.get x.oGens e.1 0
    let hs := [3, 6, 7, 8, 9].map (fun k => mkHandle k g e.1)
    if e.2.dying != 0 && !t.named n e.2.dying hs && !x.usesObj e.1 then t.freeObj n e.1 e.2 else t) s
  let s2 := x.progs.foldl (fun t e =>
    if e.2.dying != 0 && !t.named n e.2.dying [mkHandle 4 (Tab.get x.pGens e.1 0) e.1] && !x.disps.any (fun d => d.prog == e.1)
    then t.freeProg n e.1 e.2 else t) s1
  x.fences.foldl (fun t e =>
    if e.2.dying != 0 && !t.named n e.2.dying [mkHandle 5 (Tab.get x.fGens e.1 0) e.1] then t.freeFence n e.1 else t) s2

/-- Frees what every partition destroys and no command names any longer. -/
def State.reapAll (s : State) : State := (List.range 16).foldl (fun t n => t.reap n) s

/-! ### Stopping a command (R354, R377) -/

/-- Stops a running command, or completes one that has not started, with the status the cause names. A command that has
ended keeps its own. -/
def State.stopCmd (s : State) (n : Nat) (k : Cmd) (status : Nat) : State :=
  let c : Cid := ⟨n, k.queue, k.entry⟩
  let op := eOpcode k.raw
  if k.stage = .ended then s
  else if k.stage != .running then s.failCmd n k status
  else if op = 2 then
    (match s.disp? c with
    | none => s.endCmd c status 0 0
    | some d => if d.ended = d.blocks then s else (s.endDisp d status 0))
  else if op = 6 then s.updFail c status 0
  else
    let x := s.ptn n
    ((s.setPtn n { x with fixRuns := x.fixRuns.filter (fun f => f.cid != c) }).dropMove c).endCmd c status 0 0

/-- Stops every command of the queues of partition n that pass a test. -/
def State.stopQueues (s : State) (n status : Nat) (which : Nat → Bool) : State :=
  ((s.ptn n).cmds.filter (fun k => which k.queue)).foldl (fun t k => t.stopCmd n k status) s

/-- Changes the queues of partition n that pass a test. -/
def State.mapQueues (s : State) (n : Nat) (which : Nat → Queue → Bool) (f : Queue → Queue) : State :=
  let x := s.ptn n
  s.setPtn n { x with queues := x.queues.map (fun e => if which e.1 e.2 then (e.1, f e.2) else e) }

/-- The work queues of a context, of one owner tag or of all. -/
def Ptn.queuesOf (x : Ptn) (c : CtxId) (tag : Option Word) : List Nat :=
  (x.queues.filter (fun e => e.1 != 0 && e.2.ctx == c && tag.all (· == e.2.owner))).map (·.1)

/-- Those of them that are being revoked (R366): not one made with the same tag since. -/
def Ptn.revokedOf (x : Ptn) (c : CtxId) (tag : Option Word) : List Nat :=
  (x.queuesOf c tag).filter (fun q => (Tab.get? x.queues q).any (·.revoked))

/-- The fences of a context, of one owner tag or of all. -/
def Ptn.fencesOf (x : Ptn) (c : CtxId) (tag : Option Word) : List Nat :=
  (x.fences.filter (fun e => e.2.ctx == c && tag.all (· == e.2.owner))).map (·.1)

/-- Those of them that a revocation or a teardown names. -/
def Ptn.deadFences (x : Ptn) (c : CtxId) (tag : Option Word) : List Nat :=
  (x.fencesOf c tag).filter (fun i => (Tab.get? x.fences i).any (·.revoked))

/-- Steps 1 to 3 of R366 over the queues of a context, its fences marked for step 4: the queues read no more, and their commands
end with a status. -/
def State.revokeQueues (s : State) (n : Nat) (c : CtxId) (tag : Option Word) (status : Nat) : State :=
  let x := s.ptn n
  let qs := x.queuesOf c tag
  let fs := x.fencesOf c tag
  ((s.setPtn n { x with fences := x.fences.map (fun e => if fs.contains e.1 then (e.1, { e.2 with revoked := true }) else e)
    }).mapQueues n (fun q _ => qs.contains q) (fun y => { y with revoked := true })).stopQueues n status (fun q => qs.contains q)

/-- Step 4 of R366: the fences are signalled with their error flag set, whatever their PENDING. -/
def State.signalAll (s : State) (n : Nat) (is : List Nat) : State :=
  is.foldl (fun t i => match Tab.get? (t.ptn n).fences i with
    | none => t
    | some f => if f.signalled && f.error then t else t.signalFence n i { f with error := true }) s

/-- Empties the pins of a context that pass a test, their counts decremented (R175). Log entry 73 (DEDUCED). -/
def State.dropPins (s : State) (n : Nat) (c : CtxId) (which : Pin → Bool) : State :=
  match s.ctx? c with
  | none => s
  | some x =>
    let s1 := (x.pins.filter (fun e => which e.2)).foldl (fun t e => t.dropReader n e.2.obj e.2.gen) s
    s1.setPins c (fun p => p.filter (fun e => !which e.2))

/-! ### The body check of an object request (R362) -/

/-- Reserved encodings of an object request (R362, R18, R356): fields not listed are 0, rings and doorbell lines aligned
and in host memory. Log entry 54 (DEDUCED). -/
def requestReserved (raw : List Byte) : Bool :=
  let op := eOpcode raw
  let w (i : Nat) : Nat := eBody raw (4 * i) 4
  let sq := bits (w 1) 7 3
  let cq := bits (w 1) 12 8
  if op = 0xE0 then 2 ^ 20 ≤ w 0 || !bodyClear raw 4
  else if op = 0xE2 then
    bits (w 1) 1 0 == 3 || bits (w 1) 31 24 != 0 || sq < 6 || 16 < sq || cq < 6 || 16 < cq ||
    eBody raw 8 8 % 4096 != 0 || eBody raw 16 8 % 4096 != 0 || eBody raw 24 8 % 64 != 0 ||
    hostBytes < eBody raw 8 8 + 64 * 2 ^ sq || hostBytes < eBody raw 16 8 + 32 * 2 ^ cq || hostBytes < eBody raw 24 8 + 64 ||
    !bodyClear raw 36
  else if op = 0xE5 then 1 < w 1 || !bodyClear raw 12
  else if op = 0xE7 then 1 < w 1 || !bodyClear raw 8
  else if op = 0xE8 then 15 < w 1 || w 2 == 0 || !bodyClear raw 12
  else if op = 0xEA then 7 < w 1 || !bodyClear raw 8
  else if op = 0xEB then !bodyClear raw 8
  else !bodyClear raw 4

/-- The KINDs of the handle that an object request names; none for CTX_CREATE. Log entry 55 (DEDUCED). -/
def requestKinds (op : Nat) : List Nat :=
  if op = 0xE0 then []
  else if op = 0xE3 || op = 0xE4 then [2]
  else if op = 0xE6 || op = 0xE7 then [5]
  else if op = 0xE9 then [3, 4]
  else if op = 0xEA then [3]
  else [1]

/-- Whether a doorbell line is registered by any queue of the package (R358). -/
def State.lineTaken (s : State) (a : Nat) : Bool :=
  s.ptns.any (fun p => p.2.queues.any (fun e => e.2.registered && e.2.doorbell == a))

/-- What refuses an object request in the present state (R362, R344, R379). A slot that the object does not have is a
reserved value. Log entry 54 (DEDUCED). -/
def State.requestState (s : State) (n : Nat) (raw : List Byte) : Nat :=
  let op := eOpcode raw
  let h := eBody raw 0 4
  let x := s.ptn n
  if op = 0xE2 && s.lineTaken (eBody raw 24 8) then St.doorbellInvalid
  else if op = 0xE3 && hIndex h = 0 then St.illegalState
  else if op = 0xE4 && !(Tab.get? x.queues (hIndex h)).any (·.stopped) then St.illegalState
  else if op = 0xE7 && (Tab.get? x.fences (hIndex h)).any (fun f => f.pending != 0) then St.illegalState
  else if op = 0xEA then
    match s.obj? n h with
    | none => St.handleInvalid
    | some o =>
      let k := eBody raw 4 4
      if max 1 o.slots.length ≤ k then St.malformed
      else if (o.slot k).writers != 0 then St.illegalState else 0
  else 0

/-- The checks of an object request: encodings, its handle, the present state. -/
def State.checkRequest (s : State) (n : Nat) (k : Cmd) : Fetched :=
  let h := eBody k.raw 0 4
  let kinds := requestKinds (eOpcode k.raw)
  let st := s.requestState n k.raw
  ((Fetched.check ⟨s, 0, []⟩ (requestReserved k.raw) St.malformed).check
    (!kinds.isEmpty && !(kinds.contains (hKind h) && s.validHandle n k.seq h)) St.handleInvalid).check (st != 0) st

/-! ### Running the requests -/

/-- An admin request, if it starts now under an opcode: its command begun, its raw entry and name; one that the present
state refuses by now ends with that status instead (R379). -/
def State.request (s : State) (n e op : Nat) (run : State → Cid → Cmd → State) : State :=
  match s.starting n 0 e op with
  | none => s
  | some (k, _) =>
    let s1 := s.began n k
    let c : Cid := ⟨n, 0, e⟩
    let st := s1.requestState n k.raw
    match s1.cmd? c with
    | none => s1
    | some k1 => if st != 0 then s1.endCmd c st 0 0 else run s1 c k1

/-- The context that a request's first handle names. -/
def ctxNamed (raw : List Byte) : CtxId :=
  ⟨hIndex (eBody raw 0 4), hGen (eBody raw 0 4)⟩

/-- CTX_CREATE: an id free under R336, which the Peray chooses (R333, R334), and a place for its level 1 table (R337). -/
def State.ctxCreate (s : State) (n : Nat) (c : Cid) (k : Cmd) : State :=
  match s.pickIndex s.ctxs 4096 (fun i => !s.cooling.contains i) with
  | none => s.endCmd c St.outOfContexts 0 0
  | some i =>
    let g : Nat := Tab.get s.ctxGens i 0
    ((s.setCtx i ⟨g, n, eBody k.raw 0 4, [], [], [], [], [], [], 0, [], s.drawn.placeTables n 65536 [(1, 0)]⟩).drewMany 2).endCmd
      c 0 0 (mkHandle 1 g i)

/-- CTX_CREATE (R362). -/
def execCtxCreate (n e : Nat) (s : State) : Out :=
  onWf (.ctxCreate n e) (s.request n e 0xE0 (fun t c k => t.ctxCreate n c k))

/-- CTX_DESTROY, steps 1 and 2 of R367: every queue of the context is revoked; COMMAND_RETIRE goes on once their commands have
retired. -/
def State.ctxDestroy (s : State) (n : Nat) (c : Cid) (k : Cmd) : State :=
  let x := ctxNamed k.raw
  match s.ctx? x with
  | none => s.endCmd c St.handleInvalid 0 0
  | some t => (s.setCtx x.id { t with torn := dieAt t.torn k.startSeq, by_ := [c] }).revokeQueues n x none St.ownerGone

/-- CTX_DESTROY (R367). -/
def execCtxDestroy (n e : Nat) (s : State) : Out :=
  onWf (.ctxDestroy n e) (s.request n e 0xE1 (fun t c k => t.ctxDestroy n c k))

/-- QUEUE_CREATE: a free work queue number, which the Peray chooses; counts at 0 (R357). One read before its context's CTX_DESTROY
started makes a queue that is revoked from the start (R364, R367). -/
def State.queueCreate (s : State) (n : Nat) (c : Cid) (k : Cmd) : State :=
  let raw := k.raw
  let w := eBody raw 4 4
  let x := s.ptn n
  match s.pickIndex x.queues 64 (fun q => q != 0) with
  | none => s.endCmd c St.outOfQueues 0 0
  | some q =>
    let y : Queue := {
      ctx := ctxNamed raw, cls := bits w 1 0, stopOnError := bit w 2, vector := bits w 23 13,
      owner := BitVec.ofNat 32 (eBody raw 32 4), sqLog2 := bits w 7 3, cqLog2 := bits w 12 8, sqBase := eBody raw 8 8,
      cqBase := eBody raw 16 8, doorbell := eBody raw 24 8, registered := true, sqHead := 0, sqTail := 0, cqHead := 0,
      records := 0, held := [], stopped := false, revoked := (s.ctx? (ctxNamed raw)).any (fun t => t.torn != 0), dying := 0
      slotWait := false, seen := BitVec.ofNat 64 (leAt (s.hostRead (eBody raw 24 8) 8) 0 8) }
    ((s.setQueue n q y).drawn).endCmd c 0 0 (mkHandle 2 (Tab.get x.qGens q 0) q)

/-- QUEUE_CREATE (R362). -/
def execQueueCreate (n e : Nat) (s : State) : Out :=
  onWf (.queueCreate n e) (s.request n e 0xE2 (fun t c k => t.queueCreate n c k))

/-- QUEUE_DESTROY (R365): the queue is freed once its commands have retired and its records are written. -/
def State.queueDestroy (s : State) (n : Nat) (c : Cid) (k : Cmd) : State :=
  let q := hIndex (eBody k.raw 0 4)
  (((s.mapQueues n (fun i _ => i == q) (fun y => { y with dying := dieAt y.dying k.startSeq })).stopQueues n St.queueDestroyed (· == q)).endCmd
    c 0 0 0).reapQueue n q

/-- QUEUE_DESTROY (R365). -/
def execQueueDestroy (n e : Nat) (s : State) : Out :=
  onWf (.queueDestroy n e) (s.request n e 0xE3 (fun t c k => t.queueDestroy n c k))

/-- QUEUE_RESUME (R355). -/
def State.queueResume (s : State) (n : Nat) (c : Cid) (k : Cmd) : State :=
  (s.mapQueues n (fun i _ => i == hIndex (eBody k.raw 0 4)) (fun y => { y with stopped := false })).endCmd c 0 0 0

/-- QUEUE_RESUME (R355). -/
def execQueueResume (n e : Nat) (s : State) : Out :=
  onWf (.queueResume n e) (s.request n e 0xE4 (fun t c k => t.queueResume n c k))

/-- FENCE_CREATE (R342). Log entry 56 (DEDUCED). -/
def State.fenceCreate (s : State) (n : Nat) (c : Cid) (k : Cmd) : State :=
  let raw := k.raw
  let x := s.ptn n
  match s.pickIndex x.fences 16384 (fun _ => true) with
  | none => s.endCmd c St.outOfFences 0 0
  | some i =>
    ((s.setFence n i ⟨ctxNamed raw, BitVec.ofNat 32 (eBody raw 8 4), bit (eBody raw 4 4) 0, false, 0, [], 0, false⟩).drawn).endCmd
      c 0 0 (mkHandle 5 (Tab.get x.fGens i 0) i)

/-- FENCE_CREATE (R342). -/
def execFenceCreate (n e : Nat) (s : State) : Out :=
  onWf (.fenceCreate n e) (s.request n e 0xE5 (fun t c k => t.fenceCreate n c k))

/-- FENCE_DESTROY (R364): its handle is invalid for entries read from now on. -/
def State.fenceDestroy (s : State) (n : Nat) (c : Cid) (k : Cmd) : State :=
  let i := hIndex (eBody k.raw 0 4)
  match Tab.get? (s.ptn n).fences i with
  | none => s.endCmd c St.handleInvalid 0 0
  | some f => (s.putFence n i { f with dying := dieAt f.dying k.startSeq }).endCmd c 0 0 0

/-- FENCE_DESTROY (R364). -/
def execFenceDestroy (n e : Nat) (s : State) : Out :=
  onWf (.fenceDestroy n e) (s.request n e 0xE6 (fun t c k => t.fenceDestroy n c k))

/-- FENCE_RESET (R344). -/
def State.fenceReset (s : State) (n : Nat) (c : Cid) (k : Cmd) : State :=
  let i := hIndex (eBody k.raw 0 4)
  match Tab.get? (s.ptn n).fences i with
  | none => s.endCmd c St.handleInvalid 0 0
  | some f =>
    let f1 := { f with error := false }
    (if bit (eBody k.raw 4 4) 0 then s.signalFence n i f1 else s.setFence n i { f1 with signalled := false }).endCmd c 0 0 0

/-- FENCE_RESET (R344). -/
def execFenceReset (n e : Nat) (s : State) : Out :=
  onWf (.fenceReset n e) (s.request n e 0xE7 (fun t c k => t.fenceReset n c k))

/-- MEM_CREATE (R338, R563): pages and index of the Peray's choice; every slot settled, generation 0 (log entry 19). -/
def State.memCreate (s : State) (n : Nat) (c : Cid) (k : Cmd) : State :=
  let raw := k.raw
  let w := eBody raw 4 4
  let slots := bits w 3 2 + 1
  let pages := eBody raw 8 4
  let size := if bit w 0 then 2097152 else 65536
  match if bit w 1 then s.hostPages size (pages * slots) else s.computePages n size (pages * slots) with
  | none => s.endCmd c St.outOfMemory 0 0
  | some (s1, bases) => match s1.pickIndex (s1.ptn n).objs 1048576 (fun _ => true) with
    | none => s1.endCmd c St.outOfMemory 0 0
    | some i =>
      let o : MemObj := ⟨ctxNamed raw, bit w 0, bit w 1, pages, bases, List.replicate slots ⟨.settled, 0, false, 0⟩, 0, false, 0⟩
      ((s1.setObj n i o).drawn).endCmd c 0 0 (mkHandle 3 (Tab.get (s1.ptn n).oGens i 0) i)

/-- MEM_CREATE (R338). -/
def execMemCreate (n e : Nat) (s : State) : Out :=
  onWf (.memCreate n e) (s.request n e 0xE8 (fun t c k => t.memCreate n c k))

/-- MEM_DESTROY (R364). -/
def State.memDestroy (s : State) (n : Nat) (c : Cid) (k : Cmd) : State :=
  let h := eBody k.raw 0 4
  let x := s.ptn n
  let s1 := if hKind h = 3 then
      (match Tab.get? x.objs (hIndex h) with
      | none => s
      | some o => s.setObj n (hIndex h) { o with dying := dieAt o.dying k.startSeq })
    else
      (match Tab.get? x.progs (hIndex h) with
      | none => s
      | some o => s.setPtn n { x with progs := Tab.set x.progs (hIndex h) { o with dying := dieAt o.dying k.startSeq } })
  s1.endCmd c 0 0 0

/-- MEM_DESTROY (R364). -/
def execMemDestroy (n e : Nat) (s : State) : Out :=
  onWf (.memDestroy n e) (s.request n e 0xE9 (fun t c k => t.memDestroy n c k))

/-- MEM_SETTLE (R363): a logbook entry that names the object and its context; the change and the end of the request follow
when the entry is stored (R525). The slot stands in NEW, the context in OLD (log entry 19). -/
def State.memSettle (s : State) (n : Nat) (c : Cid) (k : Cmd) : State :=
  let h := eBody k.raw 0 4
  let ctx := ((s.obj? n h).map (·.ctx)).getD ⟨0, 0⟩
  let slot := eBody k.raw 4 4
  s.pend { Sys2Proof.Machine.pending 2 (BitVec.ofNat 64 h) (BitVec.ofNat 64 (mkHandle 1 ctx.gen ctx.id)) (BitVec.ofNat 64 slot)
    (.settle n (hIndex h) slot) with reply := [n, 0, c.entry] }

/-- MEM_SETTLE (R363). -/
def execMemSettle (n e : Nat) (s : State) : Out :=
  onWf (.memSettle n e) (s.request n e 0xEA (fun t c k => t.memSettle n c k))

/-- REVOKE_OWNER, steps 1 to 3 of R366; COMMAND_RETIRE goes on once the commands stopped have retired. -/
def State.revokeOwner (s : State) (n : Nat) (k : Cmd) : State :=
  s.revokeQueues n (ctxNamed k.raw) (some (BitVec.ofNat 32 (eBody k.raw 4 4))) St.ownerGone

/-- REVOKE_OWNER (R366). -/
def execRevokeOwner (n e : Nat) (s : State) : Out :=
  onWf (.revokeOwner n e) (s.request n e 0xEB (fun t _ k => t.revokeOwner n k))

/-! ### The rest of a revocation and a teardown (R366 steps 4 to 6, R367 steps 3 to 6) -/

/-- Whether any command of listed queues is still to retire. -/
def Ptn.anyOf (x : Ptn) (qs : List Nat) : Bool := x.cmds.any (fun k => qs.contains k.queue)

/-- Whether a command of a context still uses the pins of an owner tag, or started before a request and may use the
mappings made from its queues (R366 step 5). -/
def State.tagInUse (s : State) (n : Nat) (c : CtxId) (tag : Word) (start : Nat) : Bool :=
  let x := s.ptn n
  let pins := (((s.ctx? c).map (·.pins)).getD []).filter (fun e => e.2.owner == tag)
  x.disps.any (fun d => d.ctx == c && d.bounds.any (fun b => b.pin.any (fun p => pins.any (fun e => e.1 == p)))) ||
  x.cmds.any (fun k => k.queue != 0 && k.startSeq != 0 && k.startSeq < start &&
    (Tab.get? x.queues k.queue).any (fun y => y.ctx == c))

/-- Frees queues of a partition, their held records discarded and counted (R366). -/
def State.freeQueues (s : State) (n : Nat) (qs : List Nat) : State :=
  qs.foldl (fun t q => (t.countPtn n 3 (((Tab.get? (t.ptn n).queues q).map (·.held.length)).getD 0)).freeQueue n q) s

/-- Marks fences destroyed: each is freed once no command names it (R364). -/
def State.killFences (s : State) (n seq : Nat) (is : List Nat) : State :=
  let x := s.ptn n
  s.setPtn n { x with
    fences := x.fences.map (fun e => if is.contains e.1 then (e.1, { e.2 with dying := dieAt e.2.dying seq }) else e) }

/-- Steps 5 and 6 of R366: pins emptied, mappings made from the owner's queues removed, queues and fences freed, a fence once no
command names it (R364); records still held are discarded. -/
def State.revokeRest (s : State) (n : Nat) (c : CtxId) (tag : Word) : State :=
  let s1 := s.dropPins n c (fun p => p.owner == tag)
  let s2 := match Tab.get? s1.ctxs c.id with
    | none => s1
    | some t =>
      let keep (va : Nat) : Bool := Tab.get? t.owners va != some tag
      s1.setCtx c.id { t with
        l3 := t.l3.filter (fun e => keep (32 * e.1))
        l4 := t.l4.filter (fun e => keep e.1)
        owners := t.owners.filter (fun e => e.2 != tag) }
  let s3 := s2.freeQueues n ((s2.ptn n).revokedOf c (some tag))
  s3.killFences n (s3.dealer.seq + 1) ((s3.ptn n).deadFences c (some tag))

/-- Whether steps 1 to 3 of R367 are over for a context that is being torn down: no command of its queues is left, nor an object
request read before that may still make something in it (R364). -/
def Ptn.tearReady (x : Ptn) (c : CtxId) (torn : Nat) : Bool :=
  !x.anyOf (x.queuesOf c none) &&
  !x.cmds.any (fun k => k.queue == 0 && k.seq < torn && 0xE1 < eOpcode k.raw && hKind (eBody k.raw 0 4) == 1 && ctxNamed k.raw == c &&
    k.stage != .ended)

/-- Step 4 of R366 for all of a context, then steps 4 and 5 of R367: remote-cache lines dropped and the scratch scrubbed, pins
emptied, page tables scrubbed, every queue freed, and every object and fence freed once no command names it (R364). -/
def State.tearDown (s : State) (n : Nat) (c : CtxId) : State :=
  let s1 := (s.signalAll n ((s.ptn n).fencesOf c none)).dropCached (fun _ _ d _ => d == c)
  let s2 := if s1.ownsHold n c then (s1.scrubScratch n).setField (Reg.holdOwner n) 20 20 0 else s1
  let s3 := s2.dropPins n c (fun _ => true)
  let s4 := match s3.ctx? c with
    | none => s3
    | some t => s3.setCtx c.id { t with l3 := [], l4 := [], owners := [], sink := [], tabs := [] }
  let seq := s4.dealer.seq + 1
  let s5 := s4.killFences n seq ((s4.ptn n).fencesOf c none)
  let x := s5.ptn n
  (s5.setPtn n { x with
    objs := Tab.mapVals (fun o => if o.ctx = c then { o with dying := dieAt o.dying seq } else o) x.objs
    progs := Tab.mapVals (fun o => if o.ctx = c then { o with dying := dieAt o.dying seq } else o) x.progs
    opens := x.opens.filter (fun p => p.own != c) }).freeQueues n (x.queuesOf c none)

/-- Tears down every context of a partition for which steps 1 to 3 of R367 are over, then frees what no command names. -/
def State.tearAll (s : State) (n : Nat) : State :=
  (s.ctxs.foldl (fun t e =>
    if e.2.ptn = n && e.2.torn != 0 && (t.ptn n).tearReady ⟨e.1, e.2.gen⟩ e.2.torn then t.tearDown n ⟨e.1, e.2.gen⟩ else t) s).reapAll

/-- Whether a context holds nothing more (R367 step 5). -/
def Ptn.bare (x : Ptn) (c : CtxId) : Bool :=
  x.objs.all (fun e => e.2.ctx != c) && x.progs.all (fun e => e.2.ctx != c) && x.fences.all (fun e => e.2.ctx != c) &&
  (x.queuesOf c none).isEmpty

/-- Step 6 of R367: the generation advances and the id waits to become free (R336). -/
def State.closeCtx (s : State) (c : CtxId) : State :=
  { s with
    ctxs := Tab.erase s.ctxs c.id
    ctxGens := Tab.set s.ctxGens c.id ((c.gen + 1) % 256)
    cooling := if s.cooling.contains c.id then s.cooling else s.cooling ++ [c.id] }

/-- TEARDOWN_TIMEOUT: engines still busy with the context are reset (R367 step 3). -/
def State.teardownTimeout (s : State) (c : Nat) : State :=
  match Tab.get? s.ctxs c with
  | none => s
  | some t =>
    let id : CtxId := ⟨c, t.gen⟩
    let qs := (s.ptn t.ptn).queuesOf id none
    if t.torn = 0 || !(s.ptn t.ptn).anyOf qs then s
    else ((s.coresOf t.ptn).filter (fun p => (s.work p).ctx == [id] && !(s.work p).blocks.isEmpty)).foldl
      (fun u p => u.orderReset .engine p) s

/-- TEARDOWN_TIMEOUT (R367). -/
def execTeardownTimeout (c : Nat) (s : State) : Out := onWf (.teardownTimeout c) (s.teardownTimeout c)

/-- CTX_ID_FREE: 100 ms of pace time after a teardown the id is free (R336). -/
def State.ctxIdFree (s : State) (c : Nat) : State := { s with cooling := s.cooling.filter (· != c) }

/-- CTX_ID_FREE (R336). -/
def execCtxIdFree (c : Nat) (s : State) : Out := onWf (.ctxIdFree c) (s.ctxIdFree c)

end Sys2Proof.Machine
end

