-- ==== Sys2Proof/Machine/Fix.lean ====
section
/-! DEFINITION. Fixes and their restore: FIX (R393, R488, R489), the serving of a partner's fix area (R416, R489), and
FIX_RESTORE (R490, R491). -/

namespace Sys2Proof.Machine

/-- The status that a response's STATUS field stands for (R413). -/
def linkStatus (x : Nat) : Nat :=
  if x = 0 then 0 else if x = 1 then St.unmapped else if x = 2 then St.protection else if x = 3 then St.unsettled
  else if x = 4 then St.weightReadOnly else St.uncorrectable

/-- The STATUS field of a response for a status (R413, R423). -/
def statusLink (x : Nat) : Nat :=
  if x = 0 then 0 else if x = St.unmapped then 1 else if x = St.protection then 2 else if x = St.unsettled then 3
  else if x = St.weightReadOnly then 4 else 5

/-! ### The FIX command (R393) -/

/-- COUNT of a FIX. -/
def fixCount (raw : List Byte) : Nat := eBody raw 8 1
/-- TARGET: host memory. -/
def fixHost (raw : List Byte) : Bool := bit (eBody raw 8 4) 8

/-- The lengths of the stream's parts: the header and table padded to 4 KiB, then each object's slot (R489). -/
def fixOffsets (sizes : List Nat) : List Nat :=
  (sizes.foldl (fun (x : Nat × List Nat) n => (x.1 + n, x.2 ++ [x.1]))
    (ceilDiv (64 + 32 * sizes.length) 4096 * 4096, [])).2

/-- The bytes of a stream of objects of listed sizes. -/
def fixBytes (sizes : List Nat) : Nat := sizes.foldl (· + ·) (ceilDiv (64 + 32 * sizes.length) 4096 * 4096)

/-- The objects that listed handles name. -/
def State.fixObjs (s : State) (n : Nat) (hs : List Nat) : List (Nat × MemObj) :=
  hs.filterMap (fun h => (s.obj? n h).map (fun o => (h, o)))

/-- The handles in the list that a FIX's arguments hold. -/
def fixHandles (args : List Byte) (count : Nat) : List Nat := (List.range count).map (fun i => leAt args (4 * i) 4)

/-- The checks of a FIX (R393, R379, R489). Whether the partner has a free slot large enough is the partner's to say: it
answers with a status (log entry 20). -/
def State.checkFix (s : State) (n : Nat) (c : CtxId) (k : Cmd) : Fetched :=
  let raw := k.raw
  let w := eBody raw 8 4
  let host := eBody raw 16 8
  let f := (Fetched.check ⟨s, 0, []⟩ (bits w 31 9 != 0 || fixCount raw == 0 || !bodyClear raw 24 ||
    (if bit w 8 then host % 4096 != 0 else host != 0)) St.malformed).next n c (eBody raw 0 8) (4 * fixCount raw) 4
  let hs := fixHandles f.bytes (fixCount raw)
  let os := s.fixObjs n hs
  (((f.check (hs.any (fun h => hKind h != 3 || !s.validHandle n k.seq h)) St.handleInvalid).check
    (!bit w 8 && s.field (Reg.fixPartner n) 16 16 == 0) St.illegalState).check
    (os.any (fun e => (e.2.slot e.2.current).st == .unsettled)) St.unsettled).check
    (bit w 8 && hostBytes < host + fixBytes (os.map (·.2.bytes))) St.outOfMemory

/-- Object i of the stream's table (R489). -/
def fixEntry (h : Nat) (o : MemObj) (offset : Nat) (data : List Byte) : List Byte :=
  natLe 4 h ++ natLe 4 (b2n o.big + 2 * b2n o.host + 4 * (o.slots.length - 1)) ++ natLe 4 o.pages ++
  natLe 4 (if o.isWeight then o.gen else 0) ++ natLe 8 offset ++ natLe 4 (crc32 data).toNat ++ natLe 4 0

/-- The stream of a FIX (R489): header, table, each object's current slot; the status of a failed read. -/
def State.fixStream (s : State) (n : Nat) (c : CtxId) (k : Cmd) : Fetched :=
  let os := s.fixObjs n (fixHandles k.args (fixCount k.raw))
  let sizes := os.map (·.2.bytes)
  let r := os.foldl (fun (x : Fetched × List (List Byte)) e =>
    if x.1.status != 0 then x
    else
      let f := x.1.s.objRead n c (hIndex e.1) e.2.current 0 e.2.bytes
      (f, x.2 ++ [f.bytes])) (⟨s, 0, []⟩, [])
  let table := ((os.zip (fixOffsets sizes)).zip r.2).flatMap (fun e => fixEntry e.1.1.1 e.1.1.2 e.1.2 e.2)
  let head := natLe 4 1 ++ natLe 4 (eBody k.raw 12 4) ++ natLe 8 k.startSeq ++
    natLe 4 (c.id + 2 ^ 12 * c.gen + 2 ^ 20 * s.pkgNo) ++ natLe 4 (n + 16 * os.length) ++ natLe 8 (fixBytes sizes) ++
    natLe 4 (crc32 table).toNat ++ List.replicate 28 0
  let start := ceilDiv (64 + 32 * sizes.length) 4096 * 4096
  ⟨r.1.s, r.1.status, sliceAt (head ++ table) 0 start ++ r.2.flatten⟩

/-- A packet of fix traffic (R489): JOB 0, context 0, ADDR an offset in the serving partition's fix area. -/
def State.fixPacket (s : State) (n pkg ptn type tag addr len : Nat) (payload : List Byte) : Packet :=
  pktSeal
    { type := type, vc := 0, detour := false, dest := pkg, src := s.pkgNo, job := 0, destPtn := ptn, srcPtn := n,
      die := (s.diesOf n).headD 0, destCtx := 0, destGen := 0, srcCtx := 0, srcGen := 0, tag := tag, hops := 0, op := 0,
      addr := addr, lenM1 := len - 1, status := 0, e2eCrc := 0, payload := payload }

/-- TAG of a FIX's packets: low byte 192 + queue, then the entry (log entry 20). -/
def fixTag (c : Cid) : Nat := 192 + c.queue + 2 ^ 8 * (c.entry % 256)

/-- PKG and PTN of a partition's partner. -/
def State.partner (s : State) (n : Nat) : Nat × Nat := (s.field (Reg.fixPartner n) 11 0, s.field (Reg.fixPartner n) 15 12)

/-- Sends a stream to the partner from an offset of its fix area, 256 bytes a packet. Log entry 20 (DESIGN CHOICE). -/
def State.sendFix (s : State) (c : Cid) (base : Nat) (stream : List Byte) : State :=
  let to_ := s.partner c.ptn
  (List.range (ceilDiv stream.length 256)).foldl (fun t i =>
    let d := (stream.drop (256 * i)).take 256
    t.sendPacket (t.fixPacket c.ptn to_.1 to_.2 3 (fixTag c) (base + 256 * i) d.length d) 3) s

/-- FIX: host memory is written at once; a partner acknowledges every byte. Where the partner's free slot lies is a free
choice (log entry 20). -/
def State.fixRun (s : State) (c : Cid) (x : Queue) (k : Cmd) : State :=
  let n := c.ptn
  let f := s.fixStream n x.ctx k
  let count := fixCount k.raw
  if f.status != 0 then f.s.endCmd c f.status 0 0
  else if fixHost k.raw then (f.s.hostWrite (eBody k.raw 16 8) f.bytes).endCmd c 0 count f.bytes.length
  else if !f.s.namesPkg (f.s.partner n).1 then f.s.endCmd c St.unreachable 0 0
  else
    let base := Config.choice f.s.fresh % 2 ^ 20 * 2097152
    let p := f.s.ptn n
    ((f.s.setPtn n { p with fixRuns := p.fixRuns ++
      [⟨c, x.ctx, 0, f.bytes.length, ceilDiv f.bytes.length 256, count⟩] }).drawn).sendFix c base f.bytes

/-- FIX: starting. -/
def State.fixStart (s : State) (n q e : Nat) : State :=
  match s.starting n q e 8 with
  | none => s
  | some (k, x) =>
    let s1 := s.began n k
    s1.fixRun ⟨n, q, e⟩ x ((s1.cmd? ⟨n, q, e⟩).getD k)

/-- FIX (R393). -/
def execFix (n q e : Nat) (s : State) : Out := onWf (.fix n q e) (s.fixStart n q e)

/-- Ends a FIX with a status, its run gone. -/
def State.fixEnd (s : State) (f : FixRun) (status : Nat) : State :=
  let x := s.ptn f.cid.ptn
  (s.setPtn f.cid.ptn { x with fixRuns := x.fixRuns.filter (fun y => y.cid != f.cid) }).endCmd f.cid status
    (if status = 0 then f.objects else 0) (if status = 0 then f.acked else 0)

/-- The partner acknowledges a packet of a FIX (R393). -/
def State.fixAck (s : State) (p : Packet) : State :=
  let x := s.ptn p.destPtn
  match x.fixRuns.find? (fun f => fixTag f.cid == p.tag) with
  | none => s
  | some f =>
    let g := { f with acked := f.acked + (p.lenM1 + 1), out := f.out - 1 }
    if p.status != 0 then s.fixEnd f (linkStatus p.status)
    else if g.out = 0 then s.fixEnd g 0
    else s.setPtn p.destPtn { x with fixRuns := x.fixRuns.map (fun y => if y.cid = f.cid then g else y) }

/-! ### Serving a client's fixes (R488, R489) -/

/-- Bytes of a slot of a partition's fix area. -/
def State.fixSlotBytes (s : State) (n : Nat) : Nat :=
  let f := s.reg (Reg.fixArea n)
  fld f 55 36 / max 1 (fld f 62 56) * 2097152

/-- Whether a partition serves fix traffic of a packet: it comes from its client and lies within the area. -/
def State.servesFix (s : State) (p : Packet) : Bool :=
  let f := s.reg (Reg.fixArea p.destPtn)
  s.isOpen p.destPtn && !(s.ptn p.destPtn).halted && fld f 55 36 != 0 && fld f 11 0 == p.src && fld f 15 12 == p.srcPtn &&
  p.addr + p.lenM1 + 1 ≤ fld f 55 36 * 2097152

/-- The place of an offset of the fix area. -/
def State.fixPlace (s : State) (n off : Nat) : Option Place :=
  s.ptnPlace n (s.field (Reg.fixArea n) 35 16 * 2097152 + off)

/-- Fix bytes read from the area. -/
def State.fixRead (s : State) (n off len : Nat) : List Byte :=
  match s.fixPlace n off with
  | none => []
  | some pl => s.bytesAt pl len

/-- A write of the client reaches the area (R489): a stream's first bytes take its slot anew; the bytes all there, the slot
holds its context's last fix and the previous one is freed. -/
def State.fixWrite (s : State) (p : Packet) : State :=
  let n := p.destPtn
  match s.fixPlace n p.addr with
  | none => s
  | some pl =>
    let s1 := s.store pl p.payload
    let sb := max 1 (s1.fixSlotBytes n)
    let k := p.addr / sb
    let x := s1.ptn n
    let old := if p.addr % sb = 0 then 0 else ((Tab.get? x.fixes k).map (·.bytes)).getD 0
    let got := old + p.payload.length
    let head := s1.fixRead n (k * sb) 64
    let ctx : CtxId := ⟨bits (leAt head 16 4) 11 0, bits (leAt head 16 4) 19 12⟩
    let whole := 64 ≤ got && got == leAt head 24 8
    let others := if whole then x.fixes.filter (fun e => !(e.2.last && e.2.ctx == ctx)) else x.fixes
    s1.setPtn n { x with fixes := Tab.set others k ⟨ctx, whole, got⟩ }

/-! ### Restore (R490, R491) -/

/-- Ends a partition's restore with RESULT. Log entry 101 (DEDUCED). -/
def State.restoreDone (s : State) (n result : Nat) : State :=
  let x := s.ptn n
  ((s.setPtn n { x with restores := [] }).setField (Reg.fixRestore n) 14 14 0).setField (Reg.fixRestore n) 18 15 result

/-- The handle of object i of a stream: that of the stream, or that of the list (R491). -/
def State.restoreHandle (s : State) (r : Restore) (stream : List Byte) (i : Nat) : Nat :=
  match r.list with
  | [] => leAt stream (64 + 32 * i) 4
  | a :: _ => leNat (s.hostRead (a + 4 * i) 4)

/-- The objects of a stream's header. -/
def fixObjects (stream : List Byte) : Nat := bits (leAt stream 20 4) 11 4

/-- Whether a stream's header names an identity of this package and partition (R491). -/
def State.streamNames (s : State) (n : Nat) (stream : List Byte) (c : CtxId) : Bool :=
  leAt stream 0 4 == 1 && leAt stream 16 4 == c.id + 2 ^ 12 * c.gen + 2 ^ 20 * s.pkgNo && bits (leAt stream 20 4) 3 0 == n

/-- Whether object i of a stream fits the object its handle names in the context (R490). -/
def State.restoreFits (s : State) (n : Nat) (r : Restore) (stream : List Byte) (i : Nat) : Bool :=
  let h := s.restoreHandle r stream i
  let e := stream.drop (64 + 32 * i)
  hKind h == 3 && s.validHandle n s.dealer.seq h && (s.obj? n h).any (fun o =>
    o.ctx == r.ctx && leAt e 4 4 == b2n o.big + 2 * b2n o.host + 4 * (o.slots.length - 1) && leAt e 8 4 == o.pages)

/-- Restores one object (R490): whether its CRC fails. -/
def State.restoreObj (s : State) (n h : Nat) (e stream : List Byte) : State × Bool :=
  let i := hIndex h
  match Tab.get? (s.ptn n).objs i with
  | none => (s, false)
  | some o =>
    let gen := if o.isWeight then leAt e 12 4 else o.gen
    let o1 := { o with gen := gen }
    let k := o1.current
    let data := sliceAt stream (leAt e 16 8) o.bytes
    let bad := (crc32 data).toNat != leAt e 24 4
    let s1 := (s.setObj n i o1).objWrite n i k 0 data
    let s2 := ((List.range o.slots.length).filter (· != k)).foldl (fun t j => t.setObjState n i j .unsettled) s1
    (if bad then s2.setObjState n i k .unsettled else s2.settleSlot n i k, bad)

/-- Restores a whole stream (R490): the table first, then each object. A table whose own CRC fails counts as a mismatch (log
entry 20). -/
def State.restoreRun (s : State) (n : Nat) (r : Restore) (stream : List Byte) : State :=
  let count := fixObjects stream
  let table := sliceAt stream 64 (32 * count)
  if (crc32 table).toNat != leAt stream 32 4 || !(List.range count).all (s.restoreFits n r stream) then s.restoreDone n 2
  else
    let y := (List.range count).foldl (fun (x : State × Bool) i =>
      let z := x.1.restoreObj n (s.restoreHandle r stream i) (stream.drop (64 + 32 * i)) stream
      (z.1, x.2 || z.2)) (s, false)
    let result := if y.2 then 3 else 0
    (y.1.restoreDone n result).raise .fixRestored (mkHandle 1 r.ctx.gen r.ctx.id) result

/-- Asks the partner for the next bytes of a restore. -/
def State.restoreAsk (s : State) (n : Nat) (r : Restore) (len : Nat) : State :=
  let to_ := s.partner n
  s.sendPacket (s.fixPacket n to_.1 to_.2 1 192 (r.base + r.got.length) len []) 3

/-- The partner answers a read of a restore: the next read, or the whole stream restored. A stream of another identity, and
a read refused, mean that there is no fix. -/
def State.restoreStep (s : State) (p : Packet) : State :=
  let n := p.destPtn
  let x := s.ptn n
  match x.restores with
  | [] => s
  | r :: _ =>
    let r1 := { r with got := r.got ++ p.payload }
    let total := leAt r1.got 24 8
    if p.status != 0 || !s.streamNames n r1.got r.old then s.restoreDone n 1
    else if r1.got.length < total then
      (s.setPtn n { x with restores := [r1] }).restoreAsk n r1 (min 256 (total - r1.got.length))
    else s.restoreRun n r1 r1.got

/-- Whether a command of a context runs. -/
def State.ctxRuns (s : State) (n : Nat) (c : CtxId) : Bool :=
  (s.ptn n).cmds.any (fun k => k.stage == .running && (Tab.get? (s.ptn n).queues k.queue).any (fun x => k.queue != 0 && x.ctx == c))

/-- FIX_RESTORE.GO (R490, R491), the register's fields as written. -/
def State.restoreGo (s : State) (n : Nat) : State :=
  let v := s.reg (Reg.fixRestore n)
  let m := s.reg (Reg.fixRemap n)
  let remap := fld v 19 19 == 1
  match Tab.get? s.ctxs (fld v 11 0) with
  | none => s.restoreDone n 1
  | some t =>
    let c : CtxId := ⟨fld v 11 0, t.gen⟩
    let old : CtxId := if remap then ⟨fld m 11 0, fld m 19 12⟩ else c
    let r : Restore := ⟨c, Config.choice s.fresh % 2 ^ 20 * 2097152, [], old, if remap then [fld m 59 20 * 4096] else []⟩
    if t.ptn ≠ n ∨ t.torn ≠ 0 then s.restoreDone n 1
    else if s.ctxRuns n c then s.restoreDone n 5
    else if fld v 12 12 = 1 then
      let a := fld v 59 20 * 4096
      let head := s.hostRead a 64
      let stream := s.hostRead a (leAt head 24 8)
      if leAt head 0 4 != 1 || (remap && !s.streamNames n head old) || hostBytes < a + leAt head 24 8 then s.restoreDone n 1
      else s.restoreRun n r stream
    else if s.field (Reg.fixPartner n) 16 16 = 0 then s.restoreDone n 1
    else if !s.namesPkg (s.partner n).1 then s.restoreDone n 4
    else
      let x := s.ptn n
      (((s.setPtn n { x with restores := [r] }).drawn.setField (Reg.fixRestore n) 14 14 1).setField
        (Reg.fixRestore n) 18 15 0).restoreAsk n r 256

end Sys2Proof.Machine
end

