-- ==== Sys2Proof/Machine/Retire.lean ====
section
/-! DEFINITION. The body check (R375 step 4) and the end of a command (R464, R375 step 6). -/

namespace Sys2Proof.Machine

/-! ### BODY_CHECK (R373, R375, R377) -/

/-- The checks of a body by opcode. -/
def State.checkBody (s : State) (n : Nat) (c : CtxId) (k : Cmd) : Fetched :=
  let op := eOpcode k.raw
  if k.queue = 0 then s.checkRequest n k
  else if op = 1 then s.checkLoad n c k.raw
  else if op = 2 then s.checkDispatch n c k
  else if op = 3 then s.checkCopy n c k.raw
  else if op = 4 then s.checkFill n c k.raw
  else if op = 5 then s.checkAccumulate n c k.raw
  else if op = 6 then s.checkUpdate n c k
  else if op = 7 then s.checkRoot n k
  else if op = 8 then s.checkFix n c k
  else if op = 9 then Fetched.check ⟨s, 0, []⟩ (!bodyClear k.raw 0) St.malformed
  else if op = 10 then s.checkMap n k
  else s.checkUnmap k.raw

/-- The handles that a body and its structures name (R364). -/
def State.bodyNames (s : State) (n : Nat) (k : Cmd) (args : List Byte) : List Nat :=
  let op := eOpcode k.raw
  if k.queue = 0 then (if op = 0xE7 || op = 0xEA then [eBody k.raw 0 4] else [])
  else if op = 2 then
    [leAt args 0 4, leAt args 8 4] ++ (List.range (bits (leAt args 4 4) 27 24)).map (fun b => bindWord args b % 2 ^ 32)
  else if op = 6 then
    mkHandle 3 (Tab.get (s.ptn n).oGens (leAt args 0 8) 0) (leAt args 0 8) :: (needed (updArgs args).table).map (·.1)
  else if op = 7 then [eBody k.raw 0 4, eBody k.raw 4 4]
  else if op = 8 then fixHandles args (fixCount k.raw)
  else if op = 10 then [eBody k.raw 8 4]
  else []

/-- BODY_CHECK: once its waits are over, a command is refused by them or by its body, or is ready to start. -/
def State.bodyCheck (s : State) (n q e : Nat) : State :=
  match s.cmd? ⟨n, q, e⟩, s.queue? n q with
  | some k, some x =>
    if k.stage != .waiting || (s.ptn n).halted then s
    else match s.waitStatus n k with
      | none => s
      | some st =>
        if st != 0 then s.failCmd n k st
        else
          let f := s.checkBody n x.ctx k
          if f.status != 0 then f.s.failCmd n k f.status
          else f.s.setCmd n { k with
            stage := .ready
            args := f.bytes
            names := k.names ++ (f.s.bodyNames n k f.bytes).map (nameOf n) }
  | _, _ => s

/-- BODY_CHECK (R375). -/
def execBodyCheck (n q e : Nat) (s : State) : Out := onWf (.bodyCheck n q e) (s.bodyCheck n q e)

/-! ### When a command may retire -/

/-- Whether a dispatch stopped in error has nothing left in progress on a core. Log entry 107 (DEDUCED). -/
def Work.quiet (w : Work) (c : Cid) : Bool :=
  let mine (b : Nat) : Bool := (Tab.get? w.blocks b).any (fun x => x.cid == c)
  !(w.arrays.any (fun a => a.2.open_.any (fun m => mine m.block)) || w.farAll.any (fun r => mine r.block))

/-- Whether a running dispatch is over (R385, R227). -/
def State.dispOver (s : State) (d : Disp) : Bool :=
  d.ended == d.blocks || (d.status != 0 && s.cores.all (fun e => e.2.work.quiet d.cid))

/-- Whether every command of a context that started before a given one has retired (R396). A dispatch that waits for its stash
reservation has not started (R158). -/
def State.earlierDone (s : State) (n : Nat) (c : CtxId) (k : Cmd) : Bool :=
  (s.ptn n).cmds.all (fun o => !(o.queue != 0 && o.startSeq != 0 && o.startSeq < k.startSeq &&
    !(s.ptn n).waitResv.contains ⟨n, o.queue, o.entry⟩ && (Tab.get? (s.ptn n).queues o.queue).any (fun y => y.ctx == c)))

/-- Whether a running object request may go on to its end: the commands it stopped have retired (R366), and nothing of the context
torn down is left (R367). -/
def State.requestOver (s : State) (n : Nat) (k : Cmd) : Bool :=
  let x := s.ptn n
  let c := ctxNamed k.raw
  let tag : Word := BitVec.ofNat 32 (eBody k.raw 4 4)
  if eOpcode k.raw = 0xE1 then
    (match s.ctx? c with
    | none => true
    | some t => x.tearReady c t.torn && ((s.tearAll n).ptn n).bare c)
  else eOpcode k.raw == 0xEB && !x.anyOf (x.revokedOf c (some tag)) && !s.tagInUse n c tag k.startSeq

/-- Whether every write that a command sent to another package has been performed (R324). -/
def State.writesDone (s : State) (c : Cid) : Bool :=
  s.cores.all (fun e => e.2.work.farAll.all (fun r => match r.act with
    | .cmd x u _ => !(x == c && u.write)
    | _ => true))

/-- Whether a command of a queue may retire now: not before its writes are performed (R324), nor while the queue holds 64 records
(R360). -/
def State.mayRetire (s : State) (n : Nat) (x : Queue) (k : Cmd) : Bool :=
  let c : Cid := ⟨n, k.queue, k.entry⟩
  let op := eOpcode k.raw
  if 64 ≤ x.held.length && !x.revoked then false
  else if k.stage = .ended then s.writesDone c
  else if k.stage != .running then false
  else if k.queue = 0 then s.requestOver n k
  else if op = 2 then (s.disp? c).any s.dispOver
  else if op = 6 then (s.upd? c).any (fun u => u.published && u.owners.all (fun o => u.pushed.contains o)) &&
    (s.move? c).all (fun m => !s.moveBusy m)
  else if op = 11 then s.earlierDone n x.ctx k
  else (s.move? c).any (fun m => m.writing && !s.moveBusy m)

/-! ### What a command leaves behind -/

/-- Releases the bindings of a dispatch at retirement (R172, R173, R174): a pin emptied meanwhile has given its count back. -/
def State.unbind (s : State) (n : Nat) (d : Disp) : State :=
  (d.bounds.filter (·.release)).foldl (fun t b => match b.pin with
    | [] => t.dropReader n b.obj b.gen
    | p :: _ =>
      if ((t.ctx? d.ctx).bind (fun x => Tab.get? x.pins p)).any (fun y => y.obj == b.obj && y.gen == b.gen) then
        (t.dropReader n b.obj b.gen).setPins d.ctx (fun l => Tab.erase l p)
      else t) s

/-- A core's work without the blocks of a command. -/
def Work.without (w : Work) (c : Cid) : Work :=
  let mine := (w.blocks.filter (fun e => e.2.cid == c)).map (·.1)
  let w1 := mine.foldl (fun t b => t.freeBlock b) w
  { w1 with
    chans := Tab.mapVals (fun h => { h with runs := h.runs.filter (fun r => !mine.contains r.entry.block) }) w1.chans
    farWait := w1.farWait.filter (fun r => !mine.contains r.block) }

/-- Frees what a dispatch holds: bindings, stash reservation, blocks, its place among the pre-empted work. -/
def State.clearDisp (s : State) (d : Disp) : State :=
  let c := d.cid
  let s1 := (s.unbind c.ptn d).releaseStash c
  let s2 := { s1 with cores := Tab.mapVals (fun k => k.setWork (k.work.without c)) s1.cores }
  let x := s2.ptn c.ptn
  let saved := (x.saved.map (fun v => { v with work := v.work.part (fun b => v.work.cidOf b != c) (fun _ => true) })).filter
    (fun v => !v.work.blocks.isEmpty || v.work.engine.holder != .nobody)
  s2.setPtn c.ptn { x with
    disps := x.disps.filter (fun y => y.cid != c)
    waitResv := x.waitResv.filter (· != c)
    saved := saved }

/-- Ends the update of a command: its hold on its generation goes (R176). -/
def State.clearUpd (s : State) (u : Upd) : State :=
  let n := u.cid.ptn
  let s1 := s.dropReader n u.obj u.gen
  let s2 := match Tab.get? (s1.ptn n).objs u.obj with
    | none => s1
    | some o => s1.setObj n u.obj { o with updating := false }
  let x := s2.ptn n
  s2.setPtn n { x with updates := x.updates.filter (fun y => y.cid != u.cid) }

/-- The status, DETAIL and INFO of a command that ends (R398). -/
def State.results (s : State) (n : Nat) (k : Cmd) : Nat × Word × DWord :=
  let c : Cid := ⟨n, k.queue, k.entry⟩
  match s.disp? c with
  | some d =>
    let st := if k.status != 0 then k.status else d.status
    (st, if st = 0 then BitVec.ofNat 32 d.ended else 0, d.info)
  | none => match s.move? c with
    | some m => if k.status = 0 && eOpcode k.raw != 6 then (0, 0, BitVec.ofNat 64 m.bytes) else (k.status, k.detail, k.info)
    | none => (k.status, k.detail, k.info)

/-- Frees everything that runs for a command. -/
def State.clearRun (s : State) (c : Cid) : State :=
  let s1 := match s.disp? c with
    | none => s
    | some d => s.clearDisp d
  let s2 := match s1.upd? c with
    | none => s1
    | some u => s1.clearUpd u
  let s3 := s2.dropMove c
  let x := s3.ptn c.ptn
  (s3.setPtn c.ptn { x with fixRuns := x.fixRuns.filter (fun f => f.cid != c), roots := x.roots.filter (fun r => r.cid != c)
    }).leaveCores c

/-- The objects a command wrote change state as it ends (R339, R204): step 1 of R464. -/
def State.endWrites (s : State) (n : Nat) (k : Cmd) (status : Nat) : State :=
  let ok := status == 0 || (eOpcode k.raw == 7 && status == St.rootNotConverged)
  k.writes.foldl (fun t w => t.endWriter n ok (k.whole.contains w) w) s

/-- Its SIGNAL fence counts one command less, takes the error flag where the command failed, and is signalled at 0 (R343):
steps 2 and 3 of R464. -/
def State.endSignal (s : State) (n : Nat) (k : Cmd) (status : Nat) : State :=
  k.sig.foldl (fun t i => match Tab.get? (t.ptn n).fences i with
    | none => t
    | some f =>
      let g := { f with pending := f.pending - 1, error := f.error || status != 0 }
      if g.pending = 0 then t.signalFence n i g else t.setFence n i g) s

/-- Its completion record (R359): step 4 of R464. SQ_HEAD is that at retirement (log entry 21). -/
def State.endRecord (s : State) (n : Nat) (k : Cmd) (r : Nat × Word × DWord) : State :=
  let s1 := s.raise .completion (n + 16 * k.queue) k.entry
  match s1.queue? n k.queue with
  | none => s1
  | some x =>
    let s2 := s1.complete n k.queue ⟨r.1, BitVec.ofNat 32 (eTag k.raw), s1.dealer.seq, x.sqHead, r.2.1, r.2.2, eNotify k.raw⟩
    if r.1 != 0 && x.stopOnError then s2.mapQueues n (fun q _ => q == k.queue) (fun y => { y with stopped := true }) else s2

/-- Once no command of an owner's revoked queues is left, the owner's fences are signalled with an error (R366 step 4). -/
def State.ownerStep (s : State) (n q : Nat) : State :=
  match s.queue? n q with
  | none => s
  | some x =>
    if !x.revoked || (s.ptn n).anyOf ((s.ptn n).revokedOf x.ctx (some x.owner)) then s
    else s.signalAll n ((s.ptn n).deadFences x.ctx (some x.owner))

/-- The last steps of a revocation or a teardown, before its own completion (R366, R367). -/
def State.endRequest (s : State) (n : Nat) (k : Cmd) : State :=
  let c := ctxNamed k.raw
  let tag : Word := BitVec.ofNat 32 (eBody k.raw 4 4)
  if k.queue != 0 || k.stage != .running then s
  else if eOpcode k.raw = 0xE1 then (if (s.ctx? c).isSome then (s.tearAll n).closeCtx c else s)
  else if eOpcode k.raw = 0xEB then (s.signalAll n ((s.ptn n).deadFences c (some tag))).revokeRest n c tag
  else s

/-- Takes a command that has ended out of the list. -/
def State.forget (s : State) (n : Nat) (k : Cmd) : State :=
  let x := s.ptn n
  s.setPtn n { x with
    cmds := x.cmds.filter (fun o => !(o.queue == k.queue && o.entry == k.entry))
    remoteWaits := x.remoteWaits.filter (fun w => w.cid != ⟨n, k.queue, k.entry⟩) }

/-- COMMAND_RETIRE (R464): object states, fence, mirror word, completion record, in that order; then what the command held
and what was only waiting for it is freed. -/
def State.retire (s : State) (n q e : Nat) : State :=
  match s.cmd? ⟨n, q, e⟩, s.queue? n q with
  | some k, some x =>
    if !s.mayRetire n x k then s
    else
      let r := s.results n k
      let s1 := (s.clearRun ⟨n, q, e⟩).endRequest n k
      let s2 := ((s1.endWrites n k r.1).endSignal n k r.1).endRecord n k r
      ((((s2.forget n k).ownerStep n q).reapQueue n q).tearAll n).reapAll
  | _, _ => s

/-- COMMAND_RETIRE (R464). -/
def execCommandRetire (n q e : Nat) (s : State) : Out := onWf (.commandRetire n q e) (s.retire n q e)

end Sys2Proof.Machine
end

