-- ==== Sys2Proof/Machine/Links.lean ====
section
/-! DEFINITION. The Nivan links: ports, training and frames (R404 to R412, R427), and sealed timing as ports decide it
(R474). -/

namespace Sys2Proof.Machine

/-! ### Sealed timing (R474) -/

/-- Whether every port of a sealed partition's own dies in some direction is down while another die's port there is up, so
that its packets leave its dies. -/
def State.sealRouted (s : State) (n : Nat) : Bool :=
  (List.range 6).any (fun dir => s.ext (dir / 2) != 0 && (s.diesOf n).all (fun d => !s.portUp (6 * d + dir)) &&
    (List.range 4).any (fun d => s.portUp (6 * d + dir)))

/-- Whether the timing isolation of a sealed partition has lapsed. -/
def State.sealLapsed (s : State) (n : Nat) : Bool :=
  (s.diesOf n).any (fun d => let x := s.die d; x.ceiling || x.wearLtd || x.fallback || x.brake < 64) || s.sealRouted n

/-- Raises SEAL_TIMING_LOST and SEAL_TIMING_RESTORED for a partition. -/
def State.sealStep (s : State) (n : Nat) : State :=
  let d0 := (s.diesOf n).headD 0
  let sealed_ := s.isOpen n && s.field (Reg.ptnSeal n) 0 0 == 1
  let now := sealed_ && s.sealLapsed n
  let was := (s.die d0).sealLost
  if now == was then s
  else
    let s1 := (s.diesOf n).foldl (fun t d => t.setDie d { t.die d with sealLost := now }) s
    if !sealed_ then s1 else s1.raise (if now then .sealTimingLost else .sealTimingRestored) n 0

/-- R474 for every partition. -/
def State.sealCheck (s : State) : State := (List.range s.ptnCount).foldl (fun t n => t.sealStep n) s

/-! ### Ports (R406 to R409) -/

/-- DOWN of NV_PORT_CTL. -/
def State.portDownSet (s : State) (k : Nat) : Bool := s.field (Reg.nvPortCtl k) 0 0 == 1
/-- MAXW of NV_PORT_CTL. -/
def State.maxw (s : State) (k : Nat) : Nat := s.field (Reg.nvPortCtl k) 3 2

/-- Whether a port trains (R406, R431): extents set, its dimension longer than 1, DOWN clear, start-up past step 4. -/
def State.portMayTrain (s : State) (k : Nat) : Bool :=
  s.field Reg.nvBearing 24 24 == 1 && s.ext (k % 6 / 2) != 0 && !s.portDownSet k &&
  (s.pkg.start == .complete || s.pkg.start == .recovery)

/-- A port begins training (R406 step 1). -/
def State.trainPort (s : State) (k : Nat) : State :=
  let x := s.port k
  if s.portMayTrain k && x.state == 0 then s.setPort k { x with state := 1, excluded := 0 } else s

/-- The lowest aligned group of 2^code good lanes. -/
def laneGroup (good : BitVec 8) (code : Nat) : Option Nat :=
  let w := 2 ^ code
  ((List.range (8 / w)).map (· * w)).find? (fun l => (List.range w).all (fun i => good.getLsbD (l + i)))

/-- The width of R407 for a mask, at most 2^code lanes: its code and lowest lane. -/
def chooseWidth (good : BitVec 8) : Nat → Option (Nat × Nat)
  | 0 => (laneGroup good 0).map (fun l => (0, l))
  | c + 1 => match laneGroup good (c + 1) with
    | some l => some (c + 1, l)
    | none => chooseWidth good c

/-- The neighbour that a port must meet (R408): extents and bearing. -/
def State.neighbourOk (s : State) (k : Nat) (nb : NeighbourReport) : Bool :=
  let dir := k % 6
  let dim := dir / 2
  let e := s.ext dim + 1
  let at_ (d : Nat) : Nat := if d = 0 then nb.x else if d = 1 then nb.y else nb.z
  let want (d : Nat) : Nat :=
    let c := coord s.pkgNo d
    if d != dim then c else if dir % 2 = 0 then (c + 1) % e else (c + e - 1) % e
  nb.extX == s.ext 0 && nb.extY == s.ext 1 && nb.extZ == s.ext 2 && [0, 1, 2].all (fun d => at_ d == want d)

/-- A port that comes up: sequence 0, full credits, nothing held (R406 step 5, R412). -/
def Port.up (x : Port) (good : BitVec 8) (code lane nb : Nat) : Port :=
  { x with
    state := 2, width := code, lane0 := lane, good := good, neighbour := nb, txSeq := 0, rxSeq := 0, naks := 0, nakSeq := 0,
    rxNaks := 0, rxNakSeq := 0, sendNak := false, replay := [], wire := [], credits := (List.range 8).map (fun v => (v, 192)),
    rx := [], owed := [], draining := false }

/-- TRAINING_EXCHANGE: steps 3 to 6 of R406. -/
def State.exchange (s : State) (k : Nat) (near far : BitVec 8) (nb : NeighbourReport) : State :=
  let x := s.port k
  if x.state != 1 || !s.portMayTrain k then s
  else
    let down := s.setPort k { x with state := 0 }
    match chooseWidth (near &&& far) (s.maxw k) with
    | none => down
    | some (code, lane) =>
      if s.neighbourOk k nb then
        ((s.setPort k (x.up (near &&& far) code lane (nb.x + 16 * nb.y + 256 * nb.z))).raise
          (if code < s.maxw k then .nvPortNarrowed else .nvPortUp) k code).sealCheck
      else
        ((down.setField (Reg.nvPortStatus k) 24 24 1).reportErr (report 0x11 (portUnit k))).raise .nvBearingMismatch k 0

/-- TRAINING_EXCHANGE (R406). -/
def execTrainingExchange (port : Nat) (near far : BitVec 8) (nb : NeighbourReport) (s : State) : Out :=
  onWf (.trainingExchange port near far nb) (s.exchange port near far nb)

/-- TRAINING_RETRY (R406). -/
def execTrainingRetry (port : Nat) (s : State) : Out := onWf (.trainingRetry port) (s.trainPort port)

/-! ### Sending frames (R410 to R412, R427) -/

/-- Slots of a packet (R413). -/
def pktSlots (p : Packet) : Nat := 1 + ceilDiv p.payload.length 32

/-- The packets of a port's queue that go into its next frame: in order on each virtual channel, with credit for all their
slots, at most 80 slots (R410, R412), each whole in the frame. Log entry 70 (DEDUCED). -/
def fillFrame : List Packet → Nat → Table Nat → List Nat → List Packet × Table Nat
  | [], _, cr, _ => ([], cr)
  | p :: ps, room, cr, held =>
    let n := pktSlots p
    let c : Nat := Tab.get cr p.vc 0
    if n ≤ room && n ≤ c && !held.contains p.vc then
      let r := fillFrame ps (room - n) (Tab.set cr p.vc (c - n)) held
      (p :: r.1, r.2)
    else fillFrame ps room cr (p.vc :: held)

/-- The packets of a port's next frame. On a port of a sealed partition's die, NV_SHARE sixteenths of the 80 slots carry only that
partition's own packets and the rest only others (R473). -/
def State.nextPackets (s : State) (k : Nat) (l : List Packet) : List Packet × Table Nat :=
  let cr := (s.port k).credits
  match s.sealedDie (k / 6) with
  | none => fillFrame l 80 cr []
  | some n =>
    let own (p : Packet) : Bool := p.src == s.pkgNo && p.srcPtn == n
    let room := 5 * s.field (Reg.ptnSeal n) 4 1
    let r := fillFrame (l.filter own) room cr []
    let t := fillFrame (l.filter (fun p => !own p)) (80 - room) r.2 []
    (r.1 ++ t.1, t.2)

/-- Takes listed packets of a port out of the queue of packets to send, each once. -/
def dropSent (k : Nat) (l : List Sent) (ps : List Packet) : List Sent :=
  ps.foldl (fun t p => t.eraseP (fun x => x.port == k && x.packet == p)) l

/-- The packets waiting for a port. -/
def State.waitingFor (s : State) (k : Nat) : List Packet := (s.links.outbox.filter (fun x => x.port == k)).map (·.packet)

/-- The 2,560 slot bytes of a frame: its packets, then idle slots, whose TYPE is 0 (R410, R411, R413). -/
def TxFrame.slotBytes (f : TxFrame) : List Byte :=
  let l := f.packets.flatMap pktWire
  l ++ List.replicate (2560 - l.length) 0

/-- Bits [47:0] of a frame's trailer (R410). -/
def TxFrame.trailer (f : TxFrame) : Nat :=
  f.seq + 2 ^ 16 * f.ack + 2 ^ 32 * b2n f.nak + 2 ^ 33 * f.cvc + 2 ^ 36 * f.credits

/-- A frame as the port sends it now: ACK is the last frame received intact, and the CRC covers slots and trailer (R410). -/
def Port.seal (x : Port) (nak : Bool) (f : TxFrame) : TxFrame :=
  let g := { f with ack := (x.rxSeq + 65535) % 65536, nak := nak }
  { g with crc := crc32 (g.slotBytes ++ natLe 6 g.trailer) }

/-- The virtual channel whose credits the next new frame returns and how many slots: the lowest channel that is owed any.
Log entry 69 (DESIGN CHOICE). -/
def Port.payBack (x : Port) : Nat × Nat :=
  match x.owed.find? (fun e => e.2 != 0) with
  | some e => (e.1, min e.2 1023)
  | none => (0, 0)

/-! ### Retraining (R409) -/

/-- A retrain in place starts, by a lane or by NAKs. -/
def State.retrain (s : State) (k : Nat) (byNak : Bool) (excluded : BitVec 8) : State :=
  let x := s.port k
  (s.setPort k { x with state := 3, byNak := byNak, excluded := excluded, naks := 0, rxNaks := 0 }).countPort k 4 1

/-- Counts a NAK sent, or one received, for a SEQ; the eighth of either for one SEQ starts a retrain (R409, R411). -/
def State.countNak (s : State) (k : Nat) (sent : Bool) (seq : Nat) : State :=
  let x := s.port k
  let c := if sent then (if x.nakSeq = seq then x.naks + 1 else 1) else if x.rxNakSeq = seq then x.rxNaks + 1 else 1
  let s1 := s.setPort k (if sent then { x with naks := c, nakSeq := seq } else { x with rxNaks := c, rxNakSeq := seq })
  if c = 8 then s1.retrain k true x.excluded else s1

/-- Sends frames again, then the port's next frame, which is held for replay (R411); the first carries the NAK that is due. No
new frame goes out while 64 are held, nor from a port that drains without a packet. Log entry 69 (DESIGN CHOICE). -/
def State.transmit (s : State) (k : Nat) (again : List TxFrame) : State :=
  let x := s.port k
  if x.state != 2 then s
  else
    let r := s.nextPackets k (s.waitingFor k)
    let back := x.payBack
    let new_ : List TxFrame := if 64 ≤ x.replay.length || (x.draining && r.1.isEmpty) then []
      else [⟨x.txSeq, 0, false, back.1, back.2, 0, false, r.1⟩]
    let wire := (again ++ new_).zipIdx.map (fun e => x.seal (x.sendNak && e.2 == 0) e.1)
    let y := { x with wire := wire, replay := x.replay ++ new_, sendNak := x.sendNak && wire.isEmpty }
    let s1 := if new_.isEmpty then s.setPort k y
      else (s.setLinks { s.links with outbox := dropSent k s.links.outbox r.1 }).setPort k { y with
        txSeq := (x.txSeq + 1) % 65536, credits := r.2, owed := Tab.set x.owed back.1 (Tab.get x.owed back.1 0 - back.2) }
    if x.sendNak && !wire.isEmpty then s1.countNak k true x.rxSeq else s1

/-- A port goes down: its frames held for replay are gone, and packets queued for it are routed anew (R409, R417, R418).
Log entry 71 (DEDUCED). -/
def State.dropPort (s : State) (k : Nat) : State :=
  let l := s.links.outbox.filter (fun y => y.port == k)
  let x := s.port k
  let s1 := s.setPort k { x with state := 0, replay := [], wire := [], draining := false, sendNak := false, rx := [], owed := [] }
  let s2 := s1.setLinks { s1.links with outbox := s1.links.outbox.filter (fun y => y.port != k) }
  ((l.foldl (fun t y => t.sendPacket y.asked y.lastDim) s2).raise .nvPortDown k 0).sealCheck

/-- A port being taken out of service goes down once its packets are sent and every frame is acknowledged, telling its neighbour
(R427). -/
def State.drainPort (s : State) (k : Nat) : State :=
  let x := s.port k
  if x.draining && x.replay.isEmpty && (s.waitingFor k).isEmpty then
    let s1 := s.dropPort k
    s1.setPort k { s1.port k with wire := [x.seal false ⟨x.txSeq, 0, false, 0, 0, 0, true, []⟩] }
  else s

/-- A port that loses every lane goes down, and training starts (R406, R409). -/
def State.loseLanes (s : State) (k : Nat) : State := ((s.dropPort k).reportErr (report 0x10 (portUnit k))).trainPort k

/-- Frames acknowledged leave the replay buffer. -/
def acked (ack : Nat) (l : List TxFrame) : List TxFrame := l.filter (fun e => 32768 ≤ (ack + 65536 - e.seq) % 65536)

/-- What an intact frame in sequence does (R411, R412, R427): acknowledgement, NAK, credits, packets, the neighbour's going
down. An idle slot is no packet; a packet of reserved type for this package is dropped as if its CRC had failed (R414), its slots
leaving the buffer at once. -/
def State.takeFrame (s : State) (k : Nat) (f : Frame) : State :=
  let x := s.port k
  let replay := acked f.ack x.replay
  let bad (p : Packet) : Bool := p.dest == s.pkgNo && 8 < p.type
  let ps := f.packets.filter (fun p => p.type != 0 && !bad p)
  let rx := ps.foldl (fun t p => Tab.set t p.vc (Tab.get t p.vc 0 + pktSlots p)) x.rx
  let s1 := s.setPort k { x with
    replay := replay, rxSeq := (x.rxSeq + 1) % 65536, sendNak := false, rx := rx,
    owed := (f.packets.filter bad).foldl (fun t p => Tab.set t p.vc (Tab.get t p.vc 0 + pktSlots p)) x.owed,
    credits := Tab.set x.credits f.cvc (Tab.get x.credits f.cvc 0 + f.credits) }
  let s2 := (s1.setLinks { s1.links with inbox := s1.links.inbox ++ ps.map (fun p => ⟨k, p⟩) }).countPkg 0
    (f.packets.filter bad).length
  let s3 := if f.nak then (s2.countPort k 3 replay.length).countNak k false ((f.ack + 1) % 65536) else s2
  if f.down then (s3.dropPort k).reportErr (report 0x10 (portUnit k)) else s3

/-- A frame as an armed link detector of the port leaves it (R492): one symbol more to correct, or not intact. -/
def State.injectFrame (s : State) (k : Nat) (f : Frame) : State × Frame :=
  let a := s.useArmed 0x0D (portUnit k)
  let b := a.1.useArmed 0x0E (portUnit k)
  (b.1, { f with corrected := f.corrected + b2n a.2, crcOk := f.crcOk && !b.2 })

/-- FRAME_RECEIVED (R411): a frame not intact, and those after it, are discarded and asked for again in the next trailer. One
new frame is sent for each received, after the frames that a NAK asks for again. Log entry 69 (DESIGN CHOICE). Log entry 71 (DEDUCED). -/
def State.frame (s : State) (k : Nat) (f0 : Frame) : State :=
  let x := s.port k
  if x.state != 2 then s
  else
    let i := s.injectFrame k f0
    let f := i.2
    let s1 := i.1.countPort k 0 f.corrected
    let intact := f.undecoded == 0 && f.crcOk
    let s2 :=
      if intact then (if f.seq = x.rxSeq then s1.takeFrame k f else s1)
      else
        let y := if f.undecoded = 0 then s1.countPort k 2 1 else s1.countPort k 1 (min 4 f.undecoded)
        y.setPort k { y.port k with sendNak := true }
    (s2.transmit k (if intact && f.seq == x.rxSeq && f.nak then (s2.port k).replay else [])).drainPort k

/-- FRAME_RECEIVED (R411). -/
def execFrameReceived (port : Nat) (f : Frame) (s : State) : Out := onWf (.frameReceived port f) (s.frame port f)

/-- LANE_LOSS_OF_LOCK: a retrain that excludes the lane (R409); with the last lane the port trains from the start (R406).
Log entry 72 (DESIGN CHOICE). -/
def State.laneLost (s : State) (k lane : Nat) : State :=
  let x := s.port k
  let out := x.excluded ||| (1 <<< lane)
  if x.state != 2 && x.state != 3 then s
  else if out = 0xFF then s.loseLanes k
  else if x.state = 2 then s.retrain k false out
  else s.setPort k { x with excluded := out }

/-- LANE_LOSS_OF_LOCK (R409). -/
def execLaneLossOfLock (port lane : Nat) (s : State) : Out := onWf (.laneLossOfLock port lane) (s.laneLost port lane)

/-- RETRAIN_COMPLETE: a width is found, no wider than before, and the frames held are resent; lanes that failed stay
excluded (R409). -/
def State.retrained (s : State) (k : Nat) (near far : BitVec 8) : State :=
  let x := s.port k
  let good := near &&& far &&& ~~~ x.excluded
  if x.state != 3 then s
  else match chooseWidth good (min x.width (s.maxw k)) with
    | none => s
    | some (code, lane) =>
      let s1 := (s.setPort k { x with
        state := 2, width := code, lane0 := lane, good := good, naks := 0, rxNaks := 0, excluded := ~~~ good
        wire := x.replay.map (x.seal false) }).countPort k 3 x.replay.length
      if code < x.width then (s1.raise .nvPortNarrowed k code).reportErr (report 0x0F (portUnit k)) else s1

/-- RETRAIN_COMPLETE (R409). -/
def execRetrainComplete (port : Nat) (near far : BitVec 8) (s : State) : Out :=
  onWf (.retrainComplete port near far) (s.retrained port near far)

/-- RETRAIN_TIMEOUT: no width within 20 ms, the port goes down (R409), having lost every lane, and trains (R406). -/
def State.retrainOut (s : State) (k : Nat) : State := if (s.port k).state != 3 then s else s.loseLanes k

/-- RETRAIN_TIMEOUT (R409). -/
def execRetrainTimeout (port : Nat) (s : State) : Out := onWf (.retrainTimeout port) (s.retrainOut port)

end Sys2Proof.Machine
end

