-- ==== Sys2Proof/Machine/Packets.lean ====
section
/-! DEFINITION. Packets received: requests served at their destination (R413 to R424), responses (R425), fence and open
notices (R347, R195, R426), forwarding (R417 to R420), and the remote timeout (R425). -/

namespace Sys2Proof.Machine

/-! ### Taking packets -/

/-- Packet k of the inbox, if it is of a type and for this package. -/
def State.inPacket (s : State) (k type : Nat) : Option Recv :=
  (s.links.inbox[k]?).bind (fun r => if r.packet.type = type ∧ r.packet.dest = s.pkgNo then some r else none)

/-- Takes packet k out of the inbox: its slots leave the receive buffer, and their credit is to go back (R412). -/
def State.takePacket (s : State) (k : Nat) (r : Recv) : State :=
  let x := s.port r.port
  let v := r.packet.vc
  let n := min (pktSlots r.packet) (Tab.get x.rx v 0)
  (s.setLinks { s.links with inbox := dropAt s.links.inbox k }).setPort r.port
    { x with rx := Tab.set x.rx v (Tab.get x.rx v 0 - n), owed := Tab.set x.owed v (Tab.get x.owed v 0 + n) }

/-- Serves packet k of a type: one whose end-to-end CRC fails, or that fails a further test, is dropped and counted (R414). -/
def State.serve (s : State) (k type : Nat) (ok : Packet → Bool) (f : State → Packet → State) : State :=
  match s.inPacket k type with
  | none => s
  | some r =>
    let s1 := s.takePacket k r
    if r.packet.e2eCrc != crc32 (pktCrcBytes r.packet) || !ok r.packet then s1.countPkg 0 1 else f s1 r.packet

/-- Whether this package accepts a request of a job (R422): its context open, of that partition and job. -/
def State.accepts (s : State) (p : Packet) : Bool :=
  p.job != 0 && (s.ctx? ⟨p.destCtx, p.destGen⟩).any (fun c => c.torn == 0 && c.ptn == p.destPtn && c.job == p.job)

/-- Drops a request without a response (R335). -/
def State.lateDrop (s : State) (p : Packet) : State := s.countPtn p.destPtn 0 1

/-- The answer to a packet (R413, R420): back to its sender, address and tag repeated (log entry 22). -/
def State.answer (s : State) (p : Packet) (type status : Nat) (payload : List Byte) : State :=
  let die := if p.tag % 256 < 192 then p.tag % 256 / 48 else p.die
  s.sendPacket (pktSeal { p with
    type := type, vc := 0, detour := false, dest := p.src, src := s.pkgNo, destPtn := p.srcPtn, srcPtn := p.destPtn,
    die := die, destCtx := p.srcCtx, destGen := p.srcGen, srcCtx := p.destCtx, srcGen := p.destGen, hops := 0,
    status := status, payload := payload }) 3

/-- Where a request's address leads in the destination context (R423). -/
def State.requestPlace (s : State) (p : Packet) (a : Acc) : Xl :=
  s.translateLocal (whoOf p.destPtn ⟨p.destCtx, p.destGen⟩) p.addr a

/-- Unit code of the die that serves a packet. -/
def State.servingUnit (s : State) (p : Packet) : Nat := dieUnit ((s.diesOf p.destPtn).headD 0)

/-! ### Requests (R422 to R424) -/

/-- A read request (R423). -/
def State.readServe (s : State) (p : Packet) : State :=
  let len := p.lenM1 + 1
  if p.job = 0 then
    (if s.servesFix p then s.answer p 2 0 (s.fixRead p.destPtn p.addr len) else s.lateDrop p)
  else if !s.accepts p then s.lateDrop p
  else match s.requestPlace p ⟨true, false⟩ with
    | .no st => s.answer p 2 (statusLink st) []
    | .ok pl =>
      let r := s.eccRead pl len [⟨p.destCtx, p.destGen⟩] (s.servingUnit p)
      if r.2 then r.1.answer p 2 5 [] else r.1.answer p 2 0 (r.1.bytesAt pl len)

/-- READ_REQUEST (R423). -/
def execReadRequest (k : Nat) (s : State) : Out :=
  onWf (.readRequest k) (s.serve k 1 (fun _ => true) (fun t p => t.readServe p))

/-- The generation a push names, where a remote write is one (R196): it reaches a weight object whose open notice went to its
sender. R413's packet carries no generation, so it is the one of the latest notice (log entry 17). -/
def State.pushGen (s : State) (p : Packet) : Option Nat :=
  (s.vaObj ⟨p.destCtx, p.destGen⟩ (s.pkgNo * 2 ^ 52 + p.addr)).bind (fun i =>
    ((s.ptn p.destPtn).opened.find? (fun o => o.obj == i && o.pkg == p.src && o.ptn == p.srcPtn)).map (·.gen))

/-- A write (R423): acknowledged once it is performed. A push that finds its slot closed is dropped (R196) and acknowledged
all the same (log entry 22). Log entry 67 (DEDUCED). -/
def State.writeServe (s : State) (p : Packet) : State :=
  let c : CtxId := ⟨p.destCtx, p.destGen⟩
  if p.job = 0 then (if s.servesFix p then (s.fixWrite p).answer p 4 0 [] else s.lateDrop p)
  else if !s.accepts p then s.lateDrop p
  else match s.pushGen p with
    | some g => match s.pushArrive p.destPtn c p.addr g p.payload with
      | some t => t.answer p 4 0 []
      | none => (s.countPtn p.destPtn 6 1).answer p 4 0 []
    | none => match s.requestPlace p ⟨false, true⟩ with
      | .no st => s.answer p 4 (statusLink st) []
      | .ok pl => (s.store pl p.payload).answer p 4 0 []

/-- WRITE (R423). -/
def execWrite (k : Nat) (s : State) : Out := onWf (.write k) (s.serve k 3 (fun _ => true) (fun t p => t.writeServe p))

/-- What an atomic writes (R424, R413): LOCKG and UNLOCKG as R232 and R233. -/
def atomicNew (op : Nat) (old b c : Word) : Option Word :=
  if op = 5 then (lockStep b old).1 else if op = 6 then (unlockStep b old).1 else some (atomStep op old b c)

/-- An atomic (R424), performed and answered with the old value. -/
def State.atomicServe (s : State) (p : Packet) : State :=
  if !s.accepts p then s.lateDrop p
  else match s.requestPlace p ⟨true, true⟩ with
    | .no st => s.answer p 6 (statusLink st) []
    | .ok pl =>
      let r := s.eccRead pl 4 [⟨p.destCtx, p.destGen⟩] (s.servingUnit p)
      let old := r.1.bytesAt pl 4
      let b : Word := BitVec.ofNat 32 (leAt p.payload 0 4)
      let c : Word := BitVec.ofNat 32 (leAt p.payload 4 4)
      if r.2 then r.1.answer p 6 5 []
      else
        let t := match atomicNew p.op (BitVec.ofNat 32 (leNat old)) b c with
          | some v => r.1.store pl (natLe 4 v.toNat)
          | none => r.1
        t.answer p 6 0 old

/-- ATOMIC (R424): OP 7 is reserved (R414). -/
def execAtomic (k : Nat) (s : State) : Out := onWf (.atomic k) (s.serve k 5 (fun p => p.op < 7) (fun t p => t.atomicServe p))

/-! ### Responses (R425) -/

/-- A request of a command to another package fails: the command ends with the status (R378). -/
def State.cmdFault (s : State) (c : Cid) (status : Nat) : State :=
  match s.cmd? c with
  | none => s
  | some k =>
    if k.stage != .running then s
    else if eOpcode k.raw = 6 then s.updFail c status 0
    else (s.dropMove c).endCmd c status 0 0

/-- The far request that a response names: its core and slot, where the TAG's epoch is the slot's present one. -/
def State.tagged (s : State) (p : Packet) : Option (Nat × Nat × FarReq) :=
  let core := p.tag % 256
  let k := p.tag / 256 % 64
  if 192 ≤ core || s.tagOf core k != p.tag then none
  else (Tab.get? (s.work core).slots k).bind (fun r => match r.place with
    | .remote pkg _ => if pkg = p.src then some (core, k, r) else none
    | _ => none)

/-- What a far request answers to: a read response, an acknowledgement or an atomic response. -/
def FarAct.answerType : FarAct → Nat
  | .load _ _ _ _ _ _ => 2
  | .store _ _ _ => 4
  | .run _ _ u => if u.write then 4 else 2
  | .cmd _ u _ => if u.write then 4 else 2
  | _ => 6

/-- An atomic performed at another package updates the writing die's cache with what it wrote there (R284). -/
def State.cacheAtomic (s : State) (p : Nat) (r : FarReq) (bs : List Byte) : State :=
  let old : Word := BitVec.ofNat 32 (leNat (bs.take 4))
  let new_ := match r.act with
    | .atom op b c _ _ _ => some (atomStep op old b c)
    | .lock _ _ own => (lockStep own old).1
    | .unlock _ _ own => (unlockStep own old).1
    | _ => none
  match new_ with
  | none => s
  | some v => s.cacheUpdate (s.ptnOfCore p) (p / 48) r.ctx r.addr (natLe 4 v.toNat)

/-- A response reaches the slot that waits for it: freed, answered, or its access faults (R423). One whose TAG names no
waiting request is dropped and counted in NV_TAG_LATE. -/
def State.slotAnswer (s : State) (p : Packet) : State :=
  match s.tagged p with
  | none => s.countPkg 3 1
  | some (core, k, r) =>
    if r.act.answerType != p.type then s.countPkg 3 1
    else
      let s1 := s.freeSlot core k
      let s2 :=
        if p.status != 0 then
          (match r.act with
          | .cmd c _ _ => s1.cmdFault c (linkStatus p.status)
          | _ => s1.accessFault core r.slot r.block r.pc r.mask (linkStatus p.status))
        else
          let t := (s1.farAnswer core r p.payload).cacheAtomic core r p.payload
          (match r.act with
          | .cmd c _ _ => t.cmdStep c
          | _ => t)
      s2.pumpAll core

/-- The quarter that a new cache line stands in: by its set, among the partition's quarters of the die (log entry 11). -/
def State.lineQuarter (s : State) (n die addr : Nat) : Nat :=
  let qs := (s.quartersOf n).filter (fun k => k / 4 == die)
  ((qs[s.cacheSet n die addr % max 1 qs.length]?).getD 0) % 4

/-- A line that the hold was fetching arrives: cached, unless it has been dropped meanwhile (R277, R285), and given to the copy
(R282); a failure faults the copy. -/
def State.fillAnswer (s : State) (f : Fill) (p : Packet) : State :=
  let s1 := { s with fills := s.fills.erase f }
  if p.status != 0 then
    match ((s.work f.p).chan f.ch).runs.find? (fun r => r.entry.stamp == f.copy) with
    | none => s1
    | some r => s1.accessFault f.p r.entry.slot r.entry.block r.entry.pc r.entry.mask (linkStatus p.status)
  else
    let die := f.p / 48
    let s2 := if f.keep && s1.cacheOn f.ptn then
        s1.cacheFill ⟨die, s1.lineQuarter f.ptn die f.addr, f.ptn, f.ctx, f.addr, overLine f.addr p.payload f.patch⟩
      else s1
    ((s2.copyGot f.p f.ch f.copy f.old f.addr p.payload).copyStep f.p f.ch f.copy).pumpAll f.p

/-- The fetch that a read response answers, if any: its TAG names the core alone (log entry 11). -/
def State.fillOf (s : State) (p : Packet) : Option Fill :=
  s.fills.find? (fun f => f.p == p.tag && f.addr == p.src * 2 ^ 52 + p.addr && p.lenM1 == 255)

/-- A read response (R425). -/
def State.readAnswer (s : State) (p : Packet) : State :=
  if p.job = 0 then s.restoreStep p
  else match s.fillOf p with
    | some f => s.fillAnswer f p
    | none => s.slotAnswer p

/-- READ_RESPONSE (R425). -/
def execReadResponse (k : Nat) (s : State) : Out :=
  onWf (.readResponse k) (s.serve k 2 (fun _ => true) (fun t p => t.readAnswer p))

/-- An acknowledgement: of a fix packet, of a far write, of a notice that registers a wait, or of a signal notice (R314,
R393, R426). -/
def State.ackAnswer (s : State) (p : Packet) : State :=
  if p.job = 0 then s.fixAck p
  else if p.tag % 256 < 192 && p.tag < 2 ^ 16 && (s.tagged p).isSome then s.slotAnswer p
  else if s.links.notices.any (fun q => q.dest == p.src && q.tag == p.tag) then
    s.setLinks { s.links with notices := s.links.notices.filter (fun q => !(q.dest == p.src && q.tag == p.tag)) }
  else if p.tag % 256 < 192 then s.slotAnswer p
  else
    let x := s.ptn p.destPtn
    let fix (w : RemoteWait) : RemoteWait :=
      if w.pkg == p.src && w.tag == p.tag then { w with acked := true, invalid := w.invalid || p.status != 0 } else w
    s.setPtn p.destPtn { x with remoteWaits := x.remoteWaits.map fix }

/-- ACKNOWLEDGEMENT (R314). -/
def execAcknowledgement (k : Nat) (s : State) : Out :=
  onWf (.acknowledgement k) (s.serve k 4 (fun _ => true) (fun t p => t.ackAnswer p))

/-- ATOMIC_RESPONSE (R425). -/
def execAtomicResponse (k : Nat) (s : State) : Out :=
  onWf (.atomicResponse k) (s.serve k 6 (fun _ => true) (fun t p => t.slotAnswer p))

/-! ### Notices (R347, R426, R195) -/

/-- Registers a waiter on a fence of a partition, or signals it at once. -/
def State.addWaiter (s : State) (n h : Nat) (w : Waiter) : State :=
  let st := s.fenceState n h
  let ctx := (s.fenceCtx n h).getD ⟨0, 0⟩
  if st.1 then s.notify n h ctx st.2 [w]
  else if hKind h = 5 then
    match Tab.get? (s.ptn n).fences (hIndex h) with
    | none => s
    | some f => s.putFence n (hIndex h) { f with waiters := f.waiters ++ [w] }
  else
    let x := s.ptn n
    s.setPtn n { x with drains := x.drains ++ [⟨hIndex h, hKind h - 6, w⟩] }

/-- A fence notice: OP 0 registers a remote wait, judged here (R376, R346); OP 1 signals a remote waiter. -/
def State.noticeServe (s : State) (p : Packet) : State :=
  let n := p.destPtn
  let h := leAt p.payload 0 4
  let tag := leAt p.payload 8 4
  if !s.accepts p then s.lateDrop p
  else if p.op = 0 then
    let w : Waiter := ⟨p.src, p.srcPtn, ⟨p.srcCtx, p.srcGen⟩, tag, p.die⟩
    let good := fenceKind h && s.validHandle n s.dealer.seq h && (s.fenceCtx n h).any (fun c => s.jobOf c == p.job)
    if good then (s.answer p 4 0 []).addWaiter n h w else s.answer p 4 1 []
  else
    let x := s.ptn n
    let fix (w : RemoteWait) : RemoteWait :=
      if w.pkg == p.src && w.tag == tag then { w with signalled := true, error := bit (leAt p.payload 4 4) 1 } else w
    (s.setPtn n { x with remoteWaits := x.remoteWaits.map fix }).answer p 4 0 []

/-- FENCE_NOTICE (R347): an OP above 1 is reserved (R414). -/
def execFenceNotice (k : Nat) (s : State) : Out :=
  onWf (.fenceNotice k) (s.serve k 7 (fun p => p.op < 2) (fun t p => t.noticeServe p))

/-- An open notice reaches an owner (R195): the peer's slot is open, and updates computed already push to it.
Log entry 17 (DEDUCED). -/
def State.openServe (s : State) (p : Packet) : State :=
  if !s.accepts p then s.lateDrop p
  else
    let own : CtxId := ⟨p.destCtx, p.destGen⟩
    s.openArrive p.destPtn
      ⟨p.src, p.srcPtn, ⟨p.srcCtx, p.srcGen⟩, own, leAt p.payload 16 4, leAt p.payload 0 8, leAt p.payload 8 8⟩

/-- OPEN_NOTICE (R195). -/
def execOpenNotice (k : Nat) (s : State) : Out := onWf (.openNotice k) (s.serve k 8 (fun _ => true) (fun t p => t.openServe p))

/-- FENCE_NOTICE_RESEND: an unacknowledged signal notice goes out again, or is given up where its destination cannot be
reached (R426). -/
def State.resend (s : State) (k : Nat) : State :=
  match s.links.notices[k]? with
  | none => s
  | some p =>
    let dir := s.direction p.dest
    let routed := dir.any (fun d => (s.portFor p.die d p.srcPtn).isSome || (
      let e := Tab.get s.links.detours p.dest (0, false)
      (s.portFor p.die (if e.2 then e.1 else (2 * (d / 2 + 1)) % 6) p.srcPtn).isSome))
    if !s.namesPkg p.dest || !routed then s.setLinks { s.links with notices := dropAt s.links.notices k }
    else s.sendPacket p 3

/-- FENCE_NOTICE_RESEND (R426). -/
def execFenceNoticeResend (k : Nat) (s : State) : Out := onWf (.fenceNoticeResend k) (s.resend k)

/-! ### Transit (R414, R417 to R420) -/

/-- PACKET_FORWARD: a packet for another package goes on, or is dropped where its HOPS would exceed 31. -/
def State.forward (s : State) (k : Nat) : State :=
  match s.links.inbox[k]? with
  | none => s
  | some r =>
    if r.packet.dest = s.pkgNo then s
    else
      let s1 := s.takePacket k r
      if 31 ≤ r.packet.hops then s1.countPkg 1 1
      else s1.sendPacket { r.packet with hops := r.packet.hops + 1 } (r.port % 6 / 2)

/-- PACKET_FORWARD (R417). -/
def execPacketForward (k : Nat) (s : State) : Out := onWf (.packetForward k) (s.forward k)

/-! ### Time running out (R425, R426) -/

/-- The report of a remote timeout (R477, R480). Log entry 68 (DEDUCED). -/
def timeoutReport (pkg reporter addr tag : Nat) (ctx : List CtxId) (ptn : List Nat) : Report :=
  { report 0x13 (packageUnit pkg) with
    status := St.unreachable, reporter := reporter, ctx := ctx, ptn := ptn, d0 := BitVec.ofNat 64 addr,
    d1 := BitVec.ofNat 64 (tag % 2 ^ 14) }

/-- The dispatch of a block ends because a remote request had no answer (R425). -/
def State.blockUnreached (s : State) (p slot block pc : Nat) : State :=
  match (Tab.get? (s.work p).blocks block).bind (fun b => s.disp? b.cid) with
  | none => s
  | some d => s.endDisp d St.unreachable (faultInfo p slot pc)

/-- A far-request slot times out: it is freed, its epoch advances, its access faults. -/
def State.slotOut (s : State) (p k : Nat) : State :=
  match Tab.get? (s.work p).slots k with
  | none => s
  | some r => match r.place with
    | .remote pkg _ =>
      let n := s.ptnOfCore p
      let s1 := s.reportErr (timeoutReport pkg (coreUnit p) r.addr (s.tagOf p k) [r.ctx] [n])
      let s2 := match r.act with
        | .cmd c _ _ => s1.cmdFault c St.unreachable
        | _ => s1.blockUnreached p r.slot r.block r.pc
      let s3 := s2.freeSlot p k
      (s3.setCore p { s3.core p with epochs := Tab.set (s3.core p).epochs k ((Tab.get (s3.core p).epochs k 0 + 1) % 4) }).pumpAll p
    | _ => s

/-- A line that the hold fetches for a core times out. -/
def State.fillOut (s : State) (p addr : Nat) : State :=
  match s.fills.find? (fun f => f.p == p && f.addr == addr) with
  | none => s
  | some f =>
    let s1 := { s with fills := s.fills.filter (fun g => g != f) }
    let s2 := s1.reportErr (timeoutReport (addr / 2 ^ 52) (coreUnit p) addr p [f.ctx] [f.ptn])
    match ((s2.work p).chan f.ch).runs.find? (fun r => r.entry.stamp == f.copy) with
    | none => s2
    | some r => s2.blockUnreached p r.entry.slot r.entry.block r.entry.pc

/-- The notices that register a command's waits are not acknowledged: the command ends before it starts (R426). -/
def State.waitOut (s : State) (c : Cid) : State :=
  match s.cmd? c, (s.ptn c.ptn).remoteWaits.find? (fun w => w.cid == c && !w.acked && !w.signalled) with
  | some k, some w =>
    if k.stage != .read && k.stage != .waiting then s
    else (s.setCmd c.ptn { k with status := St.unreachable }).reportErr
      (timeoutReport w.pkg (unitCode 11 ((s.diesOf c.ptn).headD 0) 0) 0 w.tag
        (((s.queue? c.ptn c.queue).map (fun x => [x.ctx])).getD []) [c.ptn])
  | _, _ => s

/-- A partner stops answering a FIX or a restore (R393, FIX_RESTORE.RESULT 4). -/
def State.fixOut (s : State) (c : Cid) : State :=
  let pkg := (s.partner c.ptn).1
  let who := unitCode 11 ((s.diesOf c.ptn).headD 0) 0
  match (s.ptn c.ptn).fixRuns.find? (fun f => f.cid == c) with
  | some f => (s.fixEnd f St.unreachable).reportErr (timeoutReport pkg who 0 (fixTag c) [f.ctx] [c.ptn])
  | none =>
    if c.queue = 0 && !(s.ptn c.ptn).restores.isEmpty then
      (s.restoreDone c.ptn 4).reportErr (timeoutReport pkg who 0 192 [] [c.ptn])
    else s

/-- REMOTE_TIMEOUT: 4 ms without an answer (R425, R426). -/
def State.remoteTimeout (s : State) (t : TimeoutOf) : State :=
  match t with
  | .slot p k => s.slotOut p k
  | .fill p a => s.fillOut p a
  | .wait n q e => s.waitOut ⟨n, q, e⟩
  | .fix n q e => s.fixOut ⟨n, q, e⟩

/-- REMOTE_TIMEOUT (R425). -/
def execRemoteTimeout (t : TimeoutOf) (s : State) : Out := onWf (.remoteTimeout t) (s.remoteTimeout t)

end Sys2Proof.Machine
end

