-- ==== Sys2Proof/Machine/Channels.lean ====
section
/-! DEFINITION. Memory channels and partitions: training (R447 to R449), the patrol scrubber (R443), retirement (R450 to
R453), opening and closing partitions (R459 to R461), and what follows training at start-up (R538 steps 5 and 6). -/

namespace Sys2Proof.Machine

/-! ### Channels -/

/-- The place of data unit k of channel c (R438, R446). -/
def unitPlace (c k : Nat) : Place :=
  if c < 192 then .chan c (128 * k)
  else .host ((128 * k / 4096) * 32768 + (c - 192) * 4096 + 128 * k % 4096)

/-- Data units of a channel (R439). -/
def chanUnits : Nat := checkBase / 128

/-- Sets every data unit of a channel to zero, with good check words (R447 step 4, R460). -/
def State.zeroChan (s : State) (c : Nat) : State :=
  if c < 192 then s.scrub (.chan c 0) checkBase
  else
    let mine (a : Nat) : Bool := chanOf (.host a) == c
    let unit (u : Nat) : Bool := 192 * 2 ^ 27 ≤ u && u < 2 ^ 40 && mine (128 * (u - 192 * 2 ^ 27))
    { s with
      hmem := s.hmem.filter (fun e => !mine e.1)
      poison := s.poison.filter (fun u => !unit u)
      flips := s.flips.filter (fun e => !unit e.1) }

/-- Channels that the package's population has (R435, R436, R536). -/
def State.chanPresent (s : State) (c : Nat) : Bool := 192 ≤ c || c % 48 < 8 * s.devices

/-- Whether a channel is powered and holds data: in service, retraining or migrating. Log entry 50 (DESIGN CHOICE). -/
def State.chanLive (s : State) (c : Nat) : Bool := [2, 3, 4].contains (s.chan c).state

/-- The controller of a channel: the compute die, or 4 for the host die. -/
def chanDie (c : Nat) : Nat := c / 48

/-- Whether channel c is the one its controller trains now, in ascending order (R447). -/
def State.trainsNow (s : State) (c : Nat) : Bool :=
  (s.chan c).state == 1 && (List.range c).all (fun d => chanDie d != chanDie c || (s.chan d).state != 1)

/-! ### Partitions (R459 to R461) -/

/-- Whether core p may issue: the Helm has taken a control step on its die (R57), its partition is open and no reset covers
it (R460, R461, R485). -/
def State.mayRun (s : State) (p : Nat) : Bool :=
  let n := s.ptnOfCore p
  (s.die (p / 48)).stepped && s.isOpen n && !(s.ptn n).halted && !(s.die (p / 48)).tripped &&
  s.dealer.resets.all (fun r => r != ⟨.engine, p⟩ && r != ⟨.die, p / 48⟩ && r.level != .package)

/-- Lets listed cores issue that may. -/
def State.wake (s : State) (ps : List Nat) : State :=
  ps.foldl (fun t p => t.setCore p { t.core p with running := t.mayRun p }) s

/-- Scrubs a partition's channels and hold quarters to zero (R460 step 1, R461). -/
def State.scrubPtn (s : State) (n : Nat) : State :=
  (((List.range 192).filter (fun c => s.ptnOfChan c == some n && s.chanLive c)).foldl (fun t c => t.zeroChan c) s).scrubHold
    (s.quartersOf n)

/-- Chooses k frames of a partition for its save area (R353): which ones is the Peray's choice. -/
def State.pickSave (s : State) (n k : Nat) : List Nat :=
  match s.pickPages frameBytes 0 ((s.ptn n).frameCount * frameBytes) (fun _ => true) k [] with
  | some r => r.2.map (· / 512)
  | none => []

/-- A partition with nothing in it; its counters run on (R33) and its indexes keep their generations (R333). -/
def Ptn.shut (x : Ptn) : Ptn :=
  { Ptn.reset with counters := x.counters, qGens := x.qGens, fGens := x.fGens, oGens := x.oGens, pGens := x.pGens }

/-- Chooses the pages of a partition's fence table, 16 bytes for each of 16,384 fences (R332, R348). Which ones is the Peray's
choice. -/
def State.pickFenceTab (s : State) (n : Nat) : List Nat :=
  match s.computePages n 65536 4 with
  | some r => r.2
  | none => []

/-- Opens a partition (R460): scrubbed, frames dealt, the save area and the fence table reserved, PTN_OPENED. -/
def State.openPtn (s : State) (n : Nat) : State :=
  let s1 := s.scrubPtn n
  let s2 := s1.setPtn n { (s1.ptn n).shut with ready := true, deal := s1.chansOf n }
  let s3 := (s2.setPtn n { s2.ptn n with save := s2.pickSave n (3 * (s2.coresOf n).length) }).drewMany (3 * (s2.coresOf n).length)
  let s4 := (s3.setPtn n { s3.ptn n with fenceTab := s3.pickFenceTab n }).drewMany 4
  ((s4.setField (Reg.ptnCtl n) 0 0 1).raise .ptnOpened n 0).wake (s.coresOf n)

/-- Whether opening is refused (R460): outside the layout, or with no channel in service. Log entry 40 (DEDUCED). -/
def State.cannotOpen (s : State) (n : Nat) : Bool := s.ptnCount ≤ n || (s.chansOf n).isEmpty

/-- Puts the registers of a partition block, PTN_CTL apart, at their defaults (R556). -/
def State.clearBlock (s : State) (n : Nat) : State :=
  let mine (o : Nat) : Bool := o != Reg.ptnCtl n && ptnOfOffset o == some n
  s.setSetup { s.setup with regs := s.setup.regs.filter (fun e => !mine e.1),
                            waiting := s.setup.waiting.filter (fun p => !mine p.offset) }

/-- Closes a partition (R461): scrubbed, its cores issuing nothing, its block at the defaults. -/
def State.closePtn (s : State) (n : Nat) : State :=
  let s1 := (s.scrubPtn n).setPtn n (s.ptn n).shut
  let s2 : State := { s1 with migr := s1.migr.map (fun m => if m.ptn = n then { m with frames := [] } else m) }
  let s3 := (s2.coresOf n).foldl (fun t p => t.setCore p { t.core p with running := false, work := Work.reset }) s2
  ((s3.clearBlock n).setField (Reg.ptnCtl n) 0 0 0).sealCheck

/-- A layout takes effect (R459, R556): every block at its defaults and every partition closed; LAYOUT_INVALID for code 3
(R455). -/
def State.newLayout (s : State) (v : DWord) : State :=
  let s1 := (List.range 16).foldl (fun t n => (t.clearBlock n).setField (Reg.ptnCtl n) 0 0 0) (s.setReg Reg.ptnLayout v)
  let s2 : State := { s1 with ptns := Tab.mapVals Ptn.shut s1.ptns }
  if fld v 1 0 = 3 then s2.raise .layoutInvalid 0 0 else s2

/-! ### The end of training at start-up (R538 steps 4 to 6) -/

/-- Whether a strap holds a reserved encoding (R536). -/
def strapBad (st : BitVec 22) : Bool :=
  strapMempop st == 3 || strapLayout st == 3 || strapBoot st == 3 || (strapBoot st == 1 && !strapEndpoint st)

/-- Opens a partition of the layout at start-up, where nothing refuses it. Log entry 40 (DEDUCED). -/
def State.startPtn (s : State) (n : Nat) : State :=
  if s.cannotOpen n then (s.setField (Reg.ptnCtl n) 0 0 0).setField (Reg.ptnCtl n) 31 31 1 else s.openPtn n

/-- Steps 5 and 6 of start-up: the ports begin training, the partitions of the layout open, START_COMPLETE; STRAP_INVALID
for a reserved strap (R536). The recovery image opens no partition (R541). Log entry 39 (DESIGN CHOICE). -/
def State.startDone (s : State) : State :=
  let s1 := s.setPkg { s.pkg with start := if s.pkg.recov then .recovery else .complete }
  let s2 := (List.range 24).foldl (fun t k => t.trainPort k) s1
  let s3 := if strapBad s.pkg.straps then (s2.setField Reg.strapStatus 22 22 1).raise .strapInvalid 0 0 else s2
  let l := s3.field Reg.ptnLayout 1 0
  let s4 := if l = 3 then s3.raise .layoutInvalid 0 0 else s3
  if s.pkg.recov then (List.range 16).foldl (fun t n => t.setField (Reg.ptnCtl n) 0 0 0) s4
  else ((List.range (layoutCount l)).foldl (fun t n => t.startPtn n) s4).raise .startComplete 0 0

/-- Goes on with start-up once no channel is in training. Log entry 39 (DESIGN CHOICE). -/
def State.trainedAll (s : State) : State :=
  if s.pkg.start == .training && (List.range 200).all (fun c => (s.chan c).state != 1) then s.startDone else s

/-- Step 4 of start-up: every channel present and not retired begins training at MEM_CFG.MAX_RATE (R447, R448, R453).
Log entry 39 (DESIGN CHOICE). -/
def State.startTraining (s : State) : State :=
  let begin_ (t : State) (c : Nat) : State :=
    let x := t.chan c
    if t.meter.retired.contains c then t.setChan c { x with state := 5 }
    else if t.chanPresent c then t.setChan c { x with state := 1, trial := t.field Reg.memCfg 2 0 }
    else t.setChan c { x with state := 0 }
  ((List.range 200).foldl begin_ (s.setPkg { s.pkg with start := .training })).trainedAll

/-- CHANNEL_TRAINED: steps 4 and 5 of R447. -/
def State.channelTrained (s : State) (c : Nat) : State :=
  if s.trainsNow c then
    let x := s.chan c
    (((s.zeroChan c).setChan c { x with state := 2, rate := x.trial }).raise .memChannelUp c x.trial).trainedAll
  else s

/-- CHANNEL_TRAINED (R447). -/
def execChannelTrained (c : Nat) (s : State) : Out := onWf (.channelTrained c) (s.channelTrained c)

/-! ### Retirement (R450 to R453) -/

/-- Puts a channel on the retired list and raises MEM_CHANNEL_RETIRED (R450 step 5, R453). -/
def State.listRetired (s : State) (c : Nat) : State :=
  (s.setMeter { s.meter with retired := if s.meter.retired.contains c then s.meter.retired else c :: s.meter.retired }).raise
    .memChannelRetired c 0

/-- Step 4 and the logbook entry of step 5 (R450; log entry 23): the channel leaves its partition and is powered off; its
retirement takes effect with the entry. -/
def State.powerOffChan (s : State) (c role agent serial : Nat) : State :=
  let s1 := s.setChan c { s.chan c with state := 5, rate := 0 }
  let s2 := match s.ptnOfChan c with
    | none => s1
    | some n => s1.setPtn n { s1.ptn n with gone := c :: (s1.ptn n).gone }
  s2.pend { Sys2Proof.Machine.pending 1 (BitVec.ofNat 64 (Reg.memChanCtl c)) 0 1 (.retire c) with
    role := role, agent := agent, serial := serial, offset := Reg.memChanCtl c }

/-- RATE_STEP_DOWN: a channel in training, or retraining, goes one rate lower; at code 0 it is retired at once, with
MEM_TRAIN_FAIL (R448). Log entry 41 (DEDUCED). -/
def State.rateStepDown (s : State) (c : Nat) : State :=
  let x := s.chan c
  if !(s.trainsNow c || x.state == 3) then s
  else if x.trial = 0 then
    ((s.powerOffChan c 0 0 0).reportErr (report 0x0A (chanUnit c))).trainedAll
  else s.setChan c { x with trial := x.trial - 1 }

/-- RATE_STEP_DOWN (R448). -/
def execRateStepDown (c : Nat) (s : State) : Out := onWf (.rateStepDown c) (s.rateStepDown c)

/-- PER_BANK_REFRESH: one refresh of one bank (R434). -/
def State.refreshBank (s : State) (c bank : Nat) : State :=
  let x := s.chan c
  if s.chanLive c then s.setChan c { x with banks := Tab.set x.banks bank (Tab.get x.banks bank 0 + 1) } else s

/-- PER_BANK_REFRESH (R434). -/
def execPerBankRefresh (c bank : Nat) (s : State) : Out := onWf (.perBankRefresh c bank) (s.refreshBank c bank)

/-- REFRESH_RATE_CHECK: the rate that the device asks for applies (R434). -/
def State.refreshRate (s : State) (c rate : Nat) : State :=
  if s.chanLive c then s.setChan c { s.chan c with refresh := rate } else s

/-- REFRESH_RATE_CHECK (R434). -/
def execRefreshRateCheck (c rate : Nat) (s : State) : Out := onWf (.refreshRateCheck c rate) (s.refreshRate c rate)

/-- PATROL_SCRUB: the unit is read under R442 without raising a fault; a period begins with unit 0 (R443, log entry 24). -/
def State.patrol (s : State) (c k : Nat) : State :=
  if !s.chanLive c || chanUnits ≤ k then s
  else
    let s1 := if k = 0 then s.setChan c { s.chan c with periodFix := [] } else s
    (s1.readUnit (unitPlace c k) [] (chanUnit c) true).1

/-- PATROL_SCRUB (R443). -/
def execPatrolScrub (c unit : Nat) (s : State) : Out := onWf (.patrolScrub c unit) (s.patrol c unit)

/-- The partition frames that byte ranges touch. -/
def rangeFrames (l : List (Nat × Nat)) : List Nat :=
  (l.flatMap (fun r => if r.1 < r.2 then
    (List.range ((r.2 - 1) / frameBytes - r.1 / frameBytes + 1)).map (r.1 / frameBytes + ·) else [])).eraseDups

/-- The partition frames in use that lie on channel c (R450). Log entry 42 (DEDUCED). -/
def State.framesUsed (s : State) (n c : Nat) : List Nat :=
  (rangeFrames (s.usedRanges n)).filter (fun f => ((s.ptn n).frame? f).any (fun e => e.1 == c))

/-- Whether partition frame f is free and lies on another channel than c, none of which is being retired. -/
def State.frameFree (s : State) (n c : Nat) (used : List Nat) (f : Nat) : Bool :=
  !used.contains f && ((s.ptn n).frame? f).any (fun e => e.1 != c && s.chanLive e.1)

/-- The number of free frames of partition n off channel c. -/
def State.freeFrames (s : State) (n c : Nat) : Nat :=
  let x := s.ptn n
  let on (e : Nat) : Nat := ((List.range chanFrames).filter (fun i => (x.frameAt e i).isSome)).length
  let used := (rangeFrames (s.usedRanges n)).filter (fun f => (x.frame? f).any (fun e => e.1 != c))
  ((x.deal.filter (fun e => e != c && !x.gone.contains e)).map on).foldl (· + ·) 0 - used.length

/-- What refuses RETIRE (R452). -/
def State.retireRefused (s : State) (c : Nat) : Bool :=
  192 ≤ c || !s.migr.isEmpty || (s.chan c).state != 2 ||
  (match s.ptnOfChan c with
   | none => true
   | some n => (s.chansOf n).all (· == c) || s.freeFrames n c < (s.framesUsed n c).length)

/-- Ends a migration with nothing left to move (R450 steps 4 and 5). -/
def State.endMigration (s : State) : State :=
  match s.migr with
  | [] => s
  | m :: rest => if m.frames.isEmpty then ({ s with migr := rest }).powerOffChan m.chan m.role m.agent m.serial else s

/-- RETIRE (R450): steps 1 and 2 begin. Log entry 23 (DEDUCED). -/
def State.beginRetire (s : State) (c role agent serial : Nat) : State :=
  let n := (s.ptnOfChan c).getD 0
  let s1 := s.setChan c { s.chan c with state := 4 }
  ({ s1 with migr := [⟨n, c, s.framesUsed n c, role, agent, serial⟩] }).endMigration

/-- Copies a frame to another channel frame: corrected bytes, and poison where the old copy is uncorrectable (R451). -/
def State.copyFrame (s : State) (src dst : Nat × Nat) : State :=
  let ks := cmemKey src.1 (src.2 * frameBytes)
  let kd := cmemKey dst.1 (dst.2 * frameBytes)
  let us := unitOf (.chan src.1 (src.2 * frameBytes))
  let ud := unitOf (.chan dst.1 (dst.2 * frameBytes))
  let s1 := s.scrub (.chan dst.1 (dst.2 * frameBytes)) frameBytes
  let bytes := (s1.cmem.filter (fun e => ks ≤ e.1 && e.1 < ks + frameBytes))
  let bad := (s1.poison ++ (s1.flips.filter (fun e => e.2 == 2)).map (·.1)).filter (fun u => us ≤ u && u < us + frameBytes / 128)
  { s1 with
    cmem := bytes.foldl (fun m e => Mem.write m (e.1 - ks + kd) e.2) s1.cmem
    poison := s1.poison ++ bad.map (fun u => u - us + ud) }

/-- A place after its frame has moved to another channel frame (R450 step 3). -/
def Place.moved (src dst : Nat × Nat) : Place → Place
  | .chan c q => if (c, q / frameBytes) = src then .chan dst.1 (dst.2 * frameBytes + q % frameBytes) else .chan c q
  | pl => pl

/-- A request after a frame has moved: it reaches the new copy (R314, R451). -/
def FarReq.moved (src dst : Nat × Nat) (r : FarReq) : FarReq :=
  { r with
    place := r.place.moved src dst
    act := match r.act with
      | .run ch k u => .run ch k { u with place := u.place.moved src dst }
      | .cmd c u d => .cmd c { u with place := u.place.moved src dst } d
      | a => a }

/-- Outstanding requests follow a frame that has moved (R314, R451). -/
def State.requestsMoved (s : State) (src dst : Nat × Nat) : State :=
  let fix (w : Work) : Work :=
    { w with farWait := w.farWait.map (·.moved src dst), slots := Tab.mapVals (·.moved src dst) w.slots }
  State.rerouted { s with cores := Tab.mapVals (fun c => c.setWork (fix c.work)) s.cores }

/-- FRAME_MIGRATED: the next frame in use is copied to a free frame of the partition, of the Peray's choice, and its map
entry switches, outstanding requests reaching the new copy (R450 steps 2 and 3, R451). The new frame takes the old one's partition frame number. -/
def State.frameMigrated (s : State) : State :=
  match s.migr with
  | [] => s
  | m :: rest =>
    match m.frames with
    | [] => s.endMigration
    | f :: fs =>
      let n := m.ptn
      let x := s.ptn n
      let used := rangeFrames (s.usedRanges n)
      match (x.frame? f), nextFree x.frameCount (fun g => s.frameFree n m.chan used g) x.frameCount
          (Config.choice s.fresh % max 1 x.frameCount) with
      | some src, some g =>
        (match x.frame? g with
        | some dst =>
          let s1 := ((s.copyFrame src dst).requestsMoved src dst).drawn
          let y := s1.ptn n
          let s2 := s1.setPtn n { y with frameMap := Tab.set (Tab.set y.frameMap f dst) g src }
          ({ s2 with migr := { m with frames := fs } :: rest }).endMigration
        | none => s)
      | _, _ => ({ s with migr := { m with frames := fs } :: rest }).endMigration

/-- FRAME_MIGRATED (R450). -/
def execFrameMigrated (s : State) : Out := onWf .frameMigrated s.frameMigrated

/-! ### Retraining in service (R449) -/

/-- RETRAIN on a channel in service (R449): steps 2 and 3 at its present rate; requests wait meanwhile. -/
def State.beginRetrain (s : State) (c : Nat) : State :=
  let x := s.chan c
  if x.state = 2 then s.setChan c { x with state := 3, trial := x.rate } else s

/-- CHANNEL_RETRAIN_DONE: the channel serves again at the rate reached, its data kept (R449). -/
def State.retrainDone (s : State) (c : Nat) : State :=
  let x := s.chan c
  if x.state = 3 then s.setChan c { x with state := 2, rate := x.trial } else s

/-- CHANNEL_RETRAIN_DONE (R449). -/
def execChannelRetrainDone (c : Nat) (s : State) : Out := onWf (.channelRetrainDone c) (s.retrainDone c)

/-- DEVICE_CORRECTION_READ: the device's write-side corrections join MEM_LINK_CORRECTED (R454). -/
def State.deviceCorrections (s : State) (c k : Nat) : State := if s.chanLive c then s.countChan c 0 k else s

/-- DEVICE_CORRECTION_READ (R454). -/
def execDeviceCorrectionRead (c count : Nat) (s : State) : Out :=
  onWf (.deviceCorrectionRead c count) (s.deviceCorrections c count)

end Sys2Proof.Machine
end

