-- ==== Sys2Proof/Machine/Resets.lean ====
section
/-! DEFINITION. The reset ladder (R485) and what it leaves (R468), the start of the package over again (R485, R538, R556). -/

namespace Sys2Proof.Machine

/-! ### Unit codes read back (R476) -/

/-- KIND of a unit code. -/
def uKind (u : Nat) : Nat := bits u 3 0
/-- DIE of a unit code. -/
def uDie (u : Nat) : Nat := bits u 6 4
/-- INDEX of a unit code. -/
def uIndex (u : Nat) : Nat := bits u 19 8

/-! ### Mailboxes of agents that are reset (R370) -/

/-- Returns to its defaults every mailbox channel that waits for one of some agents, raising MAILBOX_DROPPED. -/
def State.dropMailboxes (s : State) (agents : List Nat) : State :=
  let lost (m : Mbx) : Bool := if m.full then agents.contains m.dest else agents.contains m.owner
  (s.setup.mbx.filter (fun e => lost e.2)).foldl (fun t e =>
    (t.setSetup { t.setup with mbx := Tab.erase t.setup.mbx e.1 }).raise .mailboxDropped e.1 0) s

/-! ### One core -/

/-- A core as engine reset leaves it (R485): nothing resident, deck zero, accumulators, engine and generators at their start
(R97); TE_IDLE stays listed where groups were there, so that beats go on counting in it. The epoch of each far-request slot in use advances, so that no late answer is taken (R425). Log entry 45 (DEDUCED). -/
def State.resetCore (s : State) (p : Nat) : State :=
  let c := s.core p
  let epochs := c.work.slots.foldl (fun t e => Tab.set t e.1 ((Tab.get t e.1 0 + 1) % 4)) c.epochs
  let s1 := s.setCore p { c with
    work := Work.reset, lastCtx := [], gens := [], epochs := epochs, portLast := [], running := false
    counters := if c.work.groups.isEmpty then c.counters else Tab.set c.counters 43 (Tab.get c.counters 43 0) }
  let mine (k : Nat) : Bool := deckKey p 0 ≤ k && k < deckKey (p + 1) 0
  { s1 with flips := s1.flips.filter (fun e => !mine e.1), fills := s1.fills.filter (fun f => f.p != p) }

/-- The running commands with work on core p (R468): dispatches with blocks there, commands whose far requests use its slots,
and updates with units dealt to it (R186). -/
def State.workOn (s : State) (p : Nat) : List (Nat × Cmd) :=
  let n := s.ptnOfCore p
  let x := s.ptn n
  let on (k : Cmd) : Bool :=
    let c : Cid := ⟨n, k.queue, k.entry⟩
    (s.work p).blocks.any (fun b => b.2.cid == c) || x.moves.any (fun m => m.cid == c && m.core == p) ||
    x.updates.any (fun u => u.cid == c && (s.dealt n (u.last - u.first)).contains p) ||
    (s.work p).engine.holder == .command c
  (x.cmds.filter (fun k => k.queue != 0 && k.stage == .running && on k)).map (fun k => (n, k))

/-- Ends listed commands, those that have not ended, with a status. Log entry 44 (DEDUCED). -/
def State.cutOff (s : State) (l : List (Nat × Cmd)) (status : Nat) : State :=
  l.foldl (fun t e => t.stopCmd e.1 e.2 status) s

/-- An engine reset completes (R485, R468). -/
def State.engineReset (s : State) (p : Nat) : State :=
  let l := s.workOn p
  ((s.resetCore p).cutOff l St.resetCutOff).wake [p]

/-! ### A partition -/

/-- The byte ranges of a partition that its reset does not scrub: the fix area (R488), translation tables (R337), the fence table
(R348) and program objects (R341). -/
def State.keptRanges (s : State) (n : Nat) : List (Nat × Nat) :=
  let f := s.reg (Reg.fixArea n)
  (fld f 35 16 * frameBytes, (fld f 35 16 + fld f 55 36) * frameBytes) ::
  ((s.ptn n).progs.flatMap (fun e => e.2.frames.map (fun b => (4096 * b, 4096 * b + 65536))) ++ s.tableRanges n)

/-- A context whose table of a level and key is rebuilt empty (R478): it loses every mapping below it, and the tables there. -/
def Ctx.loseTable (c : Ctx) (level key : Nat) : Ctx :=
  let sh := tableShift level
  let big (k : Nat) : Bool := level == 4 && (Tab.get? c.l3 (k / 32)).isSome
  { c with
    l3 := if level = 4 then c.l3 else c.l3.filter (fun e => e.1 / 2 ^ (sh - 21) != key)
    l4 := c.l4.filter (fun e => e.1 / 2 ^ (sh - 16) != key)
    owners := c.owners.filter (fun e => big e.1 || e.1 / 2 ^ (sh - 16) != key)
    tabs := c.tabs.filter (fun t => !(level < t.1 && t.2.1 / 2 ^ (sh - tableShift t.1) == key)) }

/-- A table written whole over its lost units (R442). -/
def State.tableWritten (s : State) (n base size : Nat) : State :=
  match s.ptnPlace n (4096 * base) with
  | none => s
  | some pl => s.scrub pl size

/-- The reset of a partition rebuilds each translation table that holds an uncorrectable unit, and the fence table, empty: the
mappings are lost, and every fence is signalled with its error flag set and PENDING 0; PTN_TABLES_LOST names the partition and
the table's address (R478). A table rebuilt is written whole (log entry 132). -/
def State.rebuildTables (s : State) (n : Nat) : State :=
  let s1 := (s.ctxs.filter (fun e => e.2.ptn == n)).foldl (fun t e => e.2.tabs.foldl (fun u y =>
    let size := if y.1 = 1 then 65536 else 4096
    match u.lostIn n (4096 * y.2.2) size, Tab.get? u.ctxs e.1 with
    | _ :: _, some c => ((u.setCtx e.1 (c.loseTable y.1 y.2.1)).tableWritten n y.2.2 size).raise .ptnTablesLost n y.2.2
    | _, _ => u) t) s
  let x := s1.ptn n
  if x.fenceTab.all (fun b => (s1.lostIn n (4096 * b) 65536).isEmpty) then s1
  else
    let s2 := x.fences.foldl (fun t e => t.signalFence n e.1 { e.2 with error := true, pending := 0 }) s1
    (x.fenceTab.foldl (fun t b => t.tableWritten n b 65536) s2).raise .ptnTablesLost n (x.fenceTab.headD 0)

/-- Scrubs a partition's compute channels but for the ranges kept, and its hold quarters (R485). -/
def State.scrubReset (s : State) (n : Nat) : State :=
  let keep := s.keptRanges n
  let kept (c q : Nat) : Bool := s.ptnOfChan c != some n ||
    ((s.ptn n).addrOf c q).any (fun a => keep.any (fun r => r.1 ≤ a && a < r.2))
  let unit (u : Nat) : Bool := 192 * 2 ^ 27 ≤ u || kept (u / 2 ^ 27) (u % 2 ^ 27 * 128)
  ({ s with
    cmem := s.cmem.filter (fun e => kept (e.1 / 2 ^ 34) (e.1 % 2 ^ 34))
    poison := s.poison.filter unit
    flips := s.flips.filter (fun e => unit e.1) }).scrubHold (s.quartersOf n)

/-- Makes every slot of every compute memory object of a partition unsettled (R468). -/
def State.unsettleAll (s : State) (n : Nat) : State :=
  ((s.ptn n).objs.filter (fun e => !e.2.host)).foldl (fun t e =>
    (List.range e.2.slots.length).foldl (fun u k => u.setObjState n e.1 k .unsettled) t) s

/-- Empties every pin of the partition's contexts (R175). -/
def State.emptyPins (s : State) (n : Nat) : State :=
  (s.ctxs.filter (fun e => e.2.ptn == n)).foldl (fun t e => t.dropPins n ⟨e.1, e.2.gen⟩ (fun _ => true)) s

/-- Stops every queue of a partition (R355), the admin queue showing STOPPED. -/
def State.stopAll (s : State) (n : Nat) : State :=
  let s1 := s.mapQueues n (fun _ _ => true) (fun q => { q with stopped := true })
  if (Tab.get? (s1.ptn n).queues 0).isSome then s1.setField (Reg.adminqCtl n) 22 22 1 else s1

/-- Moves what is still to be moved of a partition's migrating channel at once (R452). Log entry 43 (DESIGN CHOICE). -/
def State.rushMigration (s : State) (n : Nat) : State :=
  let left := match s.migr with
    | [] => 0
    | m :: _ => if m.ptn = n then m.frames.length else 0
  (List.range left).foldl (fun t _ => t.frameMigrated) s

/-- A partition reset completes (R485, R468): its cores, memory and hold, its stash and pins; running commands retire with
RESET_CUT_OFF where no status was given them before; its queues stop; PTN_RESET_DONE. Log entry 44 (DEDUCED). -/
def State.partitionReset (s : State) (n : Nat) : State :=
  if !s.isOpen n then s
  else
    let l := ((s.ptn n).cmds.filter (fun k => k.queue != 0 && k.stage == .running)).map (fun k => (n, k))
    let s1 := (s.coresOf n).foldl (fun t p => t.resetCore p) s
    let x := s1.ptn n
    let s2 := s1.setPtn n { x with saved := [], resv := [], written := [] }
    let s3 := if x.restores = [] then s2 else s2.restoreDone n 5
    let s4 := (((s3.emptyPins n).scrubReset n).rushMigration n).unsettleAll n
    let ended := (s4.ptn n).cmds.filter (fun k => k.queue != 0 && k.stage == .ended)
    let s5 := (s4.cutOff l St.resetCutOff).stopAll n
    let s6 := (l ++ ended.map (fun k => (n, k))).foldl (fun t e => t.retire n e.2.queue e.2.entry) s5
    let s7 := (s6.setPtn n { s6.ptn n with halted := false }).rebuildTables n
    (s7.wake (s.coresOf n)).raise .ptnResetDone n 0

/-! ### A die -/

/-- The joints of a compute die: 0 CD0–CD1, 1 CD1–CD3, 2 CD3–CD2, 3 CD2–CD0, 4 to 7 CDn–HD, 8 MD–HD (R476). -/
def jointsOf (d : Nat) : List Nat :=
  (if d = 0 then [0, 3] else if d = 1 then [0, 1] else if d = 2 then [2, 3] else [1, 2]) ++ [4 + d]

/-- Clears the counters that a die reset covers (R33): its cores, ports, channels, and the partitions with a core on it.
Log entry 46 (DEDUCED). -/
def State.clearCounters (s : State) (d : Nat) : State :=
  { s with
    cores := s.cores.map (fun e => if e.1 / 48 = d then (e.1, { e.2 with counters := [] }) else e)
    chans := s.chans.map (fun e => if e.1 / 48 = d then (e.1, { e.2 with counters := [] }) else e)
    ptns := s.ptns.map (fun e => if (s.diesOf e.1).contains d then (e.1, { e.2 with counters := [] }) else e)
    links := { s.links with ports := s.links.ports.map (fun e => if e.1 / 6 = d then (e.1, { e.2 with counters := [] }) else e) }
    dealer := { s.dealer with dieCounters := s.dealer.dieCounters.filter (fun e => e.1 / 3 != d) } }

/-- Retrains the ports of a die that are up (R485, R409). -/
def State.retrainDie (s : State) (d : Nat) : State :=
  (List.range 6).foldl (fun t r => if (t.port (6 * d + r)).state = 2 then t.retrain (6 * d + r) true 0 else t) s

/-- A die reset completes (R485): every partition with a core on the die as in partition reset, then the die itself, its
helm cores with their mailboxes; the lead of the Helm passes on where it was on the die. Log entry 46 (DEDUCED). -/
def State.dieReset (s : State) (d : Nat) : State :=
  let s1 := ((List.range s.ptnCount).filter (fun n => s.isOpen n && (s.diesOf n).contains d)).foldl
    (fun t n => t.partitionReset n) s
  let mine := (List.range 48).map (48 * d + ·)
  let s2 := ((mine.foldl (fun t p => t.resetCore p) s1).clearCounters d).retrainDie d
  let x := s2.die d
  let s3 := s2.setDie d { x with
    brake := 64, helmBrake := 64, cause := 0, throttled := false, ceiling := false, fallback := false, forceCeiling := false }
  let s4 := s3.setPkg { s3.pkg with joints := s3.pkg.joints.filter (fun e => !(jointsOf d).contains e.1) }
  let s5 : State := { s4 with helm := { s4.helm with lead := if s4.helm.lead = d then 3 - d % 4 else s4.helm.lead } }
  ((s5.dropMailboxes [4 + 2 * d, 5 + 2 * d]).wake mine).sealCheck

/-! ### The package (R485, R468, R556) -/

/-- The registers of the meter die after a package reset or power-on of the five dies: MTR_CAL as set, and MTR_STATUS with the
status it shows of the meter die, which no reset covers (R485), its W1C fields at their defaults (R556).
Log entry 25 (DEDUCED). -/
def State.meterRegs (s : State) : Table DWord :=
  Tab.set (s.setup.regs.filter (fun e => 0x3000 ≤ e.1 && e.1 < 0x3060)) Reg.mtrStatus (s.reg Reg.mtrStatus &&& ~~~0x1A0#64)

/-- Ends an agent's role session and the one it is opening (R521), with a logbook entry. -/
def State.endSession (s : State) (agent : Nat) : State :=
  match Tab.get? s.meter.sessions agent with
  | none => s.setMeter { s.meter with openings := Tab.erase s.meter.openings agent }
  | some x =>
    (s.setMeter { s.meter with sessions := Tab.erase s.meter.sessions agent, openings := Tab.erase s.meter.openings agent }).pend
      { Sys2Proof.Machine.pending 7 0 0 0 .nothing with role := x.role, agent := agent, serial := x.serials.headD 0 }

/-- Where start-up stands once the host die has left reset (R537, R541). -/
def bootStart (st : BitVec 22) : Start :=
  if strapTest st then .heldTest
  else if strapBoot st = 1 && strapEndpoint st then .bootWindow
  else .boot

/-- The five dies as a reset or power-on of them leaves them. What outlives it: the meter die, the Dealer's numbers and its
kept records (R463, R482), bytes in memory devices until training zeroes them (R447), and in a package reset the pace
counters (R37), the cooling class (R68) and THERMTRIP_N (R533).
Log entry 25 (DEDUCED). Log entry 46 (DEDUCED). Log entry 87 (DEDUCED). -/
def State.diesReset (s : State) (powerOn : Bool) (straps : BitVec 22) : State :=
  let r := State.reset
  let cls := s.field Reg.helmLimit 17 16
  let limit : Table DWord :=
    if powerOn then [] else [(Reg.helmLimit, BitVec.ofNat 64 (sustained cls + 0x1000 + cls * 0x10000))]
  let pace (x : Die) : Die := { Die.reset with pace := x.pace, err := x.err, scale := x.scale, cal := x.cal }
  let mine (p : Pending) : Bool := p.offset == 0 && p.change == .nothing
  let s1 := s.endSession 1
  let s2 := s1.endSession 2
  { r with
    pending := s.pending
    fresh := s.fresh
    cmem := s.cmem
    hmem := s.hmem
    dies := if powerOn then [] else Tab.mapVals pace s.dies
    setup := { r.setup with regs := limit ++ s.meterRegs, waiting := s2.setup.waiting.filter mine }
    dealer := { s.dealer with records := [], gaps := [], resets := [], armed := [], dieCounters := [] }
    meter := { s2.meter with requests := [], images := s2.meter.images.filter (fun e => 19 ≤ e.1 && e.1 < 32) }
    pkg := { s.pkg with
      straps := straps, recov := false, fw := [], vhost := [], joints := [], start := bootStart straps
      thermtrip := s.pkg.thermtrip && !powerOn } }

/-- A report of class PACKAGE is kept by the meter die, the last 16 of them (R482). -/
def State.keepReport (s : State) (r : Report) : State :=
  let k : ErrRec := ⟨[], r.detector, 6, r.injected, r.solo, true, 0, 1, 0, 0, r.suspect, r.reporter, r.ctx, r.ptn, 0, r.d0, r.d1,
    1 <<< reporterBit r.reporter⟩
  let l := s.dealer.kept ++ [k]
  s.setDealer { s.dealer with kept := l.drop (l.length - 16) }

/-- The TESTMODE record where the strap holds the dies in reset (R537). -/
def State.testHeld (s : State) : State :=
  if s.pkg.start == .heldTest then s.keepReport { report 0x25 (packageUnit s.pkgNo) with cls := 6 } else s

/-- The agents whose dies a package reset covers (R368, R485): the host die's software and the helm cores. -/
def resetAgents : List Nat := 1 :: (List.range 8).map (4 + ·)

/-- A package reset completes: the mailbox channels that wait for an agent on a die it covers are dropped, and the package starts
over, its straps not sampled again (R370, R485, R535). -/
def State.packageReset (s : State) : State := (s.dropMailboxes resetAgents).diesReset false s.pkg.straps

/-! ### Rows of the ladder -/

/-- Whether a reset covers what another one covers. -/
def State.covers (s : State) (a b : Reset) : Bool :=
  match a.level, b.level with
  | .package, _ => true
  | .die, .die => a.target == b.target
  | .die, .engine => b.target / 48 == a.target
  | .die, .partition => (s.diesOf b.target).contains a.target
  | .partition, .engine => s.ptnOfCore b.target == a.target
  | .partition, .partition => a.target == b.target
  | .engine, .engine => a.target == b.target
  | _, _ => false

/-- Completes a reset: every unit has reported reset entered, scrubbed and restarted (R485). -/
def State.completeReset (s : State) (r : Reset) : State :=
  let s1 := s.setDealer { s.dealer with resets := s.dealer.resets.filter (fun o => !s.covers r o) }
  match r.level with
  | .engine => s1.engineReset r.target
  | .partition => s1.partitionReset r.target
  | .die => s1.dieReset r.target
  | .package => s1.packageReset

end Sys2Proof.Machine
end

