-- ==== Sys2Proof/Machine/Helm.lean ====
section
/-! DEFINITION. The Helm: control steps, rails, brake, sprints (R44 to R66), pace time (R35 to R39) and what HELM_STATUS
shows (R70). -/

namespace Sys2Proof.Machine

/-- Whether the helm cores run (R538 step 3). -/
def State.helmRuns (s : State) : Bool :=
  s.pkg.start == .helm || s.pkg.start == .training || s.pkg.start == .complete || s.pkg.start == .recovery

/-! ### Core beat rate (R40 to R42) -/

/-- Minimum beat rate at 105 °C of grade A by VCORE in steps of 50 mV from 550 mV, in units of 10^7 beats/s (R40). -/
def rate105 : List Nat := [82, 96, 110, 128, 144, 158, 172, 184]

/-- Whether a rate in units of 10^7 beats/s is at most the minimum at a VCORE in mV and 105 °C, for a grade (R40 to R42). -/
def rateOk (rate mv grade : Nat) : Bool :=
  let k := (mv - 550) / 50
  let f := (mv - 550) % 50
  let a := (rate105[k]?).getD 0
  let b := (rate105[k + 1]?).getD a
  rate * 50 * 100 ≤ (a * (50 - f) + b * f) * (if grade = 1 then 92 else 100)

/-! ### Limits of a control step (R49, R52, R53, R58, R62 to R64) -/

/-- The highest of a list of readings. -/
def hottest (l : List Nat) : Nat := l.foldl max 0

/-- Whether a die's last reading of VCORE current, weighted by 2^((Tj − 85) / 10), is above the wear cap of 560 A (R60 to
R62): both sides to the tenth power, so that the comparison is exact. -/
def wearOver (mA tj : Nat) : Bool := 560000 ^ 10 * 2 ^ 85 < mA ^ 10 * 2 ^ tj

/-- Whether a die's trailing weighted average, over 720 hours, has reached 95 % of 560 A (R60 to R62). Weighted current is in
units of 2^-41 mA (log entry 27). -/
def State.wearReached (s : State) (d : Nat) : Bool :=
  let sum : Nat := (Tab.get s.meter.wear d []).foldl (· + ·) 0
  95 * 560000 * 2 ^ 41 * 720 ≤ 100 * sum

/-- The VCORE that a die has been told to take, or has. -/
def Die.vset (x : Die) : Nat := x.target.headD x.vcore

/-- The sealed partition that holds a die, with its VCORE_MV (R472). -/
def State.sealedMv (s : State) (d : Nat) : Option Nat := (s.sealedDie d).map (fun n => s.field (Reg.ptnSeal n) 18 9)

/-- The VCORE that the thermal limits allow a die (R58), and whether it is throttled: a sealed die is not (R472). -/
def thermalCap (x : Die) (tj cur : Nat) (sealed_ : Bool) : Option Nat × Bool :=
  if 105 ≤ tj || x.forceCeiling then (some 550, x.throttled || 105 ≤ tj)
  else if sealed_ then (none, false)
  else if 95 ≤ tj then (some (max 550 (cur - 10)), true)
  else if x.throttled && 93 ≤ tj then (some cur, true)
  else (none, false)

/-- The lowest of the limits, with its cause; a tie goes to the one listed first (R63). -/
def lowest : List (Option Nat × Nat) → Nat × Nat → Nat × Nat
  | [], r => r
  | (none, _) :: l, r => lowest l r
  | (some v, c) :: l, r => lowest l (if v < r.1 then (v, c) else r)

/-- A VCORE that the power rules or the wear cap allow at present VCORE cur: how the Helm finds it is not given, so it is a
free multiple of 5 mV from 550 to 900; where the limit is not met, one below cur, down to 550 (R55, R62). Log entry 26
(DESIGN CHOICE). -/
def freeMv (draw cur : Nat) (unmet : Bool) : Nat :=
  let k := if unmet then (cur - 550) / 5 else 71
  if k = 0 then 550 else 550 + 5 * (Config.choice draw % k)

/-- Causes (R63, HELM_STATUS.CAUSE): 0 ceiling, 1 power, 2 wear, 3 thermal, 4 fallback, 5 frames lost. -/
def causeRank (c : Nat) : Nat :=
  if c = 4 then 5 else if c = 5 then 4 else if c = 3 then 3 else if c = 2 then 2 else if c = 1 then 1 else 0

/-- Whether the wear cap is not met: the die is limited, and its last weighted reading is above the cap (R62). -/
def State.wearUnmet (s : State) (d tj : Nat) : Bool :=
  (s.die d).wearLtd && wearOver (Tab.get s.meter.lastI d 0) tj

/-- The value that the limits allow a die at present VCORE cur, with its cause (R63), and the lowest value of those limits
whose responses a step takes as far as they require: the thermal limits, the frames-lost cap, the power rules where a frame
has broken them, and 0.80 V after a sprint (R49; log entry 38). A sealed die holds its VCORE_MV below the thermal ceiling,
the wear cap and the frames-lost cap (R472; log entry 49); that its cause is then 0 is the model's choice (log entry 116). -/
def State.limitsOf (s : State) (d tj cur : Nat) (cap : Option Nat) : (Nat × Nat) × Nat :=
  let wear : Option Nat := if (s.die d).wearLtd then some (freeMv (s.fresh + 1) cur (s.wearUnmet d tj)) else none
  let lost : Option Nat := if s.helm.framesLost then some 600 else none
  match s.sealedMv d with
  | some mv => (lowest [(cap, 3), (wear, 2), (lost, 5)] (mv, 0), (lowest [(cap, 3), (lost, 5)] (901, 0)).1)
  | none =>
    let top := if s.helm.sprint = [] then 800 else 900
    let power := freeMv s.fresh cur s.helm.exceeded
    (lowest [(cap, 3), (wear, 2), (lost, 5), (some power, 1), (some top, 0)] (901, 0),
      (lowest [(cap, 3), (lost, 5), (if s.helm.exceeded then some power else none, 1), (some top, 0)] (901, 0)).1)

/-- One control step from a VCORE towards the value allowed: at most 25 mV, but down as far as hard requires (R49). -/
def moveMv (cur allowed hard : Nat) : Nat := if cur < allowed then min (cur + 25) allowed else max allowed (min (cur - 25) hard)

/-- The VCORE target that a control step gives a die at present VCORE cur, and its cause (R49, R52, R55, R58, R63). -/
def State.newVcore (s : State) (d tj cur : Nat) (cap : Option Nat) : Nat × Nat :=
  let r := s.limitsOf d tj cur cap
  (max 550 (moveMv cur r.1.1 r.2 / 5 * 5), r.1.2)

/-- Whether the power rules call for the brake of a die: a frame has broken them, and the die stands at 0.55 V; a sealed die
only where every unsealed one stands there with its brake at 1/64 (R64, R472). -/
def State.powerUnmet (s : State) (d : Nat) : Bool :=
  s.helm.exceeded &&
  (if (s.sealedMv d).isSome then
    (List.range 4).all (fun e => (s.sealedMv e).isSome || ((s.die e).vcore == 550 && (s.die e).brake == 1))
   else (s.die d).vcore == 550)

/-- The brake after a control step (R55, R58, R64): held at 16/64 at the ceiling, one sixty-fourth lower where a power rule or
the wear cap is not met at 0.55 V, else released by one. Log entry 37 (DEDUCED). -/
def newBrake (b : Nat) (ceiling unmet exceeded : Bool) : Nat :=
  let b1 := if ceiling then min b 16 else b
  if unmet then max 1 (b1 - 1) else if ceiling || exceeded then b1 else min 64 (b1 + 1)

/-- The host die's clock in eighths after a control step (R59). -/
def hostClock (x : Die) (tj : Nat) : Die :=
  if 105 ≤ tj || x.forceCeiling then { x with clock8 := 2, throttled := true, forceCeiling := false }
  else if 95 ≤ tj then { x with clock8 := max 2 (x.clock8 - 1), throttled := true }
  else if x.throttled && 93 ≤ tj then x
  else { x with clock8 := min 8 (x.clock8 + 1), throttled := false }

/-- The host die's part of the lead's control step: its clock, and THERMAL_CEILING naming HD (R59).
Log entry 47 (DESIGN CHOICE). -/
def State.hostStep (s : State) (tj : Nat) : State :=
  let x := s.die 4
  let s1 := s.setDie 4 { hostClock x tj with tj := tj, stepTj := tj, ceiling := 105 ≤ tj }
  if 105 ≤ tj && !x.ceiling then (s1.raise .thermalCeiling 4 0).reportErr (report 0x1C (dieUnit 4)) else s1

/-- Wear limiting of a die starts or ends at a control step (R62). -/
def State.wearStep (s : State) (d : Nat) : State :=
  let x := s.die d
  let now := s.wearReached d
  if x.wearLtd == now then s else (s.setDie d { x with wearLtd := now }).raise .wearLimited d (b2n now)

/-- A compute die's control step (R49, R57). The brake is lowered only for a limit not met with VCORE already at 0.55 V
(R64). -/
def State.dieStep (s0 : State) (d tj : Nat) : State :=
  let s := s0.wearStep d
  let x := s.die d
  let cap := thermalCap x tj x.vset (s.sealedMv d).isSome
  let r := s.newVcore d tj x.vset cap.1
  let ceiling := (105 ≤ tj : Bool) || x.forceCeiling
  let unmet := s.powerUnmet d || (x.vcore == 550 && s.wearUnmet d tj)
  let y : Die := { x with
    tj := tj, throttled := cap.2, ceiling := 105 ≤ tj, forceCeiling := false, cause := r.2, fallback := false, stepped := true
    stepMv := r.1, stepTj := tj
    brake := newBrake (if x.fallback then x.helmBrake else x.brake) ceiling unmet s.helm.exceeded
    target := if r.1 = x.vcore ∧ x.vsram = max r.1 700 then [] else [r.1] }
  let h : Helm := { s.helm with
    limits := Tab.set s.helm.limits d (s.reg Reg.helmLimit), judged := if d = s.helm.lead then [] else s.helm.judged }
  let s1 := (({ s with helm := h }).setDie d y).drewMany 2
  let s2 := if 105 ≤ tj && !x.ceiling then (s1.raise .thermalCeiling d 0).reportErr (report 0x1C (dieUnit d)) else s1
  if x.stepped then s2 else s2.wake ((List.range 48).map (48 * d + ·))

/-- Goes on with start-up step 4 once every compute die has taken a control step (R538). -/
def State.steppedAll (s : State) : State :=
  if s.pkg.start == .helm && (List.range 4).all (fun d => (s.die d).stepped) then s.startTraining else s

/-- HELM_CONTROL_STEP: 24 readings of the die's sensors; in the lead's step the host die's 8 follow (R57, R59).
Log entry 47 (DESIGN CHOICE). -/
def State.controlStep (s : State) (d : Nat) (readings : List Nat) : State :=
  if !s.helmRuns || (s.die d).tripped then s
  else
    let s1 := s.dieStep d (hottest (readings.take 24))
    let s2 := if d = s.helm.lead ∧ 24 < readings.length then s1.hostStep (hottest (readings.drop 24)) else s1
    s2.sealCheck.steppedAll

/-- HELM_CONTROL_STEP (R49). -/
def execHelmControlStep (die : Nat) (readings : List Nat) (s : State) : Out :=
  onWf (.helmControlStep die readings) (s.controlStep die readings)

/-- REGULATOR_SETTLED: the next step of R45. Raising, VSRAM settles before VCORE; lowering, VCORE before VSRAM. -/
def Die.settled (x : Die) : Die :=
  match x.target with
  | [] => x
  | v :: _ =>
    let sram := max v 700
    if x.vcore < v then (if x.vsram < sram then { x with vsram := sram } else { x with vcore := v, target := if x.vsram = sram then [] else x.target })
    else if v < x.vcore then { x with vcore := v, target := if x.vsram = sram then [] else x.target }
    else { x with vsram := sram, target := [] }

/-- REGULATOR_SETTLED (R45). -/
def execRegulatorSettled (die : Nat) (s : State) : Out := onWf (.regulatorSettled die) (s.setDie die (s.die die).settled)

/-- What R51 does on a die: its rails held, the brake at 32/64, HELM_FALLBACK; the standby instance takes the lead over, on
whichever die the steps were missed. The brake the Helm itself had set comes back with the control step that ends the
fallback (R50). Log entry 37 (DEDUCED). -/
def State.fallBack (s : State) (d : Nat) (injected : Bool) : State :=
  let x := s.die d
  let s1 := s.setDie d { x with target := [], brake := 32, helmBrake := if x.fallback then x.helmBrake else x.brake, fallback := true }
  let s2 : State := { s1 with helm := { s1.helm with lead := if x.fallback then s1.helm.lead else 3 - s1.helm.lead } }
  ((s2.raise .helmFallback d 0).reportErr { report 0x19 (unitCode 10 d 0) with injected := injected }).sealCheck

/-- HELM_STEP (R51). -/
def execHelmStep (die : Nat) (s : State) : Out := onWf (.helmStep die) (if s.helmRuns then s.fallBack die false else s)

/-! ### Frames and sprints (R48, R52, R54 to R56, R65) -/

/-- Energy in nJ of a frame of 50 µs at a power in W. -/
def frameNj (w : Nat) : Nat := w * 50000

/-- The limit in force (R66): the HELM_LIMIT of the lead die's last control step. -/
def State.limitNow (s : State) : DWord := Tab.get s.helm.limits s.helm.lead (s.reg Reg.helmLimit)

/-- The limit in nJ a frame that averages are judged against (R54, R65). -/
def State.averageLimit (s : State) : Nat := frameNj (s.helm.judged.headD (fld s.limitNow 11 0))

/-- Whether the average of frames is at or below a limit. Where fewer than 10,000 have arrived, or some were lost, it is taken
over those held (log entry 117). -/
def averageOk (frames : List Nat) (lim : Nat) : Bool :=
  let total : Nat := frames.foldl (· + ·) 0
  total ≤ frames.length * lim

/-- The number of frames that a sprint has lasted with a frame of e nJ, none where none is in progress after it: a sprint goes
on, or begins where sprints are allowed and the trailing average permits one (R54, R56). -/
def State.sprintWith (s : State) (e : Nat) : List Nat :=
  let v := s.limitNow
  if e ≤ frameNj (fld v 11 0) || fld v 12 12 == 0 then []
  else match s.helm.sprint with
    | k :: _ => [k + 1]
    | [] => if averageOk s.helm.frames s.averageLimit then [1] else []

/-- The Helm's record with one more frame of e nJ (R52, R54): exceeded where the frame is above the sprint ceiling, above the
limit outside a sprint or at 50 ms of one, or where 500 ms after a sprint began the trailing average is above the limit. That
average is judged from then on until it is met. -/
def State.helmFrame (s : State) (e : Nat) : Helm :=
  let v := s.limitNow
  let h := s.helm
  let frames := (e :: h.frames).take 10000
  let sprint := s.sprintWith e
  let since := if sprint = [1] then [1] else h.since.map (· + 1)
  let late := 10000 ≤ since.headD 0
  let met := averageOk frames s.averageLimit
  let above : Bool := frameNj (fld v 11 0) < e
  { h with
    framesLost := false, frames := frames, sprint := sprint, since := if late && met then [] else since
    exceeded := frameNj (sprintCeiling (fld v 17 16)) < e || (above && (sprint.isEmpty || 1000 ≤ sprint.headD 0)) || (late && !met) }

/-- METER_FRAME: the power of the 16 rails since the last frame, from the serving channel. A frame above the sprint ceiling,
or above the limit with sprints off, brakes every compute die to 16/64 (R55, R56). -/
def State.meterFrame (s : State) : State :=
  let e : Nat := s.meter.frame.foldl (fun t x => t + x.2) 0
  let s1 := s.setMeter { s.meter with frame := [] }
  if !s.helmRuns then s1
  else
    let v := s1.limitNow
    let hard := (frameNj (sprintCeiling (fld v 17 16)) < e : Bool) || ((frameNj (fld v 11 0) < e : Bool) && fld v 12 12 == 0)
    let s2 : State := { s1 with helm := s1.helmFrame e }
    let brake (t : State) (d : Nat) : State := t.setDie d
      { t.die d with brake := min 16 (t.die d).brake, helmBrake := min 16 (t.die d).helmBrake }
    if hard then ((List.range 4).foldl brake s2).sealCheck else s2

/-- METER_FRAME (R48). -/
def execMeterFrame (s : State) : Out := onWf .meterFrame s.meterFrame

/-- Frames have stopped for 1 ms (R52). -/
def State.losesFrames (s : State) (injected : Bool) : State :=
  let s1 : State := { s with helm := { s.helm with framesLost := true } }
  (s1.raise .meterFramesLost 0 0).reportErr { report 0x1A (unitCode 13 5 0) with injected := injected }

/-- METER_FRAMES (R52). -/
def execMeterFrames (s : State) : Out :=
  onWf .meterFrames (if s.helmRuns && !s.helm.framesLost then s.losesFrames false else s)

/-! ### Pace time (R36, R37, R39) -/

/-- The milliseconds that a count of oscillator periods between two strobes spans: the whole number nearest to it at the
scale in force, at least one, since strobes may have been missed (R36). Log entry 118 (DEDUCED). -/
def Die.spanMs (x : Die) (periods : Nat) : Nat := max 1 ((2 * periods + x.scale) / (2 * max 1 x.scale))

/-- A strobe reaches a die that has counted a number of oscillator periods since the last: its counter has advanced by them
at the scale in force, changed by at most 0.5 % towards the reference; the scale follows the count (R36, R37). -/
def Die.strobe (x : Die) (periods : Nat) : Die :=
  let ms := x.spanMs periods
  let adv := periods * 1000000 / max 1 x.scale
  let err := x.err + (Int.ofNat (1000000 * ms) - Int.ofNat adv)
  let most := Int.ofNat (adv / 200)
  let c := max (-most) (min most err)
  { x with pace := x.pace + BitVec.ofNat 64 (Int.ofNat adv + c).toNat, err := err - c, scale := periods / ms, cal := .strobed }

/-- A strobe on each of the five dies; one that had lost its strobes raises PACE_CALIBRATED (R39). -/
def State.strobes (s : State) (periods : List Nat) : State :=
  (List.range 5).foldl (fun t d => match periods[d]? with
    | none => t
    | some 0 => t
    | some k =>
      let x := t.die d
      let t1 := t.setDie d (x.strobe k)
      if x.cal = .lost then t1.raise .paceCalibrated d 0 else t1) s

/-- No strobe for 4 ms: a die keeps its last calibration (R39). -/
def State.losesStrobe (s : State) (d : Nat) (injected : Bool) : State :=
  let x := s.die d
  ((s.setDie d { x with cal := .lost }).raise .paceUncalibrated d 0).reportErr
    { report 0x1B (dieUnit d) with injected := injected }

/-- PACE_STROBE (R39): a die whose loss has been raised raises it again only once strobes have resumed. -/
def execPaceStrobe (die : Nat) (s : State) : Out :=
  onWf (.paceStrobe die) (if (s.die die).cal = .lost then s else s.losesStrobe die false)

/-! ### HELM_STATUS (R70) -/

/-- HELM_STATUS as it reads: GRADE and LIMIT_REFUSED as stored, VCORE and temperature as of the latest control steps, the rest
as the dies stand. Log entry 111 (DEDUCED). -/
def State.helmStatus (s : State) : DWord :=
  let v := s.reg Reg.helmStatus
  let ds := (List.range 4).map s.die
  let mv := hottest (ds.map (·.stepMv))
  let tj := hottest ((List.range 5).map (fun d => (s.die d).stepTj))
  let cause := ds.foldl (fun c x =>
    let e := if x.fallback then 4 else x.cause
    if causeRank c < causeRank e then e else c) 0
  let brake := ds.foldl (fun b x => min b x.brake) 64
  BitVec.ofNat 64 (mv % 1024 + 2 ^ 10 * (min tj 255) + 2 ^ 18 * cause + 2 ^ 21 * b2n (s.helm.sprint != []) +
    2 ^ 22 * fld v 23 22 + 2 ^ 24 * brake)

end Sys2Proof.Machine
end

