-- ==== Sys2Proof/Machine/Meter.lean ====
section
/-! DEFINITION. The meter die's measuring core: samples, windows, attribution, records and sinks (R500 to R514), its two
channels (R503 to R505), and the wear record (R60). -/

namespace Sys2Proof.Machine

/-! ### Channels (R503 to R505) -/

/-- The state of a measuring channel: MTR_STATUS.CHAN_A or CHAN_B. -/
def State.meterChan (s : State) (ch : Nat) : Nat := s.field Reg.mtrStatus (2 * ch + 1) (2 * ch)
/-- The channel that serves: MTR_STATUS.SERVING. -/
def State.serving (s : State) : Nat := s.field Reg.mtrStatus 4 4

/-- Puts a channel in a state; A serves while it measures, else B while that one does (R503). -/
def State.setMeterChan (s : State) (ch st : Nat) : State :=
  let s1 := s.setField Reg.mtrStatus (2 * ch + 1) (2 * ch) st
  let serves := if s1.meterChan 0 = 0 then 0 else if s1.meterChan 1 = 0 then 1 else s1.serving
  let s2 := s1.setField Reg.mtrStatus 4 4 serves
  s2.setMeter { s2.meter with second := Tab.set s2.meter.second 48 1 }

/-- Sets an MTR_STATUS field for an internal fault and appends the entry that names it by the register's old and new value
(R505, log entry 30). -/
def State.meterFault (s : State) (hi lo x : Nat) : State :=
  let old := s.reg Reg.mtrStatus
  let s1 := s.setField Reg.mtrStatus hi lo x
  s1.pend (Sys2Proof.Machine.pending 10 (BitVec.ofNat 64 (unitCode 13 5 0)) old (s1.reg Reg.mtrStatus) .nothing)

/-- Whether a channel may start to recalibrate: it and its partner measure (R504). -/
def State.mayRecalibrate (s : State) (ch : Nat) : Bool := s.meterChan 0 == 0 && s.meterChan 1 == 0 && ch < 2

/-- PERIODIC_RECALIBRATION (R504). -/
def execPeriodicRecalibration (ch : Nat) (s : State) : Out :=
  onWf (.periodicRecalibration ch) (if s.mayRecalibrate ch then s.setMeterChan ch 1 else s)

/-- RECALIBRATION_DONE (R504). -/
def execRecalibrationDone (ch : Nat) (s : State) : Out :=
  onWf (.recalibrationDone ch) (if s.meterChan ch = 1 then s.setMeterChan ch 0 else s)

/-! ### Samples (R500, R501) -/

/-- Adds to a number of a table. -/
def addAt (t : Table Nat) (k v : Nat) : Table Nat := Tab.set t k (Tab.get t k 0 + v)

/-- Energy in nJ of a sample in mV and mA over 5 µs. The spec gives an exact count of nJ and no rule for a product that is
not one, so the last nJ of such a one is free (log entry 28). -/
def sampleNj (mv ma draw : Nat) : Nat := mv * ma / 200 + (if mv * ma % 200 = 0 then 0 else Config.choice draw % 2)

/-- 2^(r / 10) for r = 0 to 9, in units of 2^-32, rounded down. Log entry 27 (DESIGN CHOICE). -/
def wearScale : List Nat :=
  [4294967296, 4603231970, 4933621867, 5287724991, 5667243323, 6074000999, 6509953083, 6977194956, 7477972397, 8014692369]

/-- A reading of VCORE current in mA weighted by 2^((Tj − 85) / 10), in units of 2^-41 mA (R60, log entry 27). -/
def wearWeight (ma tj : Nat) : Nat := ma * (wearScale[(tj + 5) % 10]?).getD 0 * 2 ^ ((tj + 5) / 10)

/-- One input's sample on both channels. A VCORE current is weighted at the reading of its die's last control step, 0 °C before
the first after a reset: R60 does not say which reading (log entry 27). -/
def State.sampleInput (s : State) (r : Nat) (x : Sample) : State :=
  let m := s.meter
  let onA := s.meterChan 0 == 0
  let onB := s.meterChan 1 == 0
  let eA := if onA then sampleNj x.vA x.iA (s.fresh + 2 * r) else 0
  let eB := if onB then sampleNj x.vB x.iB (s.fresh + 2 * r + 1) else 0
  let b := s.serving == 1
  let e := if b then eB else eA
  let other := if b then eA else eB
  let cur := if b then x.iB else x.iA
  let w : Nat × Nat := Tab.get m.wearNow r (0, 0)
  s.setMeter { m with
    window := addAt (addAt m.window r e) (16 + r) other
    frame := addAt m.frame r e
    second := addAt (addAt (addAt m.second r eA) (16 + r) eB) (32 + r) (if b then x.vB else x.vA)
    lastI := Tab.set m.lastI r cur
    wearNow := if r < 4 then Tab.set m.wearNow r (w.1 + wearWeight cur (s.die r).stepTj, w.2 + 1) else m.wearNow }

/-- METER_SAMPLE: inputs 0 to 11; the others read 0 (R500). The flags of the interval follow which channel serves and the
reference. -/
def State.meterSample (s : State) (l : List Sample) : State :=
  let s1 := (List.range 12).foldl (fun t r => match l[r]? with
    | none => t
    | some x => t.sampleInput r x) s
  let f : BitVec 32 := BitVec.ofNat 32 (2 * s.serving + 16 * s.field Reg.mtrStatus 6 6)
  (s1.setMeter { s1.meter with flags := s1.meter.flags ||| f }).drewMany 24

/-- METER_SAMPLE (R501). -/
def execMeterSample (samples : List Sample) (s : State) : Out := onWf (.meterSample samples) (s.meterSample samples)

/-! ### Comparison (R503) -/

/-- Full-scale current of an input in mA (R500). Log entry 85 (DEDUCED). -/
def fullScale (r : Nat) : Nat :=
  if r < 4 then 600000 else if r < 8 then 150000 else if r = 8 then 250000 else if r = 9 then 400000
  else if r = 10 then 100000 else 2000

/-- Whether the channels differ on an input by more than 1 % of the larger plus 0.05 % of full-scale power over the second;
full-scale power is taken at the voltage measured. Log entry 85 (DEDUCED). -/
def Meter.differs (m : Meter) (r : Nat) : Bool :=
  let a : Nat := Tab.get m.second r 0
  let b : Nat := Tab.get m.second (16 + r) 0
  let full : Nat := Tab.get m.second (32 + r) 0 * fullScale r
  max a b * 4000 + full < ((a - b) + (b - a)) * 400000

/-- CHANNEL_COMPARE: a second in which both channels measured throughout is compared, rail by rail. -/
def State.channelCompare (s : State) : State :=
  let m := s.meter
  let bad := if (Tab.get? m.second 48).isSome then [] else (List.range 12).filter m.differs
  let f : BitVec 32 := BitVec.ofNat 32 (bad.foldl (fun t r => t + 2 ^ (16 + r)) 4)
  let off := s.meterChan 0 != 0 || s.meterChan 1 != 0
  let s1 := s.setMeter { m with second := if off then [(48, 1)] else [] }
  if bad.isEmpty then s1
  else (s1.setMeter { s1.meter with flags := s1.meter.flags ||| f }).meterFault 5 5 1

/-- CHANNEL_COMPARE (R503). -/
def execChannelCompare (s : State) : Out := onWf .channelCompare s.channelCompare

/-! ### Attribution (R506 to R509) -/

/-- Adds to a context's bucket: compute-rail nJ, shared-rail nJ, units. -/
def bucketAdd (l : List (CtxId × Bucket)) (c : CtxId) (nc ns u : Nat) : List (CtxId × Bucket) :=
  match l with
  | [] => [(c, ⟨nc, ns, u, true⟩)]
  | (d, b) :: t =>
    if d = c then (d, ⟨b.compute + nc, b.shared + ns, b.units + u, true⟩) :: t else (d, b) :: bucketAdd t c nc ns u

/-- divide of R508 over counts: the buckets with each context's floored share of e on the part named, and the sum of the
shares. -/
def divideNj (l : List (Nat × Nat × Nat)) (e : Nat) (shared : Bool) (b : List (CtxId × Bucket)) :
    List (CtxId × Bucket) × Nat :=
  let total : Nat := l.foldl (fun t x => t + x.2.2) 0
  l.foldl (fun (acc : List (CtxId × Bucket) × Nat) x =>
    if x.2.2 = 0 then acc
    else
      let q := e * x.2.2 / total
      let c : CtxId := ⟨x.1, x.2.1⟩
      ((if shared then bucketAdd acc.1 c 0 q 0 else bucketAdd acc.1 c q 0 x.2.2), acc.2 + q)) (b, 0)

/-- Notes the generations of context ids that show activity; a third of one id ends the interval early (R510). -/
def Meter.seeGens (m : Meter) (l : List (Nat × Nat × Nat)) : Meter :=
  l.foldl (fun (t : Meter) x =>
    let g : List Nat := Tab.get t.gensSeen x.1 []
    if x.2.2 = 0 || g.contains x.2.1 then t
    else { t with gensSeen := Tab.set t.gensSeen x.1 (g ++ [x.2.1]), early := t.early || 2 ≤ g.length }) m

/-- The counts of the four dies summed per context. -/
def Meter.allCounts (m : Meter) : List (Nat × Nat × Nat) :=
  (List.range 4).foldl (fun t d =>
    (Tab.get m.counts d []).foldl (fun u (x : Nat × Nat × Nat) => addUnits u ⟨x.1, x.2.1⟩ x.2.2) t) []

/-- Energy of input r in the window that ended. -/
def Meter.endedNj (m : Meter) (r : Nat) : Nat := ((m.ended.headD [])[r]?).getD 0

/-- Divides the shared rails' energy once every die's frame is in or lost, and adds the window to the interval (R508). With
a frame lost the sum of the counts is not known, so that the energy falls to no context. -/
def Meter.shareWindow (m : Meter) : Meter :=
  let e := m.endedNj 8 + m.endedNj 9 + m.endedNj 10
  let r := if m.lostDies.isEmpty then divideNj m.allCounts e true m.buckets else (m.buckets, 0)
  { m with
    buckets := r.1
    unShared := m.unShared + (e - r.2) + m.endedNj 11
    total := (List.range 32).foldl (fun t k => if m.endedNj k = 0 then t else addAt t k (m.endedNj k)) m.total
    ended := [], counts := [], arrived := [], lostDies := [] }

/-- A die's count frame for the window that ended arrives, or is lost (R505, R506, R508). -/
def State.countFrame (s : State) (d : Nat) (intact : Bool) : State :=
  let m := s.meter
  if m.ended.isEmpty || m.arrived.contains d then s
  else
    let e := m.endedNj d + m.endedNj (4 + d)
    let l : List (Nat × Nat × Nat) := Tab.get m.counts d []
    let r := if intact then divideNj l e false m.buckets else (m.buckets, 0)
    let m1 := if intact then m.seeGens l else { m with lostDies := m.lostDies ++ [d], flags := m.flags ||| 8 }
    let m2 : Meter := { m1 with buckets := r.1, unCompute := m.unCompute + (e - r.2), arrived := m.arrived ++ [d] }
    let s1 := s.setMeter (if m2.arrived.length = 4 then m2.shareWindow else m2)
    if intact then s1 else s1.meterFault 7 7 1

/-- COUNT_FRAME (R506). -/
def execCountFrame (die : Nat) (intact : Bool) (s : State) : Out :=
  onWf (.countFrame die intact) (s.countFrame die intact)

/-! ### Strobes and windows (R36, R501, R506, R516) -/

/-- At a window boundary an interval ends early for a new legally relevant image (R517). What MTR_CAL changes acts inside the
converters, before the samples (log entry 28). Log entry 3 (DESIGN CHOICE). -/
def State.boundary (s : State) : State :=
  s.setMeter { s.meter with early := s.meter.early || (Tab.get? s.meter.images 21).isSome }

/-- A window ends: count frames of the one before that are missing are lost (R505), and each die sends its counts and clears
them (R506). -/
def State.windowEnd (s : State) : State :=
  let s1 := (List.range 4).foldl (fun t d => t.countFrame d false) s
  let m := s1.meter
  (s1.setMeter { m with
    ended := [(List.range 32).map (fun k => Tab.get m.window k 0)], window := []
    counts := m.activity, activity := [], arrived := [], lostDies := [], windowNo := m.windowNo + 1 }).boundary

/-- REFERENCE_STROBE (R36): the strobe on each die and the window's end. -/
def execReferenceStrobe (periods : List Nat) (s : State) : Out :=
  onWf (.referenceStrobe periods) (s.strobes periods).windowEnd

/-! ### Records (R510 to R514) -/

/-- The SHA-512 of a leaf (R511). -/
def leafHash (l : List Byte) : List Byte := sha512 (0 :: l)
/-- The SHA-512 of a node. -/
def nodeHash (a b : List Byte) : List Byte := sha512 (1 :: (a ++ b))

/-- One level up a tree. -/
def levelUp : List (List Byte) → List (List Byte)
  | a :: b :: l => nodeHash a b :: levelUp l
  | _ => []

/-- The root of a tree of 2^k leaves, by their hashes. -/
def treeRoot : Nat → List (List Byte) → List Byte
  | 0, l => l.headD []
  | k + 1, l => treeRoot k (levelUp l)

/-- The sibling hashes from leaf i up to the root. -/
def treePath : Nat → List (List Byte) → Nat → List (List Byte)
  | 0, _, _ => []
  | k + 1, l, i => (l[if i % 2 = 0 then i + 1 else i - 1]?).getD [] :: treePath k (levelUp l) (i / 2)

/-- The context that leaf i reports: with activity, the one of that id and parity seen first (log entry 29). -/
def Meter.reported (m : Meter) (i : Nat) : Option (CtxId × Bucket) :=
  m.buckets.find? (fun b => b.2.usedC && b.1.id == i / 2 && b.1.gen % 2 == i % 2)

/-- Leaf i of the record (R511); salts are draws from a number on. Log entry 83 (DEDUCED). -/
def Meter.leaf (m : Meter) (i draw : Nat) : List Byte :=
  let salt := natLe 32 (Config.noise (draw + i))
  let f := m.flags.toNat
  if i < 8192 then
    (match m.reported i with
    | none => List.replicate 32 0
    | some (c, b) =>
      natLe 8 (c.id + 2 ^ 12 * c.gen + 2 ^ 20 + 2 ^ 21 * bits f 1 1 + 2 ^ 22 * bits f 3 3) ++ natLe 8 (b.compute / 1000) ++
        natLe 8 (b.shared / 1000) ++ natLe 8 b.units) ++ salt
  else if i < 8208 then
    let r := i - 8192
    natLe 8 (r + 16 * bits f 1 1 + 32 * bits f (16 + r) (16 + r)) ++ natLe 8 (Tab.get m.total r 0 / 1000) ++
      natLe 8 (Tab.get m.total (16 + r) 0 / 1000) ++ natLe 8 0 ++ salt
  else if i = 8208 then natLe 8 0 ++ natLe 8 (m.unCompute / 1000) ++ natLe 8 (m.unShared / 1000) ++ natLe 8 0 ++ salt
  else List.replicate 64 0

/-- The identity key's signature over bytes, 512 bytes most significant first (R512, R526). -/
def State.signed (s : State) (l : List Byte) : List Byte := natBe 512 (Config.sign l s.fresh)

/-- The version of an image that the meter die holds, 0 for none. -/
def Meter.version (m : Meter) (k : Nat) : Nat := ((Tab.get? m.images k).map (·.version)).getD 0

/-- The record header's signed bytes (R512). -/
def Meter.header (m : Meter) (no : Nat) (root : List Byte) : List Byte :=
  natLe 4 1 ++ natLe 4 (m.windowNo - m.startMs) ++ natLe 8 no ++ natLe 8 Config.serial ++ natLe 8 m.startMs ++
  natLe 4 m.cycles ++ natLe 4 m.sealNo ++ natLe 4 (m.version 20) ++ natLe 4 (b2n m.early + bits m.flags.toNat 5 1 * 2) ++
  List.replicate 80 0 ++ root ++ List.replicate 320 0

/-- Writes bytes into a host memory object of partition n from an offset within one page on. -/
def State.sinkWrite (s : State) (n h off : Nat) (bs : List Byte) : State :=
  match Tab.get? (s.ptn n).objs (h % 2 ^ 20) with
  | none => s
  | some o => match s.objPlace n o (off / o.pageBytes) (off % o.pageBytes) with
    | some pl => s.store pl bs
    | none => s

/-- Writes a context's entry into its sink (R514). -/
def State.sinkEntry (s : State) (no : Nat) (head : List Byte) (leaves : List (List Byte)) (hashes : List (List Byte))
    (id : Nat) (c : Ctx) : State :=
  let i := 2 * id + c.gen % 2
  let used := (s.meter.reported i).any (fun b => b.1.gen == c.gen)
  match c.sink with
  | [] => s
  | h :: _ =>
    if !used then s
    else
      let size := ((Tab.get? (s.ptn c.ptn).objs (h % 2 ^ 20)).map (·.bytes)).getD 2048
      let body := head ++ (leaves[i]?).getD [] ++ (treePath 14 hashes i).flatten
      s.sinkWrite c.ptn h (no % max 1 (size / 2048) * 2048) (sliceAt body 0 2048)

/-- The buckets after a record (R509): a context reported carries what is below a thousandth of a mJ. Log entry 83 (DEDUCED). -/
def Meter.carry (m : Meter) : List (CtxId × Bucket) :=
  m.buckets.map (fun b =>
    if (m.reported (2 * b.1.id + b.1.gen % 2)).any (fun r => r.1 == b.1) then
      (b.1, ⟨b.2.compute % 1000, b.2.shared % 1000, 0, false⟩) else b)

/-- The meter die's state in the next interval: remainders carried, those of ended generations without energy still to
report passed to the unattributed bucket (R509). -/
def State.nextInterval (s : State) : State :=
  let m := s.meter
  let l := m.carry
  let gone (b : CtxId × Bucket) : Bool := !b.2.usedC && (s.ctx? b.1).isNone
  let leaving := l.filter gone
  let kept := l.filter (fun b => !gone b)
  let images := match Tab.get? m.images 21 with
    | none => m.images
    | some x => Tab.set (Tab.erase m.images 21) 20 { x with running := true }
  let svn := match Tab.get? m.images 21 with
    | none => m.minSvn
    | some x => Tab.set m.minSvn 5 (max (Tab.get m.minSvn 5 0) x.svn)
  s.setMeter { m with
    buckets := kept
    unCompute := leaving.foldl (fun t b => t + b.2.compute) (m.unCompute % 1000)
    unShared := leaving.foldl (fun t b => t + b.2.shared) (m.unShared % 1000)
    total := Tab.mapVals (· % 1000) m.total
    gensSeen := (kept.filter (·.2.usedC)).foldl (fun t b => Tab.set t b.1.id [b.1.gen]) []
    flags := 0, early := false, startMs := m.windowNo, recordNo := m.recordNo + 1
    intervalS := s.field Reg.mtrCfg 9 0
    images := images, minSvn := svn }

/-- INTERVAL_END: once the interval's windows are attributed, its record goes to the operator's ring and to the sinks
(R510 to R514). Log entry 82 (DEDUCED). Log entry 84 (DESIGN CHOICE). -/
def State.intervalEnd (s : State) : State :=
  let m := s.meter
  if !m.ended.isEmpty || m.windowNo = m.startMs || !(m.early || m.startMs + 1000 * m.intervalS ≤ m.windowNo) then s
  else
    let no := m.recordNo + 1
    let leaves := (List.range 16384).map (fun i => m.leaf i s.fresh)
    let hashes := leaves.map leafHash
    let s1 := s.drewMany 16384
    let signedPart := m.header no (treeRoot 14 hashes)
    let head := sliceAt (signedPart ++ s1.signed signedPart) 0 1024
    let slots := s1.field Reg.mtrCfg 17 10
    let base := s1.field Reg.mtrCfg 57 18 * 4096
    let s2 := if slots = 0 then s1 else
      (s1.hostWrite (base + no % slots * 528384) (head ++ (leaves.take 8209).flatten)).raise .meterRecord no 0
    let s3 := s2.ctxs.foldl (fun t e => t.sinkEntry no head leaves hashes e.1 e.2) s2
    (s3.nextInterval.setField Reg.mtrStatus 63 32 (no % 2 ^ 32)).drawn

/-- INTERVAL_END (R510). -/
def execIntervalEnd (s : State) : Out := onWf .intervalEnd s.intervalEnd

/-! ### Wear (R60) -/

/-- WEAR_BUCKET: the hour's mean weighted current joins the trailing 720. An hour without readings counts 0. -/
def State.wearBucket (s : State) : State :=
  let m := s.meter
  let push (t : Table (List Nat)) (d : Nat) : Table (List Nat) :=
    let w : Nat × Nat := Tab.get m.wearNow d (0, 0)
    Tab.set t d (((w.1 / max 1 w.2) :: Tab.get t d []).take 720)
  s.setMeter { m with wear := (List.range 4).foldl push m.wear, wearNow := [] }

/-- WEAR_BUCKET (R60). -/
def execWearBucket (s : State) : Out := onWf .wearBucket s.wearBucket

end Sys2Proof.Machine
end

