-- ==== Sys2Proof/Machine/Detect.lean ====
section
/-! DEFINITION. Detectors that fire on a condition of their own (R477, R479), injection (R492, R493), and the rows of the
reset ladder, the error records and the interrupt gap (R483 to R487). -/

namespace Sys2Proof.Machine

/-! ### The hang watchdog (R479, R486, R487) -/

/-- The contexts with a running command that has work on core p. -/
def State.suspects (s : State) (p : Nat) : List CtxId :=
  ((s.workOn p).filterMap (fun e => (s.queue? e.1 e.2.queue).map (·.ctx))).eraseDups

/-- What HANG does outside solo mode (R486): the suspects' running commands end with HANG_DETECTED, and the partition is
ordered into reset. -/
def State.hangReset (s : State) (n : Nat) (l : List CtxId) : State :=
  let mine (k : Cmd) : Bool :=
    k.queue != 0 && k.stage == .running && (s.queue? n k.queue).any (fun x => l.contains x.ctx)
  (s.cutOff (((s.ptn n).cmds.filter mine).map (fun k => (n, k))) St.hangDetected).orderReset .partition n

/-- What HANG does in solo mode (R487): the core is ordered into engine reset, and the solo context's queues go through steps
1 to 4 of R366 with HANG_REPEATED and stay stopped. -/
def State.hangSolo (s : State) (n p : Nat) : State :=
  let id := s.field (Reg.fltSolo n) 11 0
  let c : CtxId := ⟨id, ((Tab.get? s.ctxs id).map (·.gen)).getD 0⟩
  let qs := (s.ptn n).queuesOf c none
  let s1 := (s.orderReset .engine p).revokeQueues n c none St.hangRepeated
  let s2 := s1.mapQueues n (fun q _ => qs.contains q) (fun y => { y with stopped := true })
  qs.foldl (fun t q => t.ownerStep n q) s2

/-- HANG fires with core p of partition n as suspect. -/
def State.hangAt (s : State) (n p : Nat) (ctx : List CtxId) (d0 pc : Nat) (inj : Bool) : State :=
  let l := s.suspects p
  let solo := s.soloMode n
  let s1 := s.reportErr { report 0x15 (coreUnit p) with
    cls := if solo then 3 else 4, ctx := ctx, ptn := [n], d0 := BitVec.ofNat 64 d0
    d1 := BitVec.ofNat 64 (pc + 2 ^ 32 * l.length), injected := inj }
  if solo then s1.hangSolo n p else s1.hangReset n l

/-- The first group of a command on core p. -/
def Work.groupOf (w : Work) (c : Cid) : Option (Nat × Group) := w.groups.find? (fun g => w.cidOf g.2.block == c)

/-- HANG: a running dispatch has made no progress; the suspect is the lowest core that holds a group of it.
Log entry 80 (DEDUCED). -/
def State.hang (s : State) (n q e : Nat) : State :=
  let c : Cid := ⟨n, q, e⟩
  match s.disp? c, (s.coresOf n).find? (fun p => ((s.work p).groupOf c).isSome) with
  | some d, some p => match (s.work p).groupOf c with
    | some (slot, g) =>
      if d.status != 0 then s else s.hangAt n p [d.ctx] (g.active.toNat + 2 ^ 32 * slot + 2 ^ 38 * p) g.pc false
    | none => s
  | _, _ => s

/-- HANG (R479). -/
def execHang (n q e : Nat) (s : State) : Out := onWf (.hang n q e) (s.hang n q e)

/-! ### Resets by class -/

/-- A report of class ENGINE about core p. -/
def State.engineFault (s : State) (det p : Nat) (inj : Bool) : State :=
  (s.reportErr { report det (coreUnit p) with ptn := [s.ptnOfCore p], injected := inj }).orderReset .engine p

/-- HANDSHAKE (R477). -/
def execHandshake (p : Nat) (s : State) : Out := onWf (.handshake p) (s.engineFault 0x16 p false)

/-- A report of class DIE about a unit. -/
def State.dieFault (s : State) (det u d : Nat) (inj : Bool) : State :=
  (s.reportErr { report det u with cls := 5, injected := inj }).orderReset .die d

/-- QM_STALL (R477): the queue manager of partition n stands on the first of its dies. -/
def execQmStall (n : Nat) (s : State) : Out :=
  let d := (s.diesOf n).headD 0
  onWf (.qmStall n) (if s.isOpen n then s.dieFault 0x17 (unitCode 11 d 0) d false else s)

/-- A report of class PACKAGE (R482): kept by the meter die, and the package ordered into reset. -/
def State.packageFault (s : State) (r : Report) : State := (s.keepReport { r with cls := 6 }).orderReset .package 0

/-- A rail fault: DIE for the rails named, PACKAGE otherwise (R477). -/
def State.railFault (s : State) (det r : Nat) (inj : Bool) : State :=
  if r < 4 || (det == 0x1F && r < 8) then s.dieFault det (railUnit r) (r % 4) inj
  else s.packageFault { report det (railUnit r) with injected := inj }

/-- Whether the five dies are powered (R539, R542). -/
def State.powered (s : State) : Bool :=
  match s.pkg.start with
  | .rails _ => false
  | .railFail => false
  | .off => false
  | _ => true

/-- SUPPLY_LOW (R47). -/
def execSupplyLow (rail : Nat) (s : State) : Out :=
  onWf (.supplyLow rail) (if s.powered then s.railFault 0x1E rail false else s)

/-- REGULATOR_FAULT (R477). -/
def execRegulatorFault (rail : Nat) (s : State) : Out :=
  onWf (.regulatorFault rail) (if s.powered then s.railFault 0x1F rail false else s)

/-- THERMAL_TRIP: at 115 °C or above a die out of reset stops, THERMTRIP_N goes low and the package is reset (R58, R59). -/
def State.thermalTrip (s : State) (d reading : Nat) : State :=
  if reading < 115 || !s.powered || s.pkg.start == .heldTest then s
  else
    let s1 := s.setDie d { s.die d with tj := reading, tripped := true }
    (s1.setPkg { s1.pkg with thermtrip := true }).packageFault (report 0x1D (dieUnit d))

/-- THERMAL_TRIP (R58). -/
def execThermalTrip (die reading : Nat) (s : State) : Out := onWf (.thermalTrip die reading) (s.thermalTrip die reading)

/-! ### The host die's ports (R20, R26) -/

/-- What a PCIe port is: a root port, the endpoint presented to the outside server, or held in reset without lane power. -/
inductive PciePort where
  | root
  | endpoint
  | held
deriving DecidableEq, Repr

/-- The PCIe ports by host mode (R26); neither runs while the host die has no power or is held in reset (R537, R539, R542). -/
def State.pciePort (s : State) (k : Nat) : PciePort :=
  if !s.powered || s.pkg.start == .heldTest || 2 ≤ k then .held
  else if !strapEndpoint s.pkg.straps then .root
  else if k = 0 then .endpoint else .held

/-! ### Degraded parts -/

/-- Keeper restarts on its other image (R494, R496); as it is the host die's software in endpoint mode (R26), that ends agent
1's session (R521). Log entry 113 (DEDUCED). -/
def State.keeperTurns (s : State) : State :=
  let s1 := s.setPkg { s.pkg with keeperB := !s.pkg.keeperB }
  if strapEndpoint s.pkg.straps then s1.endSession 1 else s1

/-- Keeper misses its heartbeat and restarts on its other image (R477).
Log entry 98 (DESIGN CHOICE). Log entry 113 (DEDUCED). -/
def State.keeperRestart (s : State) (inj : Bool) : State :=
  s.keeperTurns.reportErr { report 0x20 (dieUnit 4) with injected := inj }

/-- KEEPER_WATCHDOG (R477): keeper runs in endpoint mode, once start-up has loaded it (R26, R538). -/
def execKeeperWatchdog (s : State) : Out :=
  onWf .keeperWatchdog (if s.pkg.start == .complete && strapEndpoint s.pkg.straps then s.keeperRestart false else s)

/-- Unit code of joint j: 0 to 3 the ring, named with the die that R476 lists first, 4 to 7 CDn–HD, 8 MD–HD.
Log entry 36 (DEDUCED). Log entry 81 (DEDUCED). -/
def jointUnit (j : Nat) : Nat :=
  if j < 4 then unitCode 9 (if j = 2 then 3 else if j = 3 then 2 else j) j
  else if j < 8 then unitCode 9 (j - 4) 4 else unitCode 9 5 5

/-- The record of a joint that is down and, on the ring, the change of path of the diagonal flow through it (R22, R23). -/
def State.jointReport (s : State) (j u : Nat) (inj : Bool) : State :=
  let s1 := s.reportErr { report 0x0C u with injected := inj }
  if j < 4 then s1.raise .pathChange j 0 else s1

/-- JOINT_DOWN (R23). Log entry 81 (DEDUCED). -/
def State.jointDown (s : State) (j : Nat) : State :=
  if (Tab.get? s.pkg.joints j).isSome then s
  else (s.setPkg { s.pkg with joints := Tab.set s.pkg.joints j true }).rerouted.jointReport j (jointUnit j) false

/-- JOINT_DOWN (R23). -/
def execJointDown (j : Nat) (s : State) : Out := onWf (.jointDown j) (s.jointDown j)

/-- PCIE_ERROR (R477): a port held in reset, or without power, reports nothing (R26). -/
def execPcieError (port : Nat) (s : State) : Out :=
  onWf (.pcieError port) (if s.pciePort port == .held then s else s.reportErr (report 0x22 (dieUnit 4)))

/-! ### A reset that hangs (R485) -/

/-- RESET_HANG for a reset of a level: the record's class is that of the reset that follows, which covers every unit that the
table names. How far the reset came is not given (log entry 31). -/
def State.resetHung (s : State) (lvl : Level) (target suspect : Nat) (inj : Bool) : State :=
  let r (cls l : Nat) : Report := { report 0x18 suspect with
    cls := cls, injected := inj, d0 := BitVec.ofNat 64 l, d1 := BitVec.ofNat 64 (Config.choice s.fresh) }
  match lvl with
  | .engine =>
    let n := s.ptnOfCore target
    ((s.reportErr { r 4 0 with ptn := [n] }).orderReset .partition n).drawn
  | .partition =>
    let s1 := s.reportErr { r 5 1 with ptn := [target] }
    ((s.diesOf target).foldl (fun t d => t.orderReset .die d) s1).drawn
  | .die => (s.packageFault (r 6 2)).drawn
  | .package => s

/-- The unit that a hung reset names as suspect: for a partition, a core of it of the Peray's choice (R477).
Log entry 80 (DEDUCED). -/
def State.hungUnit (s : State) (r : Reset) : Nat :=
  match r.level with
  | .engine => coreUnit r.target
  | .partition => coreUnit ((s.pick (s.coresOf r.target)).getD 0)
  | .die => dieUnit r.target
  | .package => packageUnit s.pkgNo

/-- RESET_HANG: the k-th reset in progress gives way to the next. A package reset has no bound. Log entry 31 (DESIGN CHOICE). -/
def State.resetHang (s : State) (k : Nat) : State :=
  match s.dealer.resets[k]? with
  | none => s
  | some r =>
    if r.level = .package then s
    else
      let s1 := s.setDealer { s.dealer with resets := dropAt s.dealer.resets k }
      s1.resetHung r.level r.target (s.hungUnit r) false

/-- RESET_HANG (R485). -/
def execResetHang (k : Nat) (s : State) : Out := onWf (.resetHang k) (s.resetHang k)

/-! ### Injection (R492, R493) -/

/-- The partition that owns a unit (R456). -/
def State.unitPtn (s : State) (u : Nat) : Option Nat :=
  let k := uKind u
  let d := uDie u
  let i := uIndex u
  if k = 1 ∨ k = 3 then some (s.ptnOfCore (48 * d + i))
  else if k = 2 ∨ k = 4 then some (s.ptnOfCore (48 * d + i / 4))
  else if k = 5 then some (s.ptnOfCore (48 * d + i / 32))
  else if k = 6 then (List.range 16).find? (fun n => (s.quartersOf n).contains (4 * d + i))
  else if k = 7 && d < 4 then s.ptnOfChan (48 * d + i)
  else none

/-- Whether a unit code names a unit that is present (R476). INDEX alone names a ring joint: any compute die is taken beside
it (log entry 36). -/
def State.unitPresent (s : State) (u : Nat) : Bool :=
  let k := uKind u
  let d := uDie u
  let i := uIndex u
  u < 2 ^ 20 && bits u 7 7 == 0 &&
  (if k = 1 ∨ k = 3 then d < 4 && i < 48
  else if k = 2 ∨ k = 4 then d < 4 && i < 192
  else if k = 5 then d < 4 && i < 1536
  else if k = 6 then d < 4 && i < 4
  else if k = 7 then (d < 4 && i < 48 && s.chanPresent (48 * d + i)) || (d == 4 && i < 8)
  else if k = 8 then d < 4 && i < 6
  else if k = 9 then (d < 4 && i < 5) || ((d == 4 || d == 5) && i == 5)
  else if k = 10 then d < 4 && i < 2
  else if k = 11 then d < 4 && i == 0
  else if k = 12 then d < 5 && i == 0
  else if k = 13 then d == 5 && i == 0
  else if k = 14 then d < 6 && i < 12
  else k == 15 && d == 0 && (i == s.pkgNo || s.namesPkg i))

/-- Whether a unit is of a detector's target kind (R477): RESET_HANG's depends on the reset; HOST_MEM_UE's is on the host
die, MEM_ECC_UE's is not; the supply detectors take compute rails only. -/
def targetOk (det u : Nat) : Bool :=
  let k := uKind u
  if det = 0x18 then k == 1 || k == 6 || k == 7 || (k == 12 && uDie u < 4)
  else if det = 0x21 then k == 7 && uDie u == 4
  else if det = 0x1E ∨ det = 0x1F then k == 14 && uIndex u < 8
  else k == detKind det

/-- Whether a role may arm a code at a unit (R493, R518). -/
def State.mayInject (s : State) (role code u count : Nat) : Bool :=
  let det := code / 256
  let k := uKind u
  let own := [1, 2, 5, 6, 7].contains k && (s.unitPtn u).any s.isOpen
  code % 256 == 0 && 1 ≤ det && det ≤ 0x24 && det != 0x1D && 1 ≤ count && s.unitPresent u && targetOk det u &&
  (if det = 0x24 then role == 3 else if role = 1 then own else role == 2 && k != 13)

/-- Storage detectors, which corrupt writes, and link detectors, which corrupt frames (R492). -/
def waitsArmed (det : Nat) : Bool := [0x01, 0x02, 0x04, 0x05, 0x07, 0x08, 0x21, 0x0D, 0x0E].contains det

/-- A fault inside the meter die, as injected: which one is not given (log entry 31). The records of the interval carry
INJECTED. Log entry 97 (DESIGN CHOICE). -/
def State.meterInject (s : State) : State :=
  let s1 := (s.setMeter { s.meter with flags := s.meter.flags ||| 32 }).drawn
  let c := Config.choice s.fresh % 6
  if c = 0 then s1.meterFault 5 5 1
  else if c = 1 then s1.meterFault 6 6 1
  else if c = 2 then s1.meterFault 7 7 1
  else if c = 3 then s1.meterFault 8 8 1
  else (s1.setMeterChan (c - 4) 2).meterFault (2 * (c - 4) + 1) (2 * (c - 4)) 2

/-- One injected report of a detector that fires at once (R492), with what its class and rule do. -/
def State.fire (s : State) (det u : Nat) : State :=
  let d := uDie u
  let i := uIndex u
  let p := 48 * d + i
  let plain : Report := { report det u with injected := true, ptn := (s.unitPtn u).toList }
  if det = 0x03 ∨ det = 0x16 then s.engineFault det p true
  else if det = 0x09 then (s.reportErr plain).raise .memChannelDegraded (if d = 4 then 192 + i else p) 0
  else if det = 0x0C then s.jointReport i u true
  else if det = 0x0F then (s.raise .nvPortNarrowed (6 * d + i) (s.port (6 * d + i)).width).reportErr plain
  else if det = 0x10 then (if (s.port (6 * d + i)).state = 0 then s else s.dropPort (6 * d + i)).reportErr plain
  else if det = 0x11 then
    ((s.setField (Reg.nvPortStatus (6 * d + i)) 24 24 1).reportErr plain).raise .nvBearingMismatch (6 * d + i) 0
  else if det = 0x13 then s.reportErr { plain with status := St.unreachable }
  else if det = 0x15 then s.hangAt (s.ptnOfCore p) p [] (2 ^ 38 * p) 0 true
  else if det = 0x17 then s.dieFault det u d true
  else if det = 0x18 then
    (if uKind u = 1 then s.resetHung .engine p u true
    else if uKind u = 12 then s.resetHung .die d u true
    else s.resetHung .partition ((s.unitPtn u).getD 0) u true)
  else if det = 0x19 then s.fallBack d true
  else if det = 0x1A then s.losesFrames true
  else if det = 0x1B then s.losesStrobe d true
  else if det = 0x1C then
    ((s.setDie d { s.die d with forceCeiling := true }).raise .thermalCeiling d 0).reportErr plain
  else if det = 0x1E ∨ det = 0x1F then s.railFault det i true
  else if det = 0x20 then s.keeperRestart true
  else if det = 0x23 then (s.raise .fwSignature d 0).reportErr plain
  else if det = 0x24 then s.meterInject
  else s.reportErr plain

/-- Takes one report from an armed injection. -/
def takeReport : List Armed → Armed → List Armed
  | [], _ => []
  | x :: l, a => if x = a then (if a.count = 1 then l else { a with count := a.count - 1 } :: l) else x :: takeReport l a

/-- Fires armed injections of detectors that fire at once, one report after another, each once the action of the one before
has completed (R492). -/
def State.fireSeries : Nat → State → State
  | 0, s => s
  | k + 1, s =>
    if s.dealer.resets != [] then s
    else match s.dealer.armed.find? (fun a => !waitsArmed a.detector && a.count != 0) with
      | none => s
      | some a =>
        State.fireSeries k ((s.setDealer { s.dealer with armed := takeReport s.dealer.armed a }).fire a.detector a.target)

/-- Goes on with a series of injected reports. -/
def State.injectNext (s : State) : State :=
  s.fireSeries (s.dealer.armed.foldl (fun t a => t + a.count) 0)

/-- Adds reports to an injection. -/
def armMore (l : List Armed) (a : Armed) : List Armed :=
  if l.any (fun b => b.detector == a.detector && b.target == a.target) then
    l.map (fun b => if b.detector = a.detector ∧ b.target = a.target then { b with count := b.count + a.count } else b)
  else l ++ [a]

/-- Arms a detector by an FLT_INJECT value (R492). GROUP_FAULT acts on instructions; transfers of a channel, flits of a joint
and packets are not modelled one by one, so that a counted error on them counts at once (log entry 32). -/
def State.arm (s : State) (v : DWord) : State :=
  let det := fld v 15 8
  let u := fld v 47 16
  let count := fld v 55 48
  if det = 0x14 then
    let p := 48 * uDie u + uIndex u
    s.setCore p { s.core p with faultNext := (s.core p).faultNext + count }
  else if det = 0x06 then s.countChan (if uDie u = 4 then 192 + uIndex u else 48 * uDie u + uIndex u) 0 count
  else if det = 0x0B then s.countDie (uDie u) 2 count
  else if det = 0x12 then s.countPkg 0 count
  else (s.setDealer { s.dealer with armed := armMore s.dealer.armed ⟨det, u, count⟩ }).injectNext

/-- Whether an injection has reports left: FLT_INJECT.ARMED. -/
def State.armedNow (s : State) : Bool := s.dealer.armed.any (·.count != 0) || s.cores.any (fun e => e.2.faultNext != 0)

/-! ### Rows of the ladder, the records and the gap -/

/-- RESET_ENTERED: the k-th reset in progress completes, and a series of injected reports goes on. -/
def State.resetEntered (s : State) (k : Nat) : State :=
  match s.dealer.resets[k]? with
  | none => s
  | some r => (s.completeReset r).injectNext

/-- RESET_ENTERED (R485). -/
def execResetEntered (k : Nat) (s : State) : Out := onWf (.resetEntered k) (s.resetEntered k)

/-- ERROR_RECORD_CLOSE (R483). -/
def execErrorRecordClose (k : Nat) (s : State) : Out := onWf (.errorRecordClose k) (s.closeRecord k)

/-- IRQ_GAP_END: a cause held fires once, which begins a gap of its own (R484). -/
def State.gapEnd (s : State) (v : Nat) : State :=
  match Tab.get? s.dealer.gaps v with
  | none => s
  | some g =>
    let s1 := s.setDealer { s.dealer with gaps := Tab.erase s.dealer.gaps v }
    if g.held then s1.irq v else s1

/-- IRQ_GAP_END (R484). -/
def execIrqGapEnd (vector : Nat) (s : State) : Out := onWf (.irqGapEnd vector) (s.gapEnd vector)

end Sys2Proof.Machine
end

