-- ==== Sys2Proof/Machine/Mailbox.lean ====
section
/-! DEFINITION. The mailbox channels (R368 to R370). -/

namespace Sys2Proof.Machine

/-- An agent that reaches the set-up space: the outside server only in endpoint mode (R26, R368, R547).
Log entry 76 (DEDUCED). -/
def State.reaches (s : State) (agent : Nat) : Bool :=
  1 ≤ agent && agent < 12 && (agent != 2 || strapEndpoint s.pkg.straps)

/-- Mailbox channel ch. -/
def State.mbox (s : State) (ch : Nat) : Mbx := Tab.get s.setup.mbx ch ⟨0, 0, false, 0⟩
/-- Replaces mailbox channel ch. -/
def State.setMbox (s : State) (ch : Nat) (m : Mbx) : State :=
  s.setSetup { s.setup with mbx := Tab.set s.setup.mbx ch m }
/-- The word that an agent's read returns. -/
def State.readBy (s : State) (agent : Nat) (v : DWord) : State :=
  s.setSetup { s.setup with reads := Tab.set s.setup.reads agent v }

/-- A read of MBX_LOCK: takes a free lock and returns 0, else returns the holder. -/
def State.lockRead (s : State) (agent ch : Nat) : State :=
  let m := s.mbox ch
  if !s.reaches agent then s
  else if m.owner = 0 then (s.setMbox ch { m with owner := agent }).readBy agent 0
  else s.readBy agent (BitVec.ofNat 64 m.owner)

/-- MBX_LOCK_READ (R369). -/
def execMbxLockRead (agent ch : Nat) (s : State) : Out := onWf (.mbxLockRead agent ch) (s.lockRead agent ch)

/-- A write of MBX_MSG: performed for the holder while FULL is 0. -/
def State.msgWrite (s : State) (agent ch : Nat) (v : DWord) : State :=
  let m := s.mbox ch
  if s.reaches agent && m.owner == agent && !m.full then s.setMbox ch { m with msg := v } else s

/-- MBX_MSG_WRITE (R368). -/
def execMbxMsgWrite (agent ch : Nat) (value : DWord) (s : State) : Out :=
  onWf (.mbxMsgWrite agent ch value) (s.msgWrite agent ch value)

/-- A read of MBX_MSG: by the destination while FULL is 1 it returns the pointer, clears FULL and releases the lock; every
other read returns 0. -/
def State.msgRead (s : State) (agent ch : Nat) : State :=
  let m := s.mbox ch
  if !s.reaches agent then s
  else if m.full && m.dest == agent then
    (s.setSetup { s.setup with mbx := Tab.erase s.setup.mbx ch }).readBy agent m.msg
  else s.readBy agent 0

/-- MBX_MSG_READ (R370). -/
def execMbxMsgRead (agent ch : Nat) (s : State) : Out := onWf (.mbxMsgRead agent ch) (s.msgRead agent ch)

/-- Posts a message to an agent: FULL, and the destination's mailbox interrupt. -/
def State.postTo (s : State) (ch dest : Nat) (m : Mbx) : State :=
  let s1 := s.setMbox ch { m with full := true, dest := dest }
  s1.setDealer { s1.dealer with mbxIrqs := Tab.set s1.dealer.mbxIrqs dest (Tab.get s1.dealer.mbxIrqs dest 0 + 1) }

/-- A write of MBX_POST.DEST by the holder while no message is unread (R368, R369): 0, the poster itself and agents that do
not exist change nothing. A post to the meter die is a meter request (R523). Log entry 79 (DEDUCED). -/
def State.postDest (s : State) (agent ch dest : Nat) : State :=
  let m := s.mbox ch
  if !(s.reaches agent && m.owner == agent && !m.full && s.reaches dest && dest != agent) then s
  else
    let s1 := s.postTo ch dest m
    if dest = 3 then s1.setMeter { s1.meter with requests := s1.meter.requests ++ [⟨agent, ch, m.msg⟩] } else s1

/-- MBX_POST_DEST (R368), after what host software has written. -/
def execMbxPostDest (wr : List HostWrite) (agent ch : Nat) (dest : BitVec 8) (s : State) : Out :=
  onWf (.mbxPostDest wr agent ch dest) ((s.hostSoftware wr).postDest agent ch dest.toNat)

/-- A write of MBX_POST.UNLOCK by the holder while FULL is 0. -/
def State.postUnlock (s : State) (agent ch : Nat) : State :=
  let m := s.mbox ch
  if s.reaches agent && m.owner == agent && !m.full then
    s.setSetup { s.setup with mbx := Tab.erase s.setup.mbx ch }
  else s

/-- MBX_POST_UNLOCK (R368). -/
def execMbxPostUnlock (agent ch : Nat) (s : State) : Out := onWf (.mbxPostUnlock agent ch) (s.postUnlock agent ch)

/-- A write to a register of channel ch at an offset in its 64 bytes: MBX_LOCK and MBX_STATUS are RO; MBX_POST with UNLOCK
acts on it before DEST. -/
def State.mbxWrite (s : State) (agent ch off : Nat) (v : DWord) : State :=
  if off = 8 then s.msgWrite agent ch v
  else if off = 16 then
    (let s1 := if fld v 8 8 = 1 then s.postUnlock agent ch else s
    s1.postDest agent ch (fld v 7 0))
  else s

end Sys2Proof.Machine
end

