-- ==== Sys2Proof/Machine/Firmware.lean ====
section
/-! DEFINITION. Certificates (R519, R520), firmware images and their verification (R528, R529, R496), the flash directory
(R541), and firmware updates (R494). -/

namespace Sys2Proof.Machine

/-! ### Certificates (R519, R520) -/

/-- A certificate as read from its 1,152 bytes; formed says that its fixed and reserved fields are as R519 asks. -/
structure Cert where
  role    : Nat
  serial  : Nat
  issuer  : List Byte
  scope   : Nat
  modulus : Nat
  formed  : Bool
  bytes   : List Byte
deriving DecidableEq, Repr

/-- Whether n bytes at an offset are zero. -/
def zeroAt (l : List Byte) (off n : Nat) : Bool := (sliceAt l off n).all (· == 0)

/-- Reads a certificate. -/
def certOf (l : List Byte) : Cert :=
  { role := leAt l 4 4 % 8
    serial := leAt l 8 8
    issuer := sliceAt l 0x10 32
    scope := leAt l 0x30 8
    modulus := beNat (sliceAt l 0x80 512)
    formed := l.length == 1152 && leAt l 0 4 == 1 && leAt l 4 4 < 4 && zeroAt l 0x38 8 && leAt l 0x40 4 == 65537 && zeroAt l 0x44 60
    bytes := l }

/-- ISSUER_ID of an issuer's modulus. -/
def issuerId (n : Nat) : List Byte := (sha512 (natBe 512 n)).take 32

/-- Whether a certificate is accepted as issued under a modulus (R520): well formed, signed, in scope, not revoked. -/
def State.certOk (s : State) (c : Cert) (n : Nat) : Bool :=
  c.formed && c.issuer == issuerId n && (c.scope == 0 || c.scope == Config.serial) && !s.meter.revoked.contains c.serial &&
  pssVerify n (c.bytes.take 0x280) (sliceAt c.bytes 0x280 512)

/-- The chain of a credential bundle for a role (R520): the certificates leaf first, where it is accepted. Maker and
installer certificates come alone; an operator's with the installer's that issued it. -/
def State.chainOf (s : State) (bundle : List Byte) (role : Nat) : Option (List Cert) :=
  let n := (bundle.headD 0).toNat
  let leaf := certOf (sliceAt bundle 64 1152)
  let up := certOf (sliceAt bundle 1216 1152)
  if !zeroAt bundle 1 63 || leaf.role != role then none
  else if role = 1 then
    (if n = 2 && up.role == 2 && s.certOk up Config.makerRoot && s.certOk leaf up.modulus then some [leaf, up] else none)
  else if (role = 2 ∨ role = 3) ∧ n = 1 then (if s.certOk leaf Config.makerRoot then some [leaf] else none)
  else none

/-! ### Images (R528, R529) -/

/-- VERSION of an image. -/
def imgVersion (l : List Byte) : Nat := leAt l 8 4
/-- SVN of an image. -/
def imgSvn (l : List Byte) : Nat := leAt l 0xC 2
/-- DIGEST of an image's header. -/
def imgDigest (l : List Byte) : List Byte := sliceAt l 0x20 64

/-- Whether an image is verified for a target (R528, R529). -/
def State.imageOk (s : State) (target : Nat) (l : List Byte) : Bool :=
  let len := leAt l 0x10 4
  let c := certOf (sliceAt l 0x80 1152)
  leAt l 0 4 == 1 && leAt l 4 4 == target && leAt l 0xE 2 == 0 && zeroAt l 0x14 12 && zeroAt l 0x60 32 &&
  0x700 + len ≤ l.length && (Tab.get s.meter.minSvn target 0 ≤ imgSvn l : Bool) &&
  sha512 ((l.drop 0x700).take len) == imgDigest l && c.role == 3 && s.certOk c Config.makerRoot &&
  pssVerify c.modulus (l.take 0x500) (sliceAt l 0x500 512)

/-- The number under which the meter die holds a target's image: that of the partition for TARGET 0. -/
def fwKey (target unit : Nat) : Nat := if target = 0 then unit else 15 + target

/-- What the meter die keeps of an image. -/
def imageOf (l : List Byte) (slotB fromHost running : Bool) : Image :=
  ⟨imgVersion l, imgSvn l, imgDigest l, slotB, fromHost, running⟩

/-- The image in host memory at an address, as far as host memory goes (R440). -/
def State.imageAt (s : State) (a : Nat) : List Byte :=
  let n := 0x700 + leAt (s.hostRead a 0x700) 0x10 4
  s.hostRead a (min n (hostBytes - a))

/-- An image fails verification: FW_SIGNATURE and its record, which names the host die, as every image comes through it
(R496, R541; log entry 33). -/
def State.badImage (s : State) : State := (s.raise .fwSignature 4 0).reportErr (report 0x23 (dieUnit 4))

/-- The logbook entry of a firmware installation (R496, R524): target, running and new version, digest. -/
def State.imagePending (s : State) (target : Nat) (l : List Byte) (key : Nat) (c : Change) : Pending :=
  { Sys2Proof.Machine.pending 4 (BitVec.ofNat 64 target) (BitVec.ofNat 64 (s.meter.version key)) (BitVec.ofNat 64 (imgVersion l)) c
    with digest := imgDigest l }

/-- An image reports running: it is the one in force, and its target's lowest accepted SVN rises to its SVN (R529). -/
def State.runsNow (s : State) (target key : Nat) (x : Image) : State :=
  s.setMeter { s.meter with
    images := Tab.set s.meter.images key { x with running := true }
    minSvn := Tab.set s.meter.minSvn target (max (Tab.get s.meter.minSvn target 0) x.svn) }

/-! ### The flash directory (R541) -/

/-- Word 0 of directory entry e. -/
def dirWord (fl : Memory) (e : Nat) : Nat := leNat (Mem.bytes fl (32 * e) 4)

/-- The first directory entry of a target with a PREFERRED bit. No byte at all stands for no flash. Log entry 90 (DEDUCED). -/
def dirFind (fl : Memory) (target pref : Nat) : Option Nat :=
  if fl = [] then none
  else (List.range 16).find? (fun e => dirWord fl e % 8 == target && bits (dirWord fl e) 4 4 == pref)

/-- The image of directory entry e. -/
def dirImage (fl : Memory) (e : Nat) : List Byte :=
  Mem.bytes fl (leNat (Mem.bytes fl (32 * e + 4) 4)) (leNat (Mem.bytes fl (32 * e + 8) 4))

/-- Writes an image into the non-preferred slot of its target, with its length. -/
def flashWrite (fl : Memory) (target : Nat) (l : List Byte) : Memory :=
  match dirFind fl target 0 with
  | none => fl
  | some e =>
    Mem.writeBytes (Mem.writeBytes fl (leNat (Mem.bytes fl (32 * e + 4) 4)) l) (32 * e + 8) (natLe 4 l.length)

/-- Moves PREFERRED to the other slot of a target. -/
def flashPrefer (fl : Memory) (target : Nat) : Memory :=
  match dirFind fl target 0, dirFind fl target 1 with
  | some a, some b =>
    Mem.writeBytes (Mem.writeBytes fl (32 * a) (natLe 4 (dirWord fl a + 16))) (32 * b) (natLe 4 (dirWord fl b - 16))
  | some a, none => Mem.writeBytes fl (32 * a) (natLe 4 (dirWord fl a + 16))
  | none, _ => fl

/-! ### Updates (R494, R496, R529) -/

/-- Sets STATE and RESULT of FW_CTL. -/
def State.setFw (s : State) (st res : Nat) : State := (s.setField Reg.fwCtl 9 7 st).setField Reg.fwCtl 13 10 res

/-- Whether a reset that stops partition n has still to complete. -/
def State.resetDue (s : State) (n : Nat) : Bool := s.dealer.resets.any (fun r => s.covers r ⟨.partition, n⟩)

/-- An update starts (R494): the image is verified, written to the non-preferred slot where the host boot image came from
flash, and switched to. A partition whose queue managers' firmware is replaced stands still, its work kept as pre-emption
would save and restore it (log entry 34); keeper restarts on the image. Log entry 91 (DEDUCED). -/
def State.startFirmware (s : State) (v : DWord) : State :=
  let t := fld v 1 0
  let n := fld v 5 2
  let l := s.imageAt (fld v 59 20 * 4096)
  let s0 := s.setReg Reg.fwCtl v
  if !s.imageOk t l then (s0.setFw 4 1).badImage
  else
    let fl := s.pkg.flash
    let x := imageOf l ((dirFind fl t 0).any (fun e => bits (dirWord fl e) 3 3 == 1)) (fl == []) false
    let s1 := (s0.setFw 3 0).setPkg { s.pkg with flash := flashWrite fl t l, fw := [(t, fwKey t n)] }
    let s2 := s1.setMeter { s1.meter with images := Tab.set s1.meter.images (32 + fwKey t n) x }
    if t = 0 then (if s.isOpen n then s2.setPtn n { s2.ptn n with halted := true } else s2)
    else if t = 2 then s2.keeperTurns
    else s2

/-- The image of the update in progress reports running: PREFERRED moves to it; the partition goes on, or the standby helm
core that runs it takes the lead. -/
def State.updateRuns (s : State) (t key : Nat) (x : Image) : State :=
  let s1 := s.setMeter { s.meter with images := Tab.erase s.meter.images (32 + key) }
  let s2 := (s1.runsNow t key x).setPkg { s.pkg with fw := [], flash := flashPrefer s.pkg.flash t }
  let s3 := s2.setFw 4 0
  if t = 0 then (if s.resetDue key || !s.isOpen key then s3 else s3.setPtn key { s3.ptn key with halted := false })
  else if t = 1 then { s3 with helm := { s3.helm with lead := 3 - s3.helm.lead % 4 } }
  else s3

/-- IMAGE_RUNNING: the image of an update, or one loaded at start-up, reports running.
Log entry 34 (DEDUCED). Log entry 91 (DEDUCED). -/
def State.imageRuns (s : State) (t unit : Nat) : State :=
  let key := fwKey t unit
  match Tab.get? s.meter.images (32 + key), s.pkg.fw.contains (t, key) with
  | some x, true => s.updateRuns t key x
  | _, _ => match Tab.get? s.meter.images key with
    | some x => if x.running then s else s.runsNow t key x
    | none => s

/-- IMAGE_RUNNING (R529). -/
def execImageRunning (target unit : Nat) (s : State) : Out := onWf (.imageRunning target unit) (s.imageRuns target unit)

/-- IMAGE_TIMEOUT: a helm or keeper image that does not report running is abandoned and its part restarts on the other image
(R496). -/
def State.imageLate (s : State) (t : Nat) : State :=
  let key := fwKey t 0
  if (t = 1 ∨ t = 2) ∧ s.pkg.fw.contains (t, key) then
    (let s1 := s.setMeter { s.meter with images := Tab.erase s.meter.images (32 + key) }
    let s2 := (s1.setPkg { s1.pkg with fw := [] }).setFw 4 3
    if t = 2 then s2.keeperTurns else s2)
  else s

/-- IMAGE_TIMEOUT (R496). -/
def execImageTimeout (target : Nat) (s : State) : Out := onWf (.imageTimeout target) (s.imageLate target)

end Sys2Proof.Machine
end

