-- ==== Sys2Proof/Machine/Setup.lean ====
section
/-! DEFINITION. Writes and reads of the set-up space (R547 to R564) and each register's own rules: judging by role, denials,
refusals, and what waits for the logbook. -/

namespace Sys2Proof.Machine

/-! ### Denials (R554) -/

/-- Records a case in SETUP_ERR; SETUP_DENIED where VALID becomes 1. -/
def State.setupCase (s : State) (addr agent cause : Nat) : State :=
  let e := s.reg Reg.setupErr
  let v := addr % 2 ^ 20 + 2 ^ 20 * agent + 2 ^ 28 * cause + 2 ^ 32 * min 65535 (fld e 47 32 + 1) + 2 ^ 63
  let s1 := s.setReg Reg.setupErr (BitVec.ofNat 64 v)
  if fld e 63 63 = 1 then s1 else s1.raise .setupDenied addr cause

/-! ### Judging a write (R11, R552) -/

/-- What a write comes to: the register before, the value that results from the fields the writer may write, the WO bits
that act, whether an RW field changes, whether a field is denied. -/
structure Judged where
  old    : DWord
  new_   : DWord
  wo     : Nat
  rw     : Bool
  denied : Bool
deriving DecidableEq, Repr

/-- Judges one field. -/
def judgeField (role : Nat) (v : DWord) (j : Judged) (f : Field) : Judged :=
  let x := fld v f.hi f.lo
  let may := f.roles.contains role
  match f.acc with
  | .ro => j
  | .rw =>
    if x = fld j.old f.hi f.lo then j
    else if may then { j with new_ := setFld j.new_ f.hi f.lo x, rw := true } else { j with denied := true }
  | .rws =>
    if x = fld j.old f.hi f.lo then j
    else if may then { j with new_ := setFld j.new_ f.hi f.lo x, rw := true } else { j with denied := true }
  | .w1c =>
    if x = 0 ∨ fld j.old f.hi f.lo = 0 then j
    else if may then { j with new_ := setFld j.new_ f.hi f.lo 0 } else { j with denied := true }
  | .wo => if x = 0 then j else if may then { j with wo := j.wo + 2 ^ f.lo } else { j with denied := true }

/-- Judges a write of value v by a role. -/
def judge (f : RegForm) (role : Nat) (old v : DWord) : Judged :=
  f.fields.foldl (judgeField role v) ⟨old, old, 0, false, false⟩

/-- WO bit n acts. -/
def Judged.acts (j : Judged) (n : Nat) : Bool := bit j.wo n

/-! ### Accepting, refusing, logging (R525, R553, R555) -/

/-- A write at work: the register, its form, the judgement, the writer. -/
structure Write where
  o     : Nat
  form  : RegForm
  j     : Judged
  agent : Nat
  role  : Nat
  straps : BitVec 22
deriving DecidableEq, Repr

/-- Sets the register's REFUSED bit and writes nothing else (R553). -/
def State.refuseReg (s : State) (o : Nat) (wide : Bool) : State :=
  match ptnOfOffset o with
  | some n =>
    if o = Reg.adminqSq n ∨ o = Reg.adminqCq n ∨ o = Reg.adminqDoorbell n then s.setField (Reg.adminqCtl n) 31 31 1
    else if wide then s.setField o 63 63 1 else s.setField o 31 31 1
  | none =>
    if o = Reg.helmLimit then s.setField Reg.helmStatus 22 22 1
    else if wide then s.setField o 63 63 1 else s.setField o 31 31 1

/-- Refuses a write. Log entry 74 (DEDUCED). -/
def State.refuse (s : State) (w : Write) : State := s.refuseReg w.o w.form.wide

/-- Stores an accepted write. -/
def State.accept (s : State) (w : Write) : State := s.setReg w.o w.j.new_

/-- Hands a change to the logbook as a register write of the writer (R525). Log entry 112 (DEDUCED). -/
def State.logAs (s : State) (w : Write) (kind : Nat) (item new_ : DWord) (c : Change) : State :=
  s.pend { Sys2Proof.Machine.pending kind item w.j.old new_ c with
    role := w.role, agent := w.agent, serial := s.credOf w.agent, offset := w.o }

/-- Hands a change of a register to the logbook. -/
def State.logReg (s : State) (w : Write) (c : Change) : State := s.logAs w 1 (BitVec.ofNat 64 w.o) w.j.new_ c

/-- A write to a register whose accepted changes are logged: refused by its rule, logged, or stored at once where only status
bits clear (R525, R553). -/
def State.loggedWrite (s : State) (w : Write) (bad : Bool) (c : Change) : State :=
  if bad then s.refuse w else if w.j.rw then s.logReg w c else s.accept w

/-- A write to a register that is not logged: refused by its rule, which is applied to the value that results, else stored
(R553). Log entry 74 (DEDUCED). -/
def State.plainWrite (s : State) (w : Write) (bad : Bool) (after : State → State) : State :=
  if bad then s.refuse w else if w.j.rw then after (s.accept w) else s.accept w

/-! ### Governor, package and fault registers -/

/-- HELM_LIMIT (R67 to R69): refused where LIMIT_W changes to a value out of range; a CLASS that lowers the sustained limit
below LIMIT_W sets LIMIT_W to it. -/
def State.writeLimit (s : State) (w : Write) : State :=
  let top := sustained (fld w.j.new_ 17 16)
  let lw := fld w.j.new_ 11 0
  let set := lw != fld w.j.old 11 0
  let v := if !set && top < lw then setFld w.j.new_ 11 0 top else w.j.new_
  let w1 := { w with j := { w.j with new_ := v } }
  s.loggedWrite w1 (set && (lw < 400 || top < lw)) (.reg w.o v)

/-- PKG_POWER.STATE (R542): 0 off, 1 sequencing, 2 on, 3 rail failure. -/
def State.powerState (s : State) : Nat :=
  match s.pkg.start with
  | .off => 0
  | .rails _ => 1
  | .railFail => 3
  | _ => 2

/-- PKG_POWER (R542, R543): OFF refused while any context exists; ON ignored unless STATE is 0. -/
def State.writePower (s : State) (w : Write) : State :=
  if w.j.acts 1 && s.powerState == 0 then s.logReg w (.powerOn w.straps)
  else if w.j.acts 0 then (if s.ctxs.isEmpty then s.logReg w .powerOff else s.refuse w)
  else s.accept w

/-- MEM_CFG: a reserved RATE code or SCRUB_HOURS of 0 is refused. -/
def State.writeMemCfg (s : State) (w : Write) : State :=
  s.plainWrite w (4 < fld w.j.new_ 2 0 || fld w.j.new_ 10 3 == 0) id

/-- FLT_CFG: a value out of range is refused. -/
def State.writeFltCfg (s : State) (w : Write) : State :=
  let v := w.j.new_
  s.plainWrite w (fld v 15 0 < 10 || 60000 < fld v 15 0 || fld v 19 16 == 0 || fld v 29 20 < 10 || 1000 < fld v 29 20) id

/-- Writes the PACKAGE records that the meter die keeps into the ring, closed, each with a new SEQ (R482). -/
def State.writeKept (s : State) : State :=
  (s.dealer.kept).foldl (fun t r =>
    let t1 := (t.raise .errorRecord r.detector r.suspect)
    let r1 := { r with seq := t1.dealer.seq, closeSeq := t1.dealer.seq, closed := true }
    let x := t1.placeRecord r1
    if x.2.slot = [] then x.1 else (x.1.writeRecord x.2).irq (x.1.field Reg.fltRing 15 5))
    (s.setDealer { s.dealer with kept := [] })

/-- FLT_RING: LOG2 0 or 6 to 16; a write while records are held resets WRITTEN and CONSUMED; then the kept records (R482). -/
def State.writeRing (s : State) (w : Write) : State :=
  let k := fld w.j.new_ 4 0
  let p := s.reg Reg.fltRingPtr
  if w.j.denied && !w.j.rw then s
  else if k != 0 && (k < 6 || 16 < k) then s.refuse w
  else
    let s1 := s.accept w
    let s2 := if fld p 31 0 = fld p 63 32 then s1 else s1.setReg Reg.fltRingPtr 0
    if k = 0 || !w.j.rw then s2 else s2.writeKept

/-- FLT_INJECT (R492, R493): ARM by a role that may, logged with CODE, TARGET and COUNT; without ARM the fields are set. -/
def State.writeInject (s : State) (w : Write) : State :=
  let v := w.j.new_
  if !w.j.acts 56 then s.accept w
  else if s.mayInject w.role (fld v 15 0) (fld v 47 16) (fld v 55 48) then
    s.logAs w 3 (BitVec.ofNat 64 (fld v 47 16)) v (.inject v)
  else s.refuse w

/-- FW_CTL (R494, R496): GO starts an update unless one is under way, its entry naming role, target, version and digest;
without GO the fields are set. -/
def State.writeFw (s : State) (w : Write) : State :=
  let v := w.j.new_
  if w.j.acts 6 && s.pkg.fw.isEmpty then
    s.pend { s.imagePending (fld v 1 0) (s.imageAt (fld v 59 20 * 4096)) (fwKey (fld v 1 0) (fld v 5 2)) (.firmware v) with
      role := w.role, agent := w.agent, serial := s.credOf w.agent, offset := w.o }
  else s.accept w

/-- MTR_CFG: INTERVAL_S outside 1 to 900 is refused. -/
def State.writeMtrCfg (s : State) (w : Write) : State :=
  s.plainWrite w (fld w.j.new_ 9 0 == 0 || 900 < fld w.j.new_ 9 0) id

/-- MTR_CAL (R14, R515, R516): each field changed is one change of the legally relevant set, with an entry of its own, whose
OLD and NEW are the register as that entry finds and leaves it. -/
def State.writeCal (s : State) (w : Write) : State :=
  [(15, 0), (31, 16), (51, 32)].foldl (fun t f =>
    let x := fld w.j.new_ f.1 f.2
    if x = fld w.j.old f.1 f.2 then t
    else t.pend { Sys2Proof.Machine.pending 9 (BitVec.ofNat 64 w.o) w.j.old w.j.new_ (.sealWrite w.o f.1 f.2 x) with
      lr := true, role := w.role, agent := w.agent, serial := s.credOf w.agent, offset := w.o }) s

/-- HOST_POOL (R564). -/
def State.writePool (s : State) (w : Write) : State :=
  let v := w.j.new_
  s.plainWrite w (36288 < fld v 19 0 + fld v 39 20 || w.j.rw && s.ptns.any (fun p => p.2.objs.any (fun o => o.2.host))) id

/-! ### Link registers (R421, R427, R430, R431) -/

/-- NV_BEARING (R431): refused while a port is up or a coordinate is at or above its extent. -/
def State.writeBearing (s : State) (w : Write) : State :=
  let v := w.j.new_
  let up := (List.range 24).any (fun k => 2 ≤ (s.port k).state)
  let out := fld v 24 24 == 1 && (fld v 15 12 < fld v 3 0 || fld v 19 16 < fld v 7 4 || fld v 23 20 < fld v 11 8)
  s.loggedWrite w (up || out) (.bearing v)

/-- NV_DETOUR (R430): COMMIT 1 stores the entry; a write with COMMIT 0 loads PKG's entry into DIR and VALID, which only an
operator's write may change (R13). -/
def State.writeDetour (s : State) (w : Write) (asked : Bool) : State :=
  if w.role != 1 then s.accept w
  else if w.j.acts 16 then s.logReg w (.detour (setFld w.j.new_ 16 16 1))
  else if asked then s.loggedWrite w false (.reg w.o w.j.new_)
  else
    let e := Tab.get s.links.detours (fld w.j.new_ 11 0) (0, false)
    let v := setFld (setFld w.j.new_ 14 12 e.1) 15 15 (b2n e.2)
    if v = w.j.old then s else s.logReg { w with j := { w.j with new_ := v } } (.reg w.o v)

/-- NV_PEER (R421): as NV_DETOUR for context CTX; refused where it is not open or has no job. -/
def State.writePeer (s : State) (w : Write) (asked : Bool) : State :=
  let v := w.j.new_
  if w.role != 1 then s.accept w
  else match Tab.get? s.ctxs (fld v 11 0) with
  | none => s.refuse w
  | some c =>
    if c.torn != 0 || c.job = 0 then s.refuse w
    else if w.j.acts 49 then
      let p : Peer := ⟨fld v 27 24, fld v 39 28, fld v 47 40⟩
      (s.accept w).setCtx (fld v 11 0) { c with
        peers := if fld v 48 48 = 1 then Tab.set c.peers (fld v 23 12) p else Tab.erase c.peers (fld v 23 12) }
    else if asked then s.accept w
    else
      let e := Tab.get? c.peers (fld v 23 12)
      let p : Peer := e.getD ⟨0, 0, 0⟩
      s.setReg w.o (BitVec.ofNat 64 (setBits (fld v 63 0) 48 24 (p.ptn + 2 ^ 4 * p.ctx + 2 ^ 16 * p.gen + 2 ^ 24 * b2n e.isSome)))

/-- NV_PORT_CTL (R409, R427): DOWN and MAXW; RETRAIN has no effect while DOWN is 1. -/
def State.writePort (s : State) (w : Write) : State :=
  let k := (w.o - 0x1100) / 8
  let v := w.j.new_
  let down := fld v 0 0
  let retrain := w.j.acts 1 && down == 0
  if down != fld w.j.old 0 0 then s.logReg w (.portDown k v)
  else if retrain then s.logReg w (.portRetrain k v)
  else s.loggedWrite w false (.reg w.o v)

/-- MEM_CHAN_CTL (R449, R450, R452, R453): refused as a whole, or each WO bit acts. RETIRE's entry follows the migration, so
that a logbook that stores nothing refuses it here (log entry 23). Log entry 86 (DEDUCED). -/
def State.writeChan (s : State) (w : Write) : State :=
  let c := (w.o - 0x2000) / 8
  let x := (s.chan c).state
  let bad := (w.j.acts 0 && (s.retireRefused c || s.field Reg.mtrStatus 8 8 == 1)) || (w.j.acts 1 && (x == 4 || x == 5))
  if bad then s.refuse w
  else
    let s1 := s.accept w
    let s2 := if w.j.acts 2 then s1.setMeter { s1.meter with retired := s1.meter.retired.filter (· != c) } else s1
    let s3 := if w.j.acts 0 then s2.beginRetire c w.role w.agent (s2.credOf w.agent) else s2
    if w.j.acts 1 then s3.beginRetrain c else s3

/-! ### Partition registers -/

/-- PTN_LAYOUT (R459): a write is refused while any partition is open. -/
def State.writeLayout (s : State) (w : Write) : State :=
  s.loggedWrite w ((List.range 16).any s.isOpen) (.layout w.j.new_)

/-- PTN_CTL (R460, R461). -/
def State.writeCtl (s : State) (n : Nat) (w : Write) : State :=
  if fld w.j.new_ 0 0 = 1 then s.loggedWrite w (w.j.rw && s.cannotOpen n) (.ptnOpen n w.j.new_)
  else s.loggedWrite w (w.j.rw && s.ctxs.any (fun e => e.2.ptn == n)) (.ptnClose n w.j.new_)

/-- Whether a PTN_SEAL value is refused (R471). -/
def State.sealBad (s : State) (n : Nat) (v : DWord) : Bool :=
  let x := s.ptn n
  let share (hi lo : Nat) : Bool := 1 ≤ fld v hi lo && fld v hi lo ≤ 12
  let mv := fld v 18 9
  let others := (List.range s.ptnCount).filter (fun m => m != n && s.isOpen m && s.field (Reg.ptnSeal m) 0 0 == 1)
  let total : Nat := others.foldl (fun t m => t + s.field (Reg.ptnSeal m) 8 5) (fld v 8 5)
  s.field Reg.ptnLayout 1 0 == 2 || x.cmds.any (fun k => k.stage == .running) || !x.saved.isEmpty ||
  (fld v 0 0 == 1 && (!share 4 1 || !share 8 5 || !share 30 27 || mv < 550 || 800 < mv || mv % 5 != 0 ||
    !rateOk (fld v 26 19) mv (s.field Reg.helmStatus 23 23) || 12 < total))

/-- PASS_SCHED (R150, R152): BIAS 3 is refused; an accepted write resets the streak of every array of the partition. -/
def State.writeSched (s : State) (n : Nat) (w : Write) : State :=
  if fld w.j.new_ 1 0 = 3 then s.refuse w
  else if w.j.denied && !w.j.rw then s
  else
    let zero (t : State) (p : Nat) : State :=
      let y := t.work p
      t.setWork p { y with arrays := Tab.mapVals (fun a => { a with streak := 0 }) y.arrays }
    (s.coresOf n).foldl zero (s.accept w)

/-- The partition holds a running or pre-empted dispatch: one that no longer waits for its reservation (R158). -/
def State.dispRuns (s : State) (n : Nat) : Bool := (s.ptn n).disps.any (·.granted)

/-- Whether a STASH_CFG value is refused (R155). Log entry 77 (DEDUCED). -/
def State.stashBad (s : State) (n : Nat) (v : DWord) : Bool :=
  let x := s.ptn n
  let lo := fld v 19 0 * frameBytes
  let hi := lo + fld v 39 20 * frameBytes
  let objs := (x.objs.filter (fun e => !e.2.host)).flatMap (fun e => e.2.bases.map (fun b => (4096 * b, 4096 * b + e.2.pageBytes)))
  let progs := x.progs.flatMap (fun e => e.2.frames.map (fun b => (4096 * b, 4096 * b + 65536)))
  s.dispRuns n || !x.resv.isEmpty || x.frameCount < fld v 19 0 + fld v 39 20 || 8 < fld v 43 40 ||
  !isFree (objs ++ progs) lo (hi - lo) || x.progs.any (fun e => fld v 39 20 < ceilDiv (e.2.stashPeak * 4096) frameBytes)

/-- Drops every remote-cache line of a partition (R279). -/
def State.dropCache (s : State) (n : Nat) : State := s.dropCached (fun m _ _ _ => m == n)

/-- HOLD_MODE (R278, R279). Log entry 78 (DEDUCED). -/
def State.writeHold (s : State) (n : Nat) (w : Write) : State :=
  let v := w.j.new_
  let trained := (List.range 24).any (fun k => 2 ≤ (s.port k).state)
  let bad := s.dispRuns n || (fld v 0 0 == 1 && !trained) || ((fld v 0 0 == 1) != (fld v 3 1 != 0))
  s.loggedWrite w bad (.holdMode n v)

/-- Whether a HOLD_OWNER value is refused (R281). -/
def State.ownerBad (s : State) (n : Nat) (old v : DWord) : Bool :=
  let c : CtxId := ⟨fld v 11 0, fld v 19 12⟩
  (fld old 20 20 == 1 && s.ctxRuns n ⟨fld old 11 0, fld old 19 12⟩) ||
  (fld v 20 20 == 1 && !(s.ctx? c).any (fun x => x.ptn == n && x.torn == 0))

/-- FIX_AREA's REFUSED: the area overlaps an object or the stash region, exceeds the partition, or holds a last fix.
Log entry 77 (DEDUCED). -/
def State.areaBad (s : State) (n : Nat) (v : DWord) : Bool :=
  let x := s.ptn n
  let lo := fld v 35 16 * frameBytes
  let size := fld v 55 36 * frameBytes
  let objs := (x.objs.filter (fun e => !e.2.host)).flatMap (fun e => e.2.bases.map (fun b => (4096 * b, 4096 * b + e.2.pageBytes)))
  let progs := x.progs.flatMap (fun e => e.2.frames.map (fun b => (4096 * b, 4096 * b + 65536)))
  let stash := [(s.stashBase n * frameBytes, (s.stashBase n + s.stashSize n) * frameBytes)]
  x.fixes.any (fun e => e.2.last) || x.frameCount < fld v 35 16 + fld v 55 36 ||
  (size != 0 && !isFree (objs ++ progs ++ stash) lo size)

/-- Every mirror word of a partition, in ascending fence index, with the sequence number of the rewrite (R561). -/
def State.mirrorAll (s : State) (n : Nat) : State :=
  let s1 := s.raise .mirrorRewrite n 0
  (s1.ptn n).fences.foldl (fun t e => t.mirror n e.1 e.2) s1

/-- FENCE_MIRROR (R561): refused where BASE names a range not wholly in host memory. -/
def State.writeMirror (s : State) (n : Nat) (w : Write) : State :=
  let v := w.j.new_
  let fresh := fld v 0 0 == 1 && (fld w.j.old 0 0 == 0 || fld v 51 12 != fld w.j.old 51 12)
  s.plainWrite w (hostBytes < fld v 51 12 * 4096 + 131072) (fun t => if fresh then t.mirrorAll n else t)

/-- Whether setting ADMINQ_CTL.EN is refused (R560). -/
def State.adminBad (s : State) (n : Nat) (v : DWord) : Bool :=
  let sq := fld v 5 1
  let cq := fld v 10 6
  let a := (s.reg (Reg.adminqSq n)).toNat
  let b := (s.reg (Reg.adminqCq n)).toNat
  let d := (s.reg (Reg.adminqDoorbell n)).toNat
  (s.ptn n).draining || sq < 6 || 16 < sq || cq < 6 || 16 < cq || a % 4096 != 0 || b % 4096 != 0 || d % 64 != 0 ||
  hostBytes < a + 64 * 2 ^ sq || hostBytes < b + 32 * 2 ^ cq || hostBytes < d + 64 || s.lineTaken d

/-- Queue 0 as EN sets it up: counts at 0 (R357, R560). -/
def State.adminQueue (s : State) (n : Nat) (v : DWord) : Queue :=
  { ctx := ⟨0, 0⟩, cls := 1, stopOnError := false, vector := fld v 21 11, owner := 0, sqLog2 := fld v 5 1
    cqLog2 := fld v 10 6, sqBase := (s.reg (Reg.adminqSq n)).toNat, cqBase := (s.reg (Reg.adminqCq n)).toNat
    doorbell := (s.reg (Reg.adminqDoorbell n)).toNat, registered := true, sqHead := 0, sqTail := 0, cqHead := 0, records := 0
    held := [], stopped := false, revoked := false, dying := 0, slotWait := false
    seen := BitVec.ofNat 64 (leAt (s.hostRead (s.reg (Reg.adminqDoorbell n)).toNat 8) 0 8) }

/-- ADMINQ_CTL (R559, R560): EN starts the queue; clearing EN drains it; clearing STOPPED resumes its reading. -/
def State.writeAdmin (s : State) (n : Nat) (w : Write) : State :=
  let v := w.j.new_
  let old := w.j.old
  let x := s.ptn n
  let sizes := fld v 10 1 != fld old 10 1
  let on := fld v 0 0 == 1 && fld old 0 0 == 0
  if ((fld old 0 0 == 1 || x.draining) && sizes) || (on && s.adminBad n v) then s.refuse w
  else
    let s1 := s.accept w
    let s2 := if fld old 22 22 == 1 && fld v 22 22 == 0 then
        s1.mapQueues n (fun q _ => q == 0) (fun q => { q with stopped := false }) else s1
    let s3 := s2.mapQueues n (fun q _ => q == 0) (fun q => { q with vector := fld v 21 11 })
    if on then s3.setQueue n 0 (s3.adminQueue n v)
    else if fld old 0 0 == 1 && fld v 0 0 == 0 then
      ((s3.setPtn n { s3.ptn n with draining := true }).setField w.o 23 23 1).reapQueue n 0
    else s3

/-- ADMINQ_SQ_BASE, ADMINQ_CQ_BASE and ADMINQ_DOORBELL: a change is refused while EN or DRAINING is 1 (R560). -/
def State.writeAdminAddr (s : State) (n : Nat) (w : Write) : State :=
  s.plainWrite w (w.j.rw && (s.field (Reg.adminqCtl n) 0 0 == 1 || (s.ptn n).draining)) id

/-- FIX_RESTORE: GO starts a restore unless one is under way (R490). -/
def State.writeRestore (s : State) (n : Nat) (w : Write) : State :=
  let s1 := s.accept w
  if w.j.acts 13 && (s.ptn n).restores.isEmpty then s1.restoreGo n else s1

/-- A write to a register of partition block n at an offset in it. -/
def State.writePtn (s : State) (n : Nat) (w : Write) : State :=
  let r := w.o % 0x1000
  let v := w.j.new_
  if r = 0x0 then s.writeCtl n w
  else if r = 0x8 then s.loggedWrite w (s.sealBad n v) (.reg w.o v)
  else if r = 0x10 then s.writeSched n w
  else if r = 0x18 then s.plainWrite w (s.stashBad n v) id
  else if r = 0x28 then s.writeHold n w
  else if r = 0x30 then
    s.plainWrite w (fld v 12 12 == 1 && !(Tab.get? s.ctxs (fld v 11 0)).any (fun c => c.ptn == n && c.torn == 0)) id
  else if r = 0x38 then s.plainWrite w (fld v 11 0 == s.pkgNo || !(s.ptn n).fixRuns.isEmpty) id
  else if r = 0x40 then s.plainWrite w (s.areaBad n v) id
  else if r = 0x48 then s.writeRestore n w
  else if r = 0x50 then s.writeMirror n w
  else if r = 0x58 then s.writeAdmin n w
  else if r = 0x60 ∨ r = 0x68 ∨ r = 0x70 then s.writeAdminAddr n w
  else if r = 0x80 then s.plainWrite w (s.ownerBad n w.j.old v) (fun t => t.scrubScratch n)
  else s.accept w

/-! ### The set-up block -/

/-- SETUP_ERR: clearing VALID clears COUNT (R554). -/
def State.writeErr (s : State) (w : Write) : State :=
  s.setReg w.o (if fld w.j.old 63 63 = 1 ∧ fld w.j.new_ 63 63 = 0 then setFld w.j.new_ 47 32 0 else w.j.new_)

/-- A judged write, by register. asked says that the write asked for COMMIT. -/
def State.writeBy (s : State) (w : Write) (asked : Bool) : State :=
  match ptnOfOffset w.o with
  | some n => s.writePtn n w
  | none =>
    if w.o = Reg.setupErr then s.writeErr w
    else if w.o = Reg.pkgPower then s.writePower w
    else if w.o = Reg.ptnLayout then s.writeLayout w
    else if w.o = Reg.helmLimit then s.writeLimit w
    else if w.o = Reg.memCfg then s.writeMemCfg w
    else if w.o = Reg.fltCfg then s.writeFltCfg w
    else if w.o = Reg.fltRing then s.writeRing w
    else if w.o = Reg.fltInject then s.writeInject w
    else if w.o = Reg.fwCtl then s.writeFw w
    else if w.o = Reg.mtrCfg then s.writeMtrCfg w
    else if w.o = Reg.hostPool then s.writePool w
    else if w.o = Reg.nvBearing then s.writeBearing w
    else if w.o = Reg.nvDetour then s.writeDetour w asked
    else if w.o = Reg.nvPeer then s.writePeer w asked
    else if 0x1100 ≤ w.o ∧ w.o < 0x11C0 then s.writePort w
    else if 0x2000 ≤ w.o ∧ w.o < 0x2640 then s.writeChan w
    else if 0x3000 ≤ w.o ∧ w.o < 0x3060 then s.writeCal w
    else s.accept w

/-- COUNTER_SEL of an agent (R557); helm cores and the meter die select without a role. -/
def State.writeSel (s : State) (agent : Nat) (f : RegForm) (v : DWord) : State :=
  let role := if agent < 3 then s.roleOf agent else 1
  let j := judge f role (Tab.get s.setup.sel agent 0) v
  let s1 := s.setSetup { s.setup with sel := Tab.set s.setup.sel agent j.new_ }
  if j.denied then s1.setupCase Reg.counterSel agent (if role = 0 then 2 else 1) else s1

/-- Judges a write by the writer's role and performs it (R552, R553). The Helm and the meter die write by this path only
their COUNTER_SEL (R522). Log entry 76 (DEDUCED). -/
def State.judged (s : State) (o : Nat) (f : RegForm) (agent : Nat) (v : DWord) (straps : BitVec 22) : State :=
  if o = Reg.counterSel then s.writeSel agent f v
  else if 3 ≤ agent then s
  else
    let role := s.roleOf agent
    let j := judge f role (s.reg o) v
    let s1 := if j.denied then s.setupCase o agent (if role = 0 then 2 else 1) else s
    let j1 := if o = Reg.setupErr then { j with old := s1.reg o, new_ := if j.new_ = j.old then s1.reg o else j.new_ } else j
    s1.writeBy ⟨o, f, j1, agent, role, straps⟩ ((o == Reg.nvDetour && bit v.toNat 16) || (o == Reg.nvPeer && bit v.toNat 49))

/-- Whether a logged change of a register waits for its entry (R555). -/
def State.regWaits (s : State) (o : Nat) : Bool :=
  s.setup.waiting.any (fun p => p.offset == o && o != 0) || s.setup.behind.any (fun b => b.offset / 8 * 8 == o)

/-- A write of the set-up space at an offset (R547 to R549, R555, R556). -/
def State.setupWriteNow (s : State) (offset : Nat) (w : RegWrite) (straps : BitVec 22) : State :=
  let o := offset / 8 * 8
  let at_ := offset % 8 + w.at4
  match regForm o with
  | none => s.setupCase offset w.agent 4
  | some f =>
    if !((w.width = 4 && at_ % 4 == 0 && at_ < 8 && !f.wide) || (w.width = 8 && at_ == 0)) then s.setupCase offset w.agent 3
    else if at_ = 4 then s
    else
      let v : DWord := if f.wide then w.value else BitVec.ofNat 64 (fld w.value 31 0)
      if 0x4000 ≤ o && o < 0x5000 then s.mbxWrite w.agent ((o - 0x4000) / 64) (o % 64) v
      else match ptnOfOffset o with
        | some n =>
          if o != Reg.ptnCtl n && !s.isOpen n then s.setupCase offset w.agent 5
          else s.judged o f w.agent v straps
        | none => s.judged o f w.agent v straps

/-- A write to the set-up space: it waits behind a logged write to the same register (R555). Log entry 98 (DESIGN CHOICE). -/
def State.setupWrite (s : State) (offset : Nat) (w : RegWrite) (straps : BitVec 22) : State :=
  if !s.reaches w.agent then s
  else if s.regWaits (offset / 8 * 8) then s.setSetup { s.setup with behind := s.setup.behind ++ [⟨offset, w, straps⟩] }
  else s.setupWriteNow offset w straps

/-- Performs the writes that waited behind logged ones, in order, as far as their registers are free again.
Log entry 75 (DEDUCED). -/
def State.freeBehind (s : State) : State :=
  s.setup.behind.foldl (fun t b => t.setupWrite b.offset b.w b.straps) (s.setSetup { s.setup with behind := [] })

/-! ### Reads (R11, R551, R557, R558) -/

/-- Whether an entry of a core's counters counts beats on which nothing the rows show happens: ARR_STALL_STREAM to
ARR_STALL_BRAKE, TE_IDLE, TE_STALL_BRAKE, TE_STALL_DECK and VE_STALL_DECK (R145, R240, R271). Log entry 115 (DESIGN CHOICE). -/
def beatCounter (e : Nat) : Bool := (e < 32 && 1 ≤ e % 8 && e % 8 ≤ 4) || [43, 44, 50, 56].contains e

/-- The beats that such a counter of core p has counted since it was last read join it: a free number, which takes it no
lower (R33). A core that has held no group since its counters were cleared counts none (R145, R240).
Log entry 115 (DESIGN CHOICE). -/
def State.beats (s : State) (p e : Nat) : State :=
  let c := s.core p
  if beatCounter e && (!c.counters.isEmpty || !c.work.groups.isEmpty) then
    s.drawn.count p e (Config.choice s.fresh % (2 ^ 64 - (Tab.get c.counters e 0).toNat))
  else s

/-- The beats that the counter a COUNTER_SEL value names has counted by now. -/
def State.beatsOf (s : State) (sel : DWord) : State :=
  if fld sel 2 0 = 0 ∧ fld sel 15 8 < 192 then s.beats (fld sel 15 8) (fld sel 21 16) else s

/-- The counter named by a COUNTER_SEL value; none where it names no counter. -/
def State.counterAt (s : State) (sel : DWord) : Option DWord :=
  let i := fld sel 15 8
  let e := fld sel 21 16
  let k := fld sel 2 0
  if k = 0 then
    (if i < 192 then some (Tab.get (s.core i).counters e 0) else none)
  else if k = 1 then (if i < s.ptnCount && e < 7 then some (Tab.get (s.ptn i).counters e 0) else none)
  else if k = 2 then (if i < 24 && e < 5 then some (Tab.get (s.port i).counters e 0) else none)
  else if k = 3 then (if i = 0 && e < 5 then some (Tab.get s.links.counters e 0) else none)
  else if k = 4 then (if i < 200 && e < 3 then some (Tab.get (s.chan i).counters e 0) else none)
  else if k = 5 then
    (if (i < 4 && e < 3) || (i == 4 && e == 2) then some (Tab.get s.dealer.dieCounters (3 * i + e) 0) else none)
  else none

/-- STASH_STATUS as it reads. Log entry 111 (DEDUCED). -/
def State.stashStatus (s : State) (n : Nat) : Nat :=
  let x := s.ptn n
  let r : Nat := x.resv.foldl (fun t y => t + y.granules.length) 0
  r + 2 ^ 20 * min 4095 x.waitResv.length + 2 ^ 32 * s.field (Reg.stashStatus n) 47 32

/-- MEM_CHAN_STATUS as it reads. -/
def State.chanStatus (s : State) (c : Nat) : Nat :=
  let x := s.chan c
  let used := match s.ptnOfChan c with
    | none => 0
    | some n => (s.framesUsed n c).length
  x.state + 8 * x.rate + 64 * (if c < 192 then used else 0)

/-- NV_PORT_STATUS as it reads. Log entry 111 (DEDUCED). -/
def State.portStatus (s : State) (k : Nat) : Nat :=
  let x := s.port k
  let up := x.state == 2 || x.state == 3
  x.state + (if up then 4 * x.width + 2 ^ 12 * x.neighbour else 0) + 16 * x.good.toNat +
    2 ^ 24 * s.field (Reg.nvPortStatus k) 24 24

/-- MBX_STATUS of channel ch as it reads (R368): FULL, OWNER, DEST. -/
def State.mbxStatus (s : State) (ch : Nat) : Nat :=
  let m := s.mbox ch
  b2n m.full + 2 ^ 8 * m.owner + 2 ^ 16 * m.dest

/-- A register as an agent reads it: status fields as they stand (R11, R551). -/
def State.readReg (s : State) (agent o : Nat) : DWord :=
  let n := (ptnOfOffset o).getD 0
  if o = Reg.setupRole then BitVec.ofNat 64 (s.roleOf 1 + 8 * s.roleOf 2)
  else if o = Reg.pkgPower then setFld (s.reg o) 3 2 s.powerState
  else if o = Reg.helmStatus then s.helmStatus
  else if o = Reg.fltInject then setFld (s.reg o) 57 57 (b2n s.armedNow)
  else if o = Reg.mtrSeal then BitVec.ofNat 64 (s.meter.sealNo + 2 ^ 32 * s.meter.version 20)
  else if o = Reg.counterSel then
    (let v : DWord := Tab.get s.setup.sel agent 0
    setFld v 31 31 (b2n (s.counterAt v).isNone))
  else if 0x4000 ≤ o ∧ o < 0x5000 ∧ o % 64 = 24 then BitVec.ofNat 64 (s.mbxStatus ((o - 0x4000) / 64))
  else if 0x1200 ≤ o ∧ o < 0x12C0 then BitVec.ofNat 64 (s.portStatus ((o - 0x1200) / 8))
  else if 0x2800 ≤ o ∧ o < 0x2E40 then BitVec.ofNat 64 (s.chanStatus ((o - 0x2800) / 8))
  else if (ptnOfOffset o).isSome && o % 0x1000 == 0x20 then BitVec.ofNat 64 (s.stashStatus n)
  else s.reg o

/-- COUNTER_DATA_READ (R548, R557): an access of 4 or 8 bytes; agents 1 and 2 need an operator session. -/
def State.counterData (s : State) (agent width : Nat) : State :=
  if !s.reaches agent then s
  else if width != 4 && width != 8 then (s.setupCase Reg.counterData agent 3).readBy agent 0
  else if agent < 3 && s.roleOf agent != 1 then (s.setupCase Reg.counterData agent 6).readBy agent 0
  else
    let s1 := s.beatsOf (Tab.get s.setup.sel agent 0)
    let v : DWord := (s1.counterAt (Tab.get s.setup.sel agent 0)).getD 0
    s1.readBy agent (if width = 4 then BitVec.ofNat 64 (fld v 31 0) else v)

/-- COUNTER_DATA_READ (R557). -/
def execCounterDataRead (agent width : Nat) (s : State) : Out :=
  onWf (.counterDataRead agent width) (s.counterData agent width)

/-! ### The rows -/

/-- HELM_LIMIT_WRITE (R68). -/
def execHelmLimitWrite (w : RegWrite) (s : State) : Out := onWf (.helmLimitWrite w) (s.setupWrite Reg.helmLimit w 0)
/-- PASS_SCHED_WRITE (R152). -/
def execPassSchedWrite (n : Nat) (w : RegWrite) (s : State) : Out :=
  onWf (.passSchedWrite n w) (s.setupWrite (Reg.passSched n) w 0)
/-- STASH_CFG_WRITE (R155). -/
def execStashCfgWrite (n : Nat) (w : RegWrite) (s : State) : Out :=
  onWf (.stashCfgWrite n w) (s.setupWrite (Reg.stashCfg n) w 0)
/-- HOLD_MODE_WRITE (R278). -/
def execHoldModeWrite (n : Nat) (w : RegWrite) (s : State) : Out :=
  onWf (.holdModeWrite n w) (s.setupWrite (Reg.holdMode n) w 0)
/-- HOLD_OWNER_WRITE (R281). -/
def execHoldOwnerWrite (n : Nat) (w : RegWrite) (s : State) : Out :=
  onWf (.holdOwnerWrite n w) (s.setupWrite (Reg.holdOwner n) w 0)
/-- NV_BEARING_WRITE (R431). -/
def execNvBearingWrite (w : RegWrite) (s : State) : Out := onWf (.nvBearingWrite w) (s.setupWrite Reg.nvBearing w 0)
/-- NV_PORT_CTL_DOWN (R427). -/
def execNvPortCtlDown (port : Nat) (w : RegWrite) (s : State) : Out :=
  onWf (.nvPortCtlDown port w) (s.setupWrite (Reg.nvPortCtl port) w 0)
/-- NV_PORT_CTL_RETRAIN (R409). -/
def execNvPortCtlRetrain (port : Nat) (w : RegWrite) (s : State) : Out :=
  onWf (.nvPortCtlRetrain port w) (s.setupWrite (Reg.nvPortCtl port) w 0)
/-- NV_DETOUR_COMMIT (R430). -/
def execNvDetourCommit (w : RegWrite) (s : State) : Out := onWf (.nvDetourCommit w) (s.setupWrite Reg.nvDetour w 0)
/-- NV_DETOUR_LOAD (R430). -/
def execNvDetourLoad (w : RegWrite) (s : State) : Out := onWf (.nvDetourLoad w) (s.setupWrite Reg.nvDetour w 0)
/-- NV_PEER_COMMIT (R421). -/
def execNvPeerCommit (w : RegWrite) (s : State) : Out := onWf (.nvPeerCommit w) (s.setupWrite Reg.nvPeer w 0)
/-- NV_PEER_LOAD (R421). -/
def execNvPeerLoad (w : RegWrite) (s : State) : Out := onWf (.nvPeerLoad w) (s.setupWrite Reg.nvPeer w 0)
/-- MEM_CHAN_CTL_RETIRE (R450). -/
def execMemChanCtlRetire (c : Nat) (w : RegWrite) (s : State) : Out :=
  onWf (.memChanCtlRetire c w) (s.setupWrite (Reg.memChanCtl c) w 0)
/-- MEM_CHAN_CTL_RETRAIN (R449). -/
def execMemChanCtlRetrain (c : Nat) (w : RegWrite) (s : State) : Out :=
  onWf (.memChanCtlRetrain c w) (s.setupWrite (Reg.memChanCtl c) w 0)
/-- MEM_CHAN_CTL_CLEAR_RETIRED (R453). -/
def execMemChanCtlClearRetired (c : Nat) (w : RegWrite) (s : State) : Out :=
  onWf (.memChanCtlClearRetired c w) (s.setupWrite (Reg.memChanCtl c) w 0)
/-- PTN_LAYOUT_WRITE (R459). -/
def execPtnLayoutWrite (w : RegWrite) (s : State) : Out := onWf (.ptnLayoutWrite w) (s.setupWrite Reg.ptnLayout w 0)
/-- PTN_OPEN (R460). -/
def execPtnOpen (n : Nat) (w : RegWrite) (s : State) : Out := onWf (.ptnOpen n w) (s.setupWrite (Reg.ptnCtl n) w 0)
/-- PTN_CLOSE (R461). -/
def execPtnClose (n : Nat) (w : RegWrite) (s : State) : Out := onWf (.ptnClose n w) (s.setupWrite (Reg.ptnCtl n) w 0)
/-- PTN_SEAL_WRITE (R471). -/
def execPtnSealWrite (n : Nat) (w : RegWrite) (s : State) : Out :=
  onWf (.ptnSealWrite n w) (s.setupWrite (Reg.ptnSeal n) w 0)
/-- FLT_RING_WRITE (R482). -/
def execFltRingWrite (w : RegWrite) (s : State) : Out := onWf (.fltRingWrite w) (s.setupWrite Reg.fltRing w 0)
/-- FLT_INJECT_ARM (R492). -/
def execFltInjectArm (w : RegWrite) (s : State) : Out := onWf (.fltInjectArm w) (s.setupWrite Reg.fltInject w 0)
/-- FIX_RESTORE_GO (R490). -/
def execFixRestoreGo (n : Nat) (w : RegWrite) (s : State) : Out :=
  onWf (.fixRestoreGo n w) (s.setupWrite (Reg.fixRestore n) w 0)
/-- FW_CTL_GO (R494). -/
def execFwCtlGo (w : RegWrite) (s : State) : Out := onWf (.fwCtlGo w) (s.setupWrite Reg.fwCtl w 0)
/-- PKG_POWER_OFF (R542). -/
def execPkgPowerOff (w : RegWrite) (s : State) : Out := onWf (.pkgPowerOff w) (s.setupWrite Reg.pkgPower w s.pkg.straps)
/-- PKG_POWER_ON (R542), with the straps as they are sampled again. -/
def execPkgPowerOn (w : RegWrite) (straps : BitVec 22) (s : State) : Out :=
  onWf (.pkgPowerOn w straps) (s.setupWrite Reg.pkgPower w straps)
/-- SETUP_ERR_CLEAR (R554). -/
def execSetupErrClear (w : RegWrite) (s : State) : Out := onWf (.setupErrClear w) (s.setupWrite Reg.setupErr w 0)
/-- ADMINQ_CTL_WRITE (R560). -/
def execAdminqCtlWrite (n : Nat) (w : RegWrite) (s : State) : Out :=
  onWf (.adminqCtlWrite n w) (s.setupWrite (Reg.adminqCtl n) w 0)
/-- FENCE_MIRROR_WRITE (R561). -/
def execFenceMirrorWrite (n : Nat) (w : RegWrite) (s : State) : Out :=
  onWf (.fenceMirrorWrite n w) (s.setupWrite (Reg.fenceMirror n) w 0)
/-- HOST_POOL_WRITE (R564). -/
def execHostPoolWrite (w : RegWrite) (s : State) : Out := onWf (.hostPoolWrite w) (s.setupWrite Reg.hostPool w 0)
/-- REGISTER_WRITE (R552). -/
def execRegisterWrite (offset : Nat) (w : RegWrite) (s : State) : Out :=
  onWf (.registerWrite offset w) (s.setupWrite offset w s.pkg.straps)

end Sys2Proof.Machine
end

