-- ==== Sys2Proof/Machine/Startup.lean ====
section
/-! DEFINITION. Power and start-up: the rails (R539, R540), the host boot image (R541), power-on and power-off (R538, R542,
R543), and restarts of the software of agents (R521). -/

namespace Sys2Proof.Machine

/-! ### Power -/

/-- The meter die as losing VSTBY, or PORESET_N, leaves it: its non-volatile store (R60, R431, R453, R482, R510 to R529). An
image installed and not yet switched in is the one that starts. Log entry 88 (DEDUCED). Log entry 96 (DEDUCED). -/
def Meter.kept (m : Meter) : Meter :=
  let im := m.images.filter (fun e => e.1 = 19 || e.1 = 20)
  { Meter.reset with
    cycles := m.cycles, recordNo := m.recordNo, sealNo := m.sealNo, logNo := m.logNo, lrLog := m.lrLog, genLog := m.genLog
    revoked := m.revoked, wear := m.wear, wearNow := m.wearNow, minSvn := m.minSvn, retired := m.retired, nvExt := m.nvExt
    nvCoord := m.nvCoord
    images := match Tab.get? m.images 21 with
      | none => im
      | some x => Tab.set im 20 { x with running := true } }

/-- The whole package without VSTBY: no interval's record, nothing volatile left (R510, R543). -/
def State.dark (s : State) (straps : BitVec 22) : State :=
  let s1 := s.diesReset true straps
  let full := 512 ≤ s1.meter.lrLog.length
  let s2 := (s1.setMeter s1.meter.kept).setSetup { s1.setup with waiting := [] }
  let s3 := (s2.setReg Reg.mtrStatus 0).setField Reg.mtrStatus 9 9 (b2n full)
  s3.setPkg { s3.pkg with start := .off, railEn := 0, stbyOk := false, railFails := 0 }

/-- The rail sequence begins: RAIL_EN[0] (R539 step 1). -/
def State.beginRails (s : State) : State := s.setPkg { s.pkg with start := .rails 0, railEn := 1 }

/-- POWER_ON: a power-on of every die, the meter die included (R533, R538 step 1). The straps, which hold their levels, are
taken with it (R535). Log entry 88 (DEDUCED). -/
def State.powerUp (s : State) (straps : BitVec 22) : State :=
  let s1 := s.dark straps
  let s2 := s1.setMeter { s1.meter with cycles := (s1.meter.cycles + 1) % 2 ^ 32 }
  (s2.setPkg { s2.pkg with stbyOk := true }).beginRails

/-- POWER_ON (R538). -/
def execPowerOn (straps : BitVec 22) (s : State) : Out := onWf (.powerOn straps) (s.powerUp straps)

/-- POWER_LOSS (R543). -/
def execPowerLoss (s : State) : Out := onWf .powerLoss (s.dark s.pkg.straps)

/-- PKG_POWER.OFF takes effect: every enable low and the five dies held in reset; the meter die goes on, and the role
sessions with it, until a power-on ends them (R521, R542). -/
def State.powerOff (s : State) : State :=
  let s1 := s.diesReset true s.pkg.straps
  let s2 := s1.setMeter { s1.meter with sessions := s.meter.sessions, openings := s.meter.openings }
  let s3 := s2.setSetup { s2.setup with waiting := s.setup.waiting.filter (fun p => p.offset == 0 && p.change == .nothing) }
  s3.setPkg { s3.pkg with start := .off, railEn := 0 }

/-- PKG_POWER.ON takes effect: a power-on of the five dies from the rail sequence on (R542). -/
def State.powerAgain (s : State) (straps : BitVec 22) : State :=
  let s1 := s.diesReset true straps
  (s1.setPkg { s1.pkg with railFails := 0 }).beginRails

/-! ### Rails (R539, R540) -/

/-- The sense inputs of the rails that each enable brings up (R500, R539). -/
def railGroup (n : Nat) : List Nat := if n = 0 then [8, 9] else if n = 1 then [10] else if n = 2 then [4, 5, 6, 7] else [0, 1, 2, 3]

/-- RAIL_CHECK: the rails of the group just enabled are in range, and the next enable rises or the host die leaves reset; or
one is not, and every enable falls with a record of class PACKAGE that names it. The row does not say which rail of the
group that is: it is free. -/
def State.railCheck (s : State) (ok : Bool) : State :=
  match s.pkg.start with
  | .rails n =>
    if !ok then
      (let r := (s.pick (railGroup n)).getD 8
      let s1 := s.drawn.keepReport { report 0x1E (railUnit r) with cls := 6 }
      s1.setPkg { s1.pkg with start := .railFail, railEn := 0, railFails := s1.pkg.railFails + 1 })
    else if n < 3 then s.setPkg { s.pkg with start := .rails (n + 1), railEn := s.pkg.railEn ||| BitVec.ofNat 4 (2 ^ (n + 1)) }
    else (s.setPkg { s.pkg with start := bootStart s.pkg.straps }).testHeld
  | _ => s

/-- RAIL_CHECK (R539). -/
def execRailCheck (inRange : Bool) (s : State) : Out := onWf (.railCheck inRange) (s.railCheck inRange)

/-- RAIL_RETRY (R540): after a third failure the rails stay off. -/
def execRailRetry (s : State) : Out :=
  onWf .railRetry (if s.pkg.start == .railFail && s.pkg.railFails < 3 then s.beginRails else s)

/-! ### The host boot image (R541) -/

/-- The helm cores are released and the Helm sets VHOST to its setpoint, 0.80 V (R44, R538 step 3). -/
def State.helmStarts (s : State) : State := s.setPkg { s.pkg with start := .helm, vhost := [800] }

/-- The host boot image has been verified: the helm cores are released (R538 step 3). Log entry 89 (DEDUCED). -/
def State.booted (s : State) (l : List Byte) (slotB fromHost : Bool) : State :=
  let s1 := s.setMeter { s.meter with images := Tab.set s.meter.images 18 (imageOf l slotB fromHost false) }
  s1.helmStarts

/-- BOOT_WINDOW_LOAD: the image written to the boot window is verified; one that fails waits for another. -/
def State.bootWindow (s : State) (l : List Byte) : State :=
  if s.pkg.start != .bootWindow then s
  else if s.imageOk 3 l then s.booted l false true
  else s.badImage

/-- BOOT_WINDOW_LOAD (R541). -/
def execBootWindowLoad (image : List Byte) (s : State) : Out := onWf (.bootWindowLoad image) (s.bootWindow image)

/-- The flash's bytes as a memory. Log entry 90 (DEDUCED). -/
def flashOf (l : List Byte) : Memory := (l.zipIdx.map (fun e => (e.2, e.1))).filter (fun c => c.2 != 0)

/-- Tries the preferred slot of a target, then the other: the first image verified, with its SLOT; each failure raises
FW_SIGNATURE. -/
def State.fromFlash (s : State) (t : Nat) : State × Option (List Byte × Bool) :=
  let fl := s.pkg.flash
  ([1, 0].filterMap (fun p => dirFind fl t p)).foldl (fun (acc : State × Option (List Byte × Bool)) e =>
    if acc.2.isSome then acc
    else
      let l := dirImage fl e
      if acc.1.imageOk t l then (acc.1, some (l, bits (dirWord fl e) 3 3 == 1)) else (acc.1.badImage, none)) (s, none)

/-- Loads the image of a target from flash under the numbers given (R541: Helm, keeper and partition images). -/
def State.loadOther (s : State) (t : Nat) (keys : List Nat) : State :=
  match s.fromFlash t with
  | (s1, none) => s1
  | (s1, some (l, b)) =>
    s1.setMeter { s1.meter with images := keys.foldl (fun im k => Tab.set im k (imageOf l b false false)) s1.meter.images }

/-- The host die runs the recovery image from the meter's store. -/
def State.recover (s : State) : State := (s.setPkg { s.pkg with recov := true }).helmStarts

/-- HOST_BOOT_IMAGE_LOADED: the boot ROM has read the flash, or runs the recovery image. Log entry 89 (DEDUCED). -/
def State.bootLoaded (s : State) (flash : List Byte) : State :=
  if s.pkg.start != .boot then s
  else
    let s0 := s.setPkg { s.pkg with flash := flashOf flash }
    if strapBoot s.pkg.straps != 0 then s0.recover
    else match s0.fromFlash 3 with
      | (s1, none) => s1.recover
      | (s1, some (l, b)) =>
        let s2 := (s1.booted l b false).loadOther 1 [16]
        (s2.loadOther 0 (List.range (layoutCount (strapLayout s.pkg.straps)))).loadOther 2 [17]

/-- HOST_BOOT_IMAGE_LOADED (R541). -/
def execHostBootImageLoaded (flash : List Byte) (s : State) : Out := onWf (.hostBootImageLoaded flash) (s.bootLoaded flash)

/-! ### Software restarts (R521, R370) -/

/-- HOST_SOFTWARE_RESTART: the software of agent 1 or 2 restarts; its session ends and its mailbox channels drop.
Log entry 96 (DEDUCED). -/
def State.softwareRestart (s : State) (agent : Nat) : State :=
  if (agent = 1 ∨ agent = 2) ∧ s.reaches agent then (s.endSession agent).dropMailboxes [agent] else s

/-- HOST_SOFTWARE_RESTART (R521). -/
def execHostSoftwareRestart (agent : Nat) (s : State) : Out :=
  onWf (.hostSoftwareRestart agent) (s.softwareRestart agent)

end Sys2Proof.Machine
end

