-- ==== Sys2Proof/Machine/Sessions.lean ====
section
/-! DEFINITION. The meter requests (R523): role sessions (R520, R521), attestation (R527), sinks (R514), revocation, reading the
logbook, recalibration (R504) and meter images (R517). -/

namespace Sys2Proof.Machine

/-! ### Taking and answering requests -/

/-- RESULT codes of a meter request (R523). -/
def Res.done : Nat := 0
/-- The role lacks the right. -/
def Res.role : Nat := 1
/-- The chain is refused. -/
def Res.chain : Nat := 2
/-- The signature is refused. -/
def Res.signature : Nat := 3
/-- No session. -/
def Res.noSession : Nat := 4
/-- Busy. -/
def Res.busy : Nat := 5
/-- Malformed. -/
def Res.malformed : Nat := 6
/-- Logbook or seal exhausted. -/
def Res.exhausted : Nat := 7

/-- Whether a change is a meter request's, answered when its entry is stored. -/
def Change.ofRequest : Change → Bool
  | .sessionOpen _ _ _ => true
  | .sessionClose _ => true
  | .revoke _ => true
  | .meterImage _ => true
  | _ => false

/-- Writes RESULT and output words into a request block and posts its pointer back to the requester (R523). A block that
does not lie in host memory is not written. Log entry 79 (DEDUCED). Log entry 95 (DEDUCED). -/
def State.mtrAnswer (s : State) (agent ch ptr result : Nat) (out : List Byte) : State :=
  let s1 := if hostBytes < ptr + 64 then s else (s.hostWrite (ptr + 1) (natLe 1 result)).hostWrite (ptr + 0x20) out
  s1.postTo ch agent ⟨3, BitVec.ofNat 64 ptr, true, agent⟩

/-- Answers the request that waits for a pending entry. -/
def State.mtrAnswerPending (s : State) (p : Pending) (result : Nat) : State :=
  match p.reply with
  | [agent, ch, ptr] => s.mtrAnswer agent ch ptr result []
  | _ => s

/-- A request at work: its agent, mailbox channel, block address and arguments. -/
structure Request where
  agent : Nat
  ch    : Nat
  ptr   : Nat
  a0    : Nat
  a1    : Nat
  a2    : Nat
deriving DecidableEq, Repr

/-- Answers a request. -/
def State.reply (s : State) (r : Request) (result : Nat) : State := s.mtrAnswer r.agent r.ch r.ptr result []

/-- Takes the request at the head of the queue, where none is waiting for its logbook entry and its OP is the one given; an
unknown OP or a nonzero reserved field is malformed (R523). -/
def State.mtrRequest (s : State) (op : Nat) (act : State → Request → State) : State :=
  match s.meter.requests with
  | [] => s
  | m :: rest =>
    let ptr := m.pointer.toNat
    let b := s.hostRead ptr 64
    let code := leAt b 0 1
    let known := 1 ≤ code && code ≤ 9
    if (known && code != op) || s.setup.waiting.any (fun p => p.change.ofRequest) then s
    else
      let s1 := (s.setMeter { s.meter with requests := rest }).setMbox m.ch ⟨3, 0, false, 0⟩
      let r : Request := ⟨m.agent, m.ch, ptr, leAt b 8 8, leAt b 16 8, leAt b 24 8⟩
      if !known || !zeroAt b 2 6 || hostBytes < ptr + 64 then s1.reply r Res.malformed else act s1 r

/-- Hands a request's change to the logbook; its answer follows (R525). -/
def State.pendFor (s : State) (r : Request) (p : Pending) : State :=
  s.pend { p with role := s.roleOf r.agent, agent := r.agent, serial := s.credOf r.agent, reply := [r.agent, r.ch, r.ptr] }

/-- Acts under a session of one of some roles, else answers why not. -/
def State.underRole (s : State) (r : Request) (roles : List Nat) (act : State → State) : State :=
  let x := s.roleOf r.agent
  if x = 0 then s.reply r Res.noSession else if roles.contains x then act s else s.reply r Res.role

/-! ### Sessions (R520, R521) -/

/-- The bundle at an address: header and up to two certificates. -/
def State.bundleAt (s : State) (a : Nat) : List Byte := s.hostRead a (64 + 2 * 1152)

/-- An open is refused, and logged (R521). -/
def State.openRefused (s : State) (r : Request) (role result : Nat) : State :=
  (s.pend { Sys2Proof.Machine.pending 6 0 0 0 .nothing with role := role, agent := r.agent }).reply r result

/-- Step 2 of R521: the chain is checked against the role named; a fresh nonce is returned. Log entry 93 (DEDUCED). -/
def State.openSession (s : State) (r : Request) : State :=
  let role := r.a1 % 8
  if !(r.agent == 1 || r.agent == 2) then s.reply r Res.role
  else if hostBytes < r.a0 + 64 then s.reply r Res.malformed
  else match s.chainOf (s.bundleAt r.a0) role with
    | none => s.openRefused r role Res.chain
    | some chain =>
      let nonce := (sha512 (natLe 64 (Config.noise s.fresh))).take 32
      let o : Opening := ⟨nonce, role, (chain.headD (certOf [])).modulus, chain.map (·.serial)⟩
      (s.drawn.setMeter { s.meter with openings := Tab.set s.meter.openings r.agent o }).mtrAnswer r.agent r.ch r.ptr Res.done nonce

/-- OPEN_SESSION (R521). -/
def execOpenSession (s : State) : Out := onWf .openSession (s.mtrRequest 1 State.openSession)

/-- Step 4 of R521: the signature over nonce, identity serial, agent and role is verified with the leaf's key; the session
opens with its logbook entry. A proof that fails ends the opening. Log entry 92 (DEDUCED). -/
def State.prove (s : State) (r : Request) : State :=
  match Tab.get? s.meter.openings r.agent with
  | none => s.reply r Res.noSession
  | some o =>
    let s1 := s.setMeter { s.meter with openings := Tab.erase s.meter.openings r.agent }
    let msg := o.nonce ++ natLe 8 Config.serial ++ natLe 1 r.agent ++ natLe 1 o.role
    if hostBytes < r.a0 + 512 then s.reply r Res.malformed
    else if pssVerify o.modulus msg (s.hostRead r.a0 512) then
      s1.pend { Sys2Proof.Machine.pending 5 0 0 0 (.sessionOpen r.agent o.role o.serials) with
        role := o.role, agent := r.agent, serial := o.serials.headD 0, reply := [r.agent, r.ch, r.ptr] }
    else s1.openRefused r o.role Res.signature

/-- PROVE (R521). -/
def execProve (s : State) : Out := onWf .prove (s.mtrRequest 2 State.prove)

/-- A close request ends the session with its logbook entry. -/
def State.closeSession (s : State) (r : Request) : State :=
  s.underRole r [1, 2, 3] (fun t => t.pendFor r (Sys2Proof.Machine.pending 7 0 0 0 (.sessionClose r.agent)))

/-- CLOSE_SESSION (R521). -/
def execCloseSession (s : State) : Out := onWf .closeSession (s.mtrRequest 3 State.closeSession)

/-- SESSION_PROVE_TIMEOUT (R521). -/
def execSessionProveTimeout (agent : Nat) (s : State) : Out :=
  onWf (.sessionProveTimeout agent) (s.setMeter { s.meter with openings := Tab.erase s.meter.openings agent })

/-! ### Attestation (R527) -/

/-- An image entry of the report, 80 bytes; zero when the image is absent. -/
def imageEntry (x : Option Image) : List Byte :=
  match x with
  | none => List.replicate 80 0
  | some i => natLe 4 i.version ++ natLe 2 i.svn ++ natLe 2 0 ++ sliceAt i.digest 0 64 ++
      natLe 8 (b2n i.slotB + 2 * b2n i.fromHost + 4 * b2n i.running)

/-- Bytes 0x000 to 0xB7F of the report. -/
def State.reportBody (s : State) (nonce : List Byte) : List Byte :=
  let m := s.meter
  natLe 4 1 ++ natLe 4 m.sealNo ++ natLe 8 Config.serial ++ nonce ++ natLe 4 (m.version 20) ++ natLe 4 (m.version 19) ++
  natLe 4 s.pkg.straps.toNat ++ natLe 4 (s.reg Reg.nvBearing).toNat ++
  sliceAt (((Tab.get? m.images 20).map (·.digest)).getD []) 0 64 ++
  (List.range 20).flatMap (fun k => imageEntry (Tab.get? m.images k)) ++ List.replicate 64 0 ++ natLe 1152 Config.identityCert

/-- Writes the signed report to the address given, a multiple of 4 KiB. Log entry 93 (DEDUCED). -/
def State.attest (s : State) (r : Request) : State :=
  if r.a1 % 4096 != 0 || hostBytes < r.a0 + 32 || hostBytes < r.a1 + 0xD80 then s.reply r Res.malformed
  else
    let b := s.reportBody (s.hostRead r.a0 32)
    (s.hostWrite r.a1 (b ++ s.signed b)).drawn.reply r Res.done

/-- ATTEST (R527). -/
def execAttest (s : State) : Out := onWf .attest (s.mtrRequest 4 State.attest)

/-! ### Sinks (R514) -/

/-- The operator registers a host memory object of a context as its sink, or removes it. Log entry 93 (DEDUCED). -/
def State.setSink (s : State) (r : Request) : State :=
  let id := r.a0 % 2 ^ 20
  let h := r.a1
  match s.ctx? ⟨id, bits r.a0 27 20⟩ with
  | none => s.reply r Res.malformed
  | some c =>
    let named := hKind h == 3 && s.validHandle c.ptn (s.dealer.seq + 1) h &&
      (s.obj? c.ptn h).any (fun o => o.host && o.ctx == ⟨id, c.gen⟩)
    if bits r.a0 63 28 != 1 || c.torn != 0 || !(h == 0 || named) then s.reply r Res.malformed
    else (s.setCtx id { c with sink := if h = 0 then [] else [h] }).reply r Res.done

/-- SINK (R514). -/
def execSink (s : State) : Out := onWf .sink (s.mtrRequest 5 (fun t r => t.underRole r [1] (fun u => u.setSink r)))

/-! ### Revocation (R518, R523) -/

/-- Revokes a serial: the maker any, an installer an operator's that its own certificate issued. Log entry 94 (DEDUCED). -/
def State.revokeSerial (s : State) (r : Request) : State :=
  if s.roleOf r.agent = 2 && r.a1 != s.credOf r.agent then s.reply r Res.role
  else if s.meter.revoked.contains r.a0 then s.reply r Res.done
  else if 256 ≤ s.meter.revoked.length then s.reply r Res.exhausted
  else s.pendFor r (Sys2Proof.Machine.pending 8 (BitVec.ofNat 64 r.a0) 0 (BitVec.ofNat 64 r.a1) (.revoke r.a0))

/-- REVOKE (R523). -/
def execRevoke (s : State) : Out :=
  onWf .revoke (s.mtrRequest 6 (fun t r => t.underRole r [2, 3] (fun u => u.revokeSerial r)))

/-! ### Reading the logbook (R523, R524) -/

/-- The stored entry of a number. -/
def Meter.entry? (m : Meter) (no : Nat) : Option LogEntry := (m.lrLog ++ m.genLog).find? (fun e => e.no == no)

/-- Copies entries to host memory, each at 1,024 times its distance from the first; one not held any more, or not yet, writes
nothing. Log entry 94 (DEDUCED). -/
def State.copyLog (s : State) (r : Request) : State :=
  if hostBytes < r.a1 + 1024 * r.a2 then s.reply r Res.malformed
  else
    let put (t : State) (k : Nat) : State := match s.meter.entry? (r.a0 + k) with
      | none => t
      | some e => t.hostWrite (r.a1 + 1024 * k) e.bytes
    ((List.range r.a2).foldl put s).reply r Res.done

/-- READ_LOGBOOK (R523). -/
def execReadLogbook (s : State) : Out :=
  onWf .readLogbook (s.mtrRequest 7 (fun t r => t.underRole r [1, 2, 3] (fun u => u.copyLog r)))

/-! ### Recalibration and meter images (R504, R517) -/

/-- Recalibrates a channel; refused where it is recalibrating or its partner does not measure. -/
def State.selfRecal (s : State) (r : Request) : State :=
  let ch := r.a0 % 2
  if s.mayRecalibrate ch then (s.setMeterChan ch 1).reply r Res.done else s.reply r Res.busy

/-- SELF_RECALIBRATE (R504). -/
def execSelfRecalibrate (s : State) : Out :=
  onWf .selfRecalibrate (s.mtrRequest 8 (fun t r => t.underRole r [1, 2] (fun u => u.selfRecal r)))

/-- Verifies a meter image and hands its installation to the logbook, as a legally relevant change for TARGET 5. -/
def State.installMeter (s : State) (r : Request) : State :=
  let l := s.imageAt r.a0
  let t := leAt l 4 4
  if !(t == 4 || t == 5) || !s.imageOk t l then s.badImage.reply r Res.signature
  else if t = 5 && s.meter.sealNo = 2 ^ 32 - 1 then s.reply r Res.exhausted
  else
    let p := s.imagePending t l (15 + t) (.meterImage l)
    s.pendFor r (if t = 5 then { p with kind := 9, lr := true } else p)

/-- INSTALL_METER_IMAGE (R517). -/
def execInstallMeterImage (s : State) : Out :=
  onWf .installMeterImage (s.mtrRequest 9 (fun t r => t.underRole r [3] (fun u => u.installMeter r)))

end Sys2Proof.Machine
end

