-- ==== Sys2Proof/Machine/Logbook.lean ====
section
/-! DEFINITION. The logbook (R524, R525): storing an entry and what its change then does. -/

namespace Sys2Proof.Machine

/-! ### Entries (R524) -/

/-- The signed bytes 0x000 to 0x1FF of an entry; seal is the count after the change. -/
def Meter.entryBody (m : Meter) (p : Pending) (no sealed_ : Nat) (prev : List Byte) : List Byte :=
  natLe 4 1 ++ natLe 4 (p.kind + 2 ^ 8 * b2n p.lr) ++ natLe 8 no ++ natLe 4 sealed_ ++ natLe 4 (p.role + 2 ^ 8 * p.agent) ++
  natLe 8 p.serial ++ natLe 8 m.windowNo ++ natLe 4 m.cycles ++ natLe 4 0 ++ natLe 8 p.item.toNat ++ natLe 8 p.old.toNat ++
  natLe 8 p.new_.toNat ++ sliceAt p.digest 0 64 ++ List.replicate 248 0 ++ prev ++ List.replicate 64 0

/-- PREV of the next entry: the SHA-512 of the last one stored, zero before the first. Log entry 95 (DEDUCED). -/
def Meter.prevHash (m : Meter) : List Byte :=
  match m.entry? m.logNo with
  | none => List.replicate 64 0
  | some e => sha512 e.bytes

/-- Whether the logbook cannot store an entry: the store has failed, or the legally relevant section or the seal counter is
exhausted (R505, R515, R524). -/
def State.logFull (s : State) (p : Pending) : Bool :=
  s.field Reg.mtrStatus 8 8 == 1 || (p.lr && (512 ≤ s.meter.lrLog.length || 2 ^ 32 - 1 ≤ s.meter.sealNo))

/-- Stores an entry: the seal counter, the section, LR_LOG_FULL, and LOGBOOK_ENTRY with its number (R515, R524, R525). -/
def State.storeEntry (s : State) (p : Pending) : State :=
  let m := s.meter
  let no := m.logNo + 1
  let count := m.sealNo + b2n p.lr
  let body := m.entryBody p no count m.prevHash
  let e : LogEntry := ⟨no, p.lr, body ++ s.signed body⟩
  let lr := if p.lr then m.lrLog ++ [e] else m.lrLog
  let gen := if p.lr then m.genLog else m.genLog ++ [e]
  let s1 := s.drawn.setMeter { m with logNo := no, sealNo := count, lrLog := lr, genLog := gen.drop (gen.length - 2048) }
  let s2 := if 512 ≤ lr.length then s1.setField Reg.mtrStatus 9 9 1 else s1
  s2.raise .logbookEntry no 0

/-! ### What changes do (R525, R555) -/

/-- HELM_LIMIT: a change of CLASS during a sprint ends it, and averages are judged against the new limit from then on, ahead
of the next control step (R65, R66). -/
def State.applyReg (s : State) (o : Nat) (v : DWord) : State :=
  let old := s.reg o
  let s1 := s.setReg o v
  if o = Reg.helmLimit then
    (if fld v 17 16 = fld old 17 16 ∨ s.helm.sprint = [] then s1
     else { s1 with helm := { s1.helm with sprint := [], judged := [fld v 11 0] } })
  else s1.sealCheck

/-- HOLD_MODE (R279): a new split drops the cache and zeroes the hold; CACHE_OFF alone drops the cache. -/
def State.applyHold (s : State) (n : Nat) (v : DWord) : State :=
  let old := s.reg (Reg.holdMode n)
  let s1 := if fld v 3 0 != fld old 3 0 then (s.dropCache n).scrubHold (s.quartersOf n)
    else if fld v 4 4 != fld old 4 4 then s.dropCache n else s
  s1.setReg (Reg.holdMode n) v

/-- NV_BEARING (R431): the extents, and each coordinate that differs from its strap, are kept by the meter die; ports train
once extents are set, and none trains without. Log entry 99 (DEDUCED). -/
def State.applyBearing (s : State) (v : DWord) : State :=
  let keep (t : Table Nat) (d : Nat) : Table Nat :=
    let x := fld v (4 * d + 3) (4 * d)
    if x = bits s.pkg.straps.toNat (4 * d + 3) (4 * d) then Tab.erase t d else Tab.set t d x
  let s1 := (s.setMeter { s.meter with nvExt := [v &&& 0x1FFF000], nvCoord := [0, 1, 2].foldl keep s.meter.nvCoord }).setReg
    Reg.nvBearing v
  (List.range 24).foldl (fun t k =>
    if (t.port k).state = 1 && !t.portMayTrain k then t.setPort k { t.port k with state := 0 } else t.trainPort k) s1

/-- NV_PORT_CTL.DOWN (R427): set, the port drains and goes down, a training port at once; cleared, it trains. -/
def State.applyDown (s : State) (k : Nat) (v : DWord) : State :=
  let s1 := s.setReg (Reg.nvPortCtl k) v
  let x := s1.port k
  if fld v 0 0 = 0 then s1.trainPort k
  else if x.state = 1 then s1.setPort k { x with state := 0 }
  else if x.state = 2 ∨ x.state = 3 then (s1.setPort k { x with state := 2, draining := true }).drainPort k
  else s1

/-- NV_PORT_CTL.RETRAIN (R409): a port that is up retrains at up to MAXW. Log entry 99 (DEDUCED). -/
def State.applyRetrain (s : State) (k : Nat) (v : DWord) : State :=
  let s1 := s.setReg (Reg.nvPortCtl k) v
  let x := s1.port k
  if x.state = 2 ∧ !x.draining then (s1.setPort k { x with width := s1.maxw k }).retrain k true 0 else s1

/-- NV_DETOUR (R430): a committed entry is stored; COMMIT itself reads 0. -/
def State.applyDetour (s : State) (v : DWord) : State :=
  let l := s.links
  (s.setLinks { l with detours := Tab.set l.detours (fld v 11 0) (fld v 14 12, fld v 15 15 == 1) }).setReg Reg.nvDetour
    (setFld v 16 16 0)

/-- PTN_CTL.OPEN set (R460). -/
def State.applyOpen (s : State) (n : Nat) (v : DWord) : State :=
  if s.isOpen n then s else (s.setReg (Reg.ptnCtl n) v).openPtn n

/-- PTN_CTL.OPEN cleared (R461), unless a context has been created while the entry waited. Log entry 100 (DEDUCED). -/
def State.applyClose (s : State) (n : Nat) (v : DWord) : State :=
  if s.ctxs.any (fun e => e.2.ptn == n) then s.refuseReg (Reg.ptnCtl n) false
  else (s.setReg (Reg.ptnCtl n) v).closePtn n

/-- MEM_SETTLE (R363): the slot is settled and the request ends. -/
def State.applySettle (s : State) (p : Pending) (n i k : Nat) : State :=
  let s1 := s.settleSlot n i k
  match p.reply with
  | [m, q, e] => s1.endCmd ⟨m, q, e⟩ 0 0 0
  | _ => s1

/-- A role session opens, ending the agent's old one (R521). Log entry 96 (DEDUCED). -/
def State.applySession (s : State) (p : Pending) (agent role : Nat) (serials : List Nat) : State :=
  let s1 := s.endSession agent
  (s1.setMeter { s1.meter with sessions := Tab.set s1.meter.sessions agent ⟨role, serials⟩ }).mtrAnswerPending p Res.done

/-- A serial joins the revocation list; sessions and openings with it in their chain end (R521). -/
def State.applyRevoke (s : State) (p : Pending) (serial : Nat) : State :=
  let s1 := s.setMeter { s.meter with
    revoked := s.meter.revoked ++ [serial]
    openings := s.meter.openings.filter (fun o => !o.2.serials.contains serial) }
  let hit := s1.meter.sessions.filter (fun e => e.2.serials.contains serial)
  (hit.foldl (fun t e => t.endSession e.1) s1).mtrAnswerPending p Res.done

/-- A meter image is installed: the service core runs it; a legally relevant one is switched in at the next window boundary
(R517, R529). -/
def State.applyMeterImage (s : State) (p : Pending) (l : List Byte) : State :=
  let x := imageOf l false true false
  let s1 := if leAt l 4 4 = 5 then s.setMeter { s.meter with images := Tab.set s.meter.images 21 x } else s.runsNow 4 19 x
  s1.mtrAnswerPending p Res.done

/-- What an entry's change does once the entry is stored. -/
def State.applyChange (s : State) (p : Pending) : State :=
  match p.change with
  | .reg o v => s.applyReg o v
  | .nothing => s
  | .holdMode n v => s.applyHold n v
  | .bearing v => s.applyBearing v
  | .portDown k v => s.applyDown k v
  | .portRetrain k v => s.applyRetrain k v
  | .detour v => s.applyDetour v
  | .retire c => s.listRetired c
  | .layout v => s.newLayout v
  | .ptnOpen n v => s.applyOpen n v
  | .ptnClose n v => s.applyClose n v
  | .inject v => (s.setReg Reg.fltInject v).arm v
  | .firmware v => s.startFirmware v
  | .powerOff => s.powerOff
  | .powerOn st => s.powerAgain st
  | .settle n i k => s.applySettle p n i k
  | .sealWrite o hi lo v => s.setField o hi lo v
  | .sessionOpen a r l => s.applySession p a r l
  | .sessionClose a => (s.setMeter { s.meter with sessions := Tab.erase s.meter.sessions a }).mtrAnswerPending p Res.done
  | .revoke n => s.applyRevoke p n
  | .meterImage l => s.applyMeterImage p l

/-! ### Refused changes (R505, R525) -/

/-- Whether a register has a REFUSED bit of its own. -/
def RegForm.refusable (f : RegForm) : Bool := f.fields.any (fun x => x.acc == .w1c && (x.lo == 31 || x.lo == 63))

/-- Refuses a register's change: its REFUSED bit where it has one. Log entry 35 (DESIGN CHOICE). -/
def State.refuseChange (s : State) (o : Nat) : State :=
  match regForm o with
  | none => s
  | some f => if o = Reg.helmLimit ∨ f.refusable then s.refuseReg o f.wide else s

/-- A change whose entry cannot be stored: by the change's own REFUSED bit or RESULT. RESULT of FW_CTL has no value for it: one
of 1 to 3 that is free; MEM_SETTLE ends with ILLEGAL_STATE (log entry 35). -/
def State.refuseEntry (s : State) (p : Pending) : State :=
  if p.change.ofRequest then s.mtrAnswerPending p Res.exhausted
  else match p.change with
    | .firmware v => (s.setReg Reg.fwCtl v).drawn.setFw 4 (1 + Config.choice s.fresh % 3)
    | .settle _ _ _ =>
      (match p.reply with
      | [m, q, e] => s.endCmd ⟨m, q, e⟩ St.illegalState 0 0
      | _ => s)
    | _ => if p.offset = 0 then s else s.refuseChange p.offset

/-- An entry as it is made: that of an RWS field holds the register as it stands and as the change leaves it (R14, R516). -/
def State.dueEntry (s : State) (p : Pending) : Pending :=
  match p.change with
  | .sealWrite o hi lo v => { p with old := s.reg o, new_ := setFld (s.reg o) hi lo v }
  | _ => p

/-- LOGBOOK_ENTRY: the next entry is stored and its change takes effect, or it cannot be and its change is refused; the writes
that waited behind it are performed (R525, R555). -/
def State.logbookEntry (s : State) : State :=
  match s.setup.waiting with
  | [] => s
  | q :: rest =>
    let s1 := s.setSetup { s.setup with waiting := rest }
    let p := s1.dueEntry q
    (if s1.logFull p then s1.refuseEntry p else (s1.storeEntry p).applyChange p).freeBehind

/-- LOGBOOK_ENTRY (R525). -/
def execLogbookEntry (s : State) : Out := onWf .logbookEntry s.logbookEntry

end Sys2Proof.Machine
end

