-- ==== Sys2Proof/Machine/Dispatch.lean ====
section
/-! DEFINITION. One arm per command, each one direct call of its meaning. -/

namespace Sys2Proof.Machine

/-- The effect of a command on everything but the queue. Log entry 3 (DESIGN CHOICE). -/
def exec (i : Instr) (s : State) : Host.Outcome State Fault Refusal :=
  match i with
  | .iadd p slot w => Sys2Proof.Machine.execIadd p slot w s
  | .isub p slot w => Sys2Proof.Machine.execIsub p slot w s
  | .imul p slot w => Sys2Proof.Machine.execImul p slot w s
  | .imulh p slot w => Sys2Proof.Machine.execImulh p slot w s
  | .and p slot w => Sys2Proof.Machine.execAnd p slot w s
  | .or p slot w => Sys2Proof.Machine.execOr p slot w s
  | .xor p slot w => Sys2Proof.Machine.execXor p slot w s
  | .shl p slot w => Sys2Proof.Machine.execShl p slot w s
  | .shr p slot w => Sys2Proof.Machine.execShr p slot w s
  | .icmp p slot w => Sys2Proof.Machine.execIcmp p slot w s
  | .sel p slot w => Sys2Proof.Machine.execSel p slot w s
  | .iminmax p slot w => Sys2Proof.Machine.execIminmax p slot w s
  | .fadd p slot w => Sys2Proof.Machine.execFadd p slot w s
  | .fmul p slot w => Sys2Proof.Machine.execFmul p slot w s
  | .ffma p slot w => Sys2Proof.Machine.execFfma p slot w s
  | .fcmp p slot w => Sys2Proof.Machine.execFcmp p slot w s
  | .fminmax p slot w => Sys2Proof.Machine.execFminmax p slot w s
  | .fcvt p slot w => Sys2Proof.Machine.execFcvt p slot w s
  | .fsqrt p slot w => Sys2Proof.Machine.execFsqrt p slot w s
  | .frcp p slot w => Sys2Proof.Machine.execFrcp p slot w s
  | .ldd p slot w => Sys2Proof.Machine.execLdd p slot w s
  | .std p slot w => Sys2Proof.Machine.execStd p slot w s
  | .ldf p slot w => Sys2Proof.Machine.execLdf p slot w s
  | .stf p slot w => Sys2Proof.Machine.execStf p slot w s
  | .atomf p slot w => Sys2Proof.Machine.execAtomf p slot w s
  | .lockg p slot w => Sys2Proof.Machine.execLockg p slot w s
  | .unlockg p slot w => Sys2Proof.Machine.execUnlockg p slot w s
  | .br p slot w => Sys2Proof.Machine.execBr p slot w s
  | .jmp p slot w => Sys2Proof.Machine.execJmp p slot w s
  | .joinpt p slot w => Sys2Proof.Machine.execJoinpt p slot w s
  | .exit p slot w => Sys2Proof.Machine.execExit p slot w s
  | .barb p slot w => Sys2Proof.Machine.execBarb p slot w s
  | .nop p slot w => Sys2Proof.Machine.execNop p slot w s
  | .shfl p slot w => Sys2Proof.Machine.execShfl p slot w s
  | .vote p slot w => Sys2Proof.Machine.execVote p slot w s
  | .movs p slot w => Sys2Proof.Machine.execMovs p slot w s
  | .movt p slot w => Sys2Proof.Machine.execMovt p slot w s
  | .rdsp p slot w => Sys2Proof.Machine.execRdsp p slot w s
  | .sadd p slot w => Sys2Proof.Machine.execSadd p slot w s
  | .ssub p slot w => Sys2Proof.Machine.execSsub p slot w s
  | .sand p slot w => Sys2Proof.Machine.execSand p slot w s
  | .sor p slot w => Sys2Proof.Machine.execSor p slot w s
  | .sxor p slot w => Sys2Proof.Machine.execSxor p slot w s
  | .sshl p slot w => Sys2Proof.Machine.execSshl p slot w s
  | .sshr p slot w => Sys2Proof.Machine.execSshr p slot w s
  | .sli p slot w => Sys2Proof.Machine.execSli p slot w s
  | .smov p slot w => Sys2Proof.Machine.execSmov p slot w s
  | .mpass p slot w => Sys2Proof.Machine.execMpass p slot w s
  | .malt p slot w => Sys2Proof.Machine.execMalt p slot w s
  | .mdrain p slot w => Sys2Proof.Machine.execMdrain p slot w s
  | .mzero p slot w => Sys2Proof.Machine.execMzero p slot w s
  | .msync p slot w => Sys2Proof.Machine.execMsync p slot w s
  | .vld p slot w => Sys2Proof.Machine.execVld p slot w s
  | .vst p slot w => Sys2Proof.Machine.execVst p slot w s
  | .vgath p slot w => Sys2Proof.Machine.execVgath p slot w s
  | .vscat p slot w => Sys2Proof.Machine.execVscat p slot w s
  | .vbcast p slot w => Sys2Proof.Machine.execVbcast p slot w s
  | .vperm p slot w => Sys2Proof.Machine.execVperm p slot w s
  | .vadd p slot w => Sys2Proof.Machine.execVadd p slot w s
  | .vsub p slot w => Sys2Proof.Machine.execVsub p slot w s
  | .vmul p slot w => Sys2Proof.Machine.execVmul p slot w s
  | .vfma p slot w => Sys2Proof.Machine.execVfma p slot w s
  | .vminmax p slot w => Sys2Proof.Machine.execVminmax p slot w s
  | .vcmp p slot w => Sys2Proof.Machine.execVcmp p slot w s
  | .vsel p slot w => Sys2Proof.Machine.execVsel p slot w s
  | .vdiv p slot w => Sys2Proof.Machine.execVdiv p slot w s
  | .vsqrt p slot w => Sys2Proof.Machine.execVsqrt p slot w s
  | .vbit p slot w => Sys2Proof.Machine.execVbit p slot w s
  | .vmask p slot w => Sys2Proof.Machine.execVmask p slot w s
  | .vcvt p slot w => Sys2Proof.Machine.execVcvt p slot w s
  | .vcvtl p slot w => Sys2Proof.Machine.execVcvtl p slot w s
  | .vdecl p slot w => Sys2Proof.Machine.execVdecl p slot w s
  | .vreblk p slot w => Sys2Proof.Machine.execVreblk p slot w s
  | .vseed p slot w => Sys2Proof.Machine.execVseed p slot w s
  | .red p slot w => Sys2Proof.Machine.execRed p slot w s
  | .rget p slot w => Sys2Proof.Machine.execRget p slot w s
  | .vown p slot w => Sys2Proof.Machine.execVown p slot w s
  | .tcopy p slot w => Sys2Proof.Machine.execTcopy p slot w s
  | .twait p slot w => Sys2Proof.Machine.execTwait p slot w s
  | .takeDecision p a => Sys2Proof.Machine.execTakeDecision p a s
  | .fold p a => Sys2Proof.Machine.execFold p a s
  | .passComplete p a => Sys2Proof.Machine.execPassComplete p a s
  | .veInstructionStart p => Sys2Proof.Machine.execVeInstructionStart p s
  | .reductionTake p => Sys2Proof.Machine.execReductionTake p s
  | .veOwnerPass p => Sys2Proof.Machine.execVeOwnerPass p s
  | .copyTake p ch => Sys2Proof.Machine.execCopyTake p ch s
  | .copyComplete p ch k => Sys2Proof.Machine.execCopyComplete p ch k s
  | .farResponse p slot => Sys2Proof.Machine.execFarResponse p slot s
  | .blockPlace n => Sys2Proof.Machine.execBlockPlace n s
  | .blockEnd p b => Sys2Proof.Machine.execBlockEnd p b s
  | .stashReservationGrant n q e => Sys2Proof.Machine.execStashReservationGrant n q e s
  | .preempt n q e => Sys2Proof.Machine.execPreempt n q e s
  | .preemptedWorkResume n => Sys2Proof.Machine.execPreemptedWorkResume n s
  | .doorbellWrite wr line sqTail cqHead => Sys2Proof.Machine.execDoorbellWrite wr line sqTail cqHead s
  | .entryRead n q => Sys2Proof.Machine.execEntryRead n q s
  | .headerCheck n q e => Sys2Proof.Machine.execHeaderCheck n q e s
  | .bodyCheck n q e => Sys2Proof.Machine.execBodyCheck n q e s
  | .progLoad n q e => Sys2Proof.Machine.execProgLoad n q e s
  | .dispatch n q e => Sys2Proof.Machine.execDispatch n q e s
  | .copy n q e => Sys2Proof.Machine.execCopy n q e s
  | .fill n q e => Sys2Proof.Machine.execFill n q e s
  | .accumulate n q e => Sys2Proof.Machine.execAccumulate n q e s
  | .update n q e => Sys2Proof.Machine.execUpdate n q e s
  | .precondRoot n q e => Sys2Proof.Machine.execPrecondRoot n q e s
  | .fix n q e => Sys2Proof.Machine.execFix n q e s
  | .barrier n q e => Sys2Proof.Machine.execBarrier n q e s
  | .map n q e => Sys2Proof.Machine.execMap n q e s
  | .unmap n q e => Sys2Proof.Machine.execUnmap n q e s
  | .ctxCreate n e => Sys2Proof.Machine.execCtxCreate n e s
  | .ctxDestroy n e => Sys2Proof.Machine.execCtxDestroy n e s
  | .queueCreate n e => Sys2Proof.Machine.execQueueCreate n e s
  | .queueDestroy n e => Sys2Proof.Machine.execQueueDestroy n e s
  | .queueResume n e => Sys2Proof.Machine.execQueueResume n e s
  | .fenceCreate n e => Sys2Proof.Machine.execFenceCreate n e s
  | .fenceDestroy n e => Sys2Proof.Machine.execFenceDestroy n e s
  | .fenceReset n e => Sys2Proof.Machine.execFenceReset n e s
  | .memCreate n e => Sys2Proof.Machine.execMemCreate n e s
  | .memDestroy n e => Sys2Proof.Machine.execMemDestroy n e s
  | .memSettle n e => Sys2Proof.Machine.execMemSettle n e s
  | .revokeOwner n e => Sys2Proof.Machine.execRevokeOwner n e s
  | .teardownTimeout c => Sys2Proof.Machine.execTeardownTimeout c s
  | .ctxIdFree c => Sys2Proof.Machine.execCtxIdFree c s
  | .commandRetire n q e => Sys2Proof.Machine.execCommandRetire n q e s
  | .slotDrained n q e => Sys2Proof.Machine.execSlotDrained n q e s
  | .publish n q e => Sys2Proof.Machine.execPublish n q e s
  | .updatePeerTimeout n q e => Sys2Proof.Machine.execUpdatePeerTimeout n q e s
  | .trainingExchange port near far nb => Sys2Proof.Machine.execTrainingExchange port near far nb s
  | .trainingRetry port => Sys2Proof.Machine.execTrainingRetry port s
  | .frameReceived port f => Sys2Proof.Machine.execFrameReceived port f s
  | .laneLossOfLock port lane => Sys2Proof.Machine.execLaneLossOfLock port lane s
  | .retrainComplete port near far => Sys2Proof.Machine.execRetrainComplete port near far s
  | .retrainTimeout port => Sys2Proof.Machine.execRetrainTimeout port s
  | .readRequest k => Sys2Proof.Machine.execReadRequest k s
  | .readResponse k => Sys2Proof.Machine.execReadResponse k s
  | .write k => Sys2Proof.Machine.execWrite k s
  | .acknowledgement k => Sys2Proof.Machine.execAcknowledgement k s
  | .atomic k => Sys2Proof.Machine.execAtomic k s
  | .atomicResponse k => Sys2Proof.Machine.execAtomicResponse k s
  | .fenceNotice k => Sys2Proof.Machine.execFenceNotice k s
  | .openNotice k => Sys2Proof.Machine.execOpenNotice k s
  | .packetForward k => Sys2Proof.Machine.execPacketForward k s
  | .fenceNoticeResend k => Sys2Proof.Machine.execFenceNoticeResend k s
  | .remoteTimeout t => Sys2Proof.Machine.execRemoteTimeout t s
  | .channelTrained c => Sys2Proof.Machine.execChannelTrained c s
  | .rateStepDown c => Sys2Proof.Machine.execRateStepDown c s
  | .perBankRefresh c bank => Sys2Proof.Machine.execPerBankRefresh c bank s
  | .refreshRateCheck c rate => Sys2Proof.Machine.execRefreshRateCheck c rate s
  | .patrolScrub c unit => Sys2Proof.Machine.execPatrolScrub c unit s
  | .frameMigrated => Sys2Proof.Machine.execFrameMigrated s
  | .channelRetrainDone c => Sys2Proof.Machine.execChannelRetrainDone c s
  | .deviceCorrectionRead c count => Sys2Proof.Machine.execDeviceCorrectionRead c count s
  | .helmLimitWrite w => Sys2Proof.Machine.execHelmLimitWrite w s
  | .passSchedWrite n w => Sys2Proof.Machine.execPassSchedWrite n w s
  | .stashCfgWrite n w => Sys2Proof.Machine.execStashCfgWrite n w s
  | .holdModeWrite n w => Sys2Proof.Machine.execHoldModeWrite n w s
  | .holdOwnerWrite n w => Sys2Proof.Machine.execHoldOwnerWrite n w s
  | .nvBearingWrite w => Sys2Proof.Machine.execNvBearingWrite w s
  | .nvPortCtlDown port w => Sys2Proof.Machine.execNvPortCtlDown port w s
  | .nvPortCtlRetrain port w => Sys2Proof.Machine.execNvPortCtlRetrain port w s
  | .nvDetourCommit w => Sys2Proof.Machine.execNvDetourCommit w s
  | .nvDetourLoad w => Sys2Proof.Machine.execNvDetourLoad w s
  | .nvPeerCommit w => Sys2Proof.Machine.execNvPeerCommit w s
  | .nvPeerLoad w => Sys2Proof.Machine.execNvPeerLoad w s
  | .memChanCtlRetire c w => Sys2Proof.Machine.execMemChanCtlRetire c w s
  | .memChanCtlRetrain c w => Sys2Proof.Machine.execMemChanCtlRetrain c w s
  | .memChanCtlClearRetired c w => Sys2Proof.Machine.execMemChanCtlClearRetired c w s
  | .ptnLayoutWrite w => Sys2Proof.Machine.execPtnLayoutWrite w s
  | .ptnOpen n w => Sys2Proof.Machine.execPtnOpen n w s
  | .ptnClose n w => Sys2Proof.Machine.execPtnClose n w s
  | .ptnSealWrite n w => Sys2Proof.Machine.execPtnSealWrite n w s
  | .fltRingWrite w => Sys2Proof.Machine.execFltRingWrite w s
  | .fltInjectArm w => Sys2Proof.Machine.execFltInjectArm w s
  | .fixRestoreGo n w => Sys2Proof.Machine.execFixRestoreGo n w s
  | .fwCtlGo w => Sys2Proof.Machine.execFwCtlGo w s
  | .imageRunning target unit => Sys2Proof.Machine.execImageRunning target unit s
  | .imageTimeout target => Sys2Proof.Machine.execImageTimeout target s
  | .pkgPowerOff w => Sys2Proof.Machine.execPkgPowerOff w s
  | .pkgPowerOn w straps => Sys2Proof.Machine.execPkgPowerOn w straps s
  | .setupErrClear w => Sys2Proof.Machine.execSetupErrClear w s
  | .counterDataRead agent width => Sys2Proof.Machine.execCounterDataRead agent width s
  | .adminqCtlWrite n w => Sys2Proof.Machine.execAdminqCtlWrite n w s
  | .fenceMirrorWrite n w => Sys2Proof.Machine.execFenceMirrorWrite n w s
  | .hostPoolWrite w => Sys2Proof.Machine.execHostPoolWrite w s
  | .mbxLockRead agent ch => Sys2Proof.Machine.execMbxLockRead agent ch s
  | .mbxMsgWrite agent ch value => Sys2Proof.Machine.execMbxMsgWrite agent ch value s
  | .mbxMsgRead agent ch => Sys2Proof.Machine.execMbxMsgRead agent ch s
  | .mbxPostDest wr agent ch dest => Sys2Proof.Machine.execMbxPostDest wr agent ch dest s
  | .mbxPostUnlock agent ch => Sys2Proof.Machine.execMbxPostUnlock agent ch s
  | .registerWrite offset w => Sys2Proof.Machine.execRegisterWrite offset w s
  | .logbookEntry => Sys2Proof.Machine.execLogbookEntry s
  | .openSession => Sys2Proof.Machine.execOpenSession s
  | .prove => Sys2Proof.Machine.execProve s
  | .closeSession => Sys2Proof.Machine.execCloseSession s
  | .attest => Sys2Proof.Machine.execAttest s
  | .sink => Sys2Proof.Machine.execSink s
  | .revoke => Sys2Proof.Machine.execRevoke s
  | .readLogbook => Sys2Proof.Machine.execReadLogbook s
  | .selfRecalibrate => Sys2Proof.Machine.execSelfRecalibrate s
  | .installMeterImage => Sys2Proof.Machine.execInstallMeterImage s
  | .sessionProveTimeout agent => Sys2Proof.Machine.execSessionProveTimeout agent s
  | .meterSample samples => Sys2Proof.Machine.execMeterSample samples s
  | .referenceStrobe periods => Sys2Proof.Machine.execReferenceStrobe periods s
  | .countFrame die intact => Sys2Proof.Machine.execCountFrame die intact s
  | .meterFrame => Sys2Proof.Machine.execMeterFrame s
  | .channelCompare => Sys2Proof.Machine.execChannelCompare s
  | .intervalEnd => Sys2Proof.Machine.execIntervalEnd s
  | .periodicRecalibration ch => Sys2Proof.Machine.execPeriodicRecalibration ch s
  | .recalibrationDone ch => Sys2Proof.Machine.execRecalibrationDone ch s
  | .wearBucket => Sys2Proof.Machine.execWearBucket s
  | .helmControlStep die readings => Sys2Proof.Machine.execHelmControlStep die readings s
  | .regulatorSettled die => Sys2Proof.Machine.execRegulatorSettled die s
  | .helmStep die => Sys2Proof.Machine.execHelmStep die s
  | .meterFrames => Sys2Proof.Machine.execMeterFrames s
  | .paceStrobe die => Sys2Proof.Machine.execPaceStrobe die s
  | .thermalTrip die reading => Sys2Proof.Machine.execThermalTrip die reading s
  | .supplyLow rail => Sys2Proof.Machine.execSupplyLow rail s
  | .regulatorFault rail => Sys2Proof.Machine.execRegulatorFault rail s
  | .hang n q e => Sys2Proof.Machine.execHang n q e s
  | .handshake p => Sys2Proof.Machine.execHandshake p s
  | .qmStall n => Sys2Proof.Machine.execQmStall n s
  | .keeperWatchdog => Sys2Proof.Machine.execKeeperWatchdog s
  | .resetEntered k => Sys2Proof.Machine.execResetEntered k s
  | .resetHang k => Sys2Proof.Machine.execResetHang k s
  | .errorRecordClose k => Sys2Proof.Machine.execErrorRecordClose k s
  | .irqGapEnd vector => Sys2Proof.Machine.execIrqGapEnd vector s
  | .jointDown j => Sys2Proof.Machine.execJointDown j s
  | .pcieError port => Sys2Proof.Machine.execPcieError port s
  | .powerOn straps => Sys2Proof.Machine.execPowerOn straps s
  | .railCheck inRange => Sys2Proof.Machine.execRailCheck inRange s
  | .railRetry => Sys2Proof.Machine.execRailRetry s
  | .powerLoss => Sys2Proof.Machine.execPowerLoss s
  | .bootWindowLoad image => Sys2Proof.Machine.execBootWindowLoad image s
  | .hostSoftwareRestart agent => Sys2Proof.Machine.execHostSoftwareRestart agent s
  | .hostBootImageLoaded flash => Sys2Proof.Machine.execHostBootImageLoaded flash s

end Sys2Proof.Machine
end

