-- ==== Sys2Proof/Safety.lean ====
section
/-! DEFINITION. What counts as a sound state, and the conditions on a state and a command alone under which the statements
say what the command does. -/

namespace Sys2Proof.Machine

/-! ### Memories -/

/-- The byte memories of a core's work have the canonical form: the deck's, and of a stash head's segment, which lists every
byte its core has written, zero or not (R163), the offsets strictly rising. -/
def Work.memWf (w : Work) : Prop := Mem.wf w.deck ∧ ∀ h ∈ w.head, h.bytes.Pairwise (fun c d => c.1 < d.1)

/-- Every byte memory of the machine has the canonical form: main memory, the hold quarters, the decks and stash heads of
the cores, and those of work that pre-emption has saved. -/
def State.memWf (s : State) : Prop :=
  Mem.wf s.cmem ∧ Mem.wf s.hmem ∧ (∀ e ∈ s.hold, Mem.wf e.2) ∧ (∀ e ∈ s.cores, e.2.work.memWf) ∧
    ∀ e ∈ s.ptns, ∀ v ∈ e.2.saved, v.work.memWf

/-! ### Issue by a thread engine -/

/-- The port of core p issues word w, which carries opcode op, from the group t in a slot: the group is ready, the port's
choice, its word is fetched, and no GROUP_FAULT injection waits on the core (R220, R221, R235, R492). -/
def State.issues (s : State) (p slot : Nat) (w : DWord) (op : Nat) (t : Seat) : Prop :=
  p < 192 ∧ slot < 64 ∧ s.seat p slot = some t ∧ t.fetch = some w ∧ wOp w = op ∧ s.stallNext t = none ∧
    s.chosen t = true ∧ (s.core p).faultNext = 0

/-- The state in which the instruction of group t acts: issue has been counted (R240), and the group's place in the order
of issue has moved on. -/
def State.atIssue (s : State) (t : Seat) : State := s.issued t

/-- The group as the instruction finds it. -/
def State.seatAt (s : State) (t : Seat) : Seat := t.issued (s.core t.p).seq

/-- Nothing but the work and counters of core p and the units of R507 differs between two states. -/
def State.sameBut (s s' : State) (p : Nat) : Prop :=
  { s' with cores := s.cores, meter := s.meter } = s ∧ { s'.meter with activity := s.meter.activity } = s.meter ∧
    (∀ q, q ≠ p → s'.core q = s.core q) ∧ (∀ pl, s'.byteAt pl = s.byteAt pl)

/-- On core p itself, nothing but groups, blocks' slots, counters and the order of issue differs. -/
def State.sameCore (s s' : State) (p : Nat) : Prop :=
  { (s'.work p) with groups := (s.work p).groups, blocks := (s.work p).blocks } = s.work p ∧
    (s'.core p).gens = (s.core p).gens ∧ (s'.core p).lastCtx = (s.core p).lastCtx ∧
    (s'.core p).epochs = (s.core p).epochs ∧ (s'.core p).running = (s.core p).running

/-- Group g stands in the slot of t on its core. -/
def State.holds (s : State) (t : Seat) (g : Group) : Prop := (s.work t.p).group? t.slot = some g

/-- The group goes on at the next instruction, unless its running lanes reach a reconvergence address there (R224, R235). -/
def Group.goesOn (g g' : Group) : Prop :=
  g.active ≠ 0 → joinAddr g.stack ≠ some ((g.pc + 8) % 2 ^ 32) →
    g'.pc = (g.pc + 8) % 2 ^ 32 ∧ g'.active = g.active ∧ g'.stack = g.stack

/-- Register r of every active lane takes a value by lane, register 255 takes nothing, every other register of every lane
and every scalar register stays, and the group goes on (R217, R223, R238). -/
def Group.wrote (g g' : Group) (r : Nat) (f : Nat → Word) : Prop :=
  (∀ k l, l < 32 → g'.t k l = if k = r ∧ r ≠ 255 ∧ g.active.getLsbD l = true then f l else g.t k l) ∧
    (∀ k, g'.s k = g.s k) ∧ g'.exited = g.exited ∧ g.goesOn g'

/-- Command i, issued from the group t, leaves its group as g, and the state otherwise as issue does. -/
def State.leaves (s : State) (i : Instr) (t : Seat) (g : Group) : Prop :=
  exec i s = .next ((s.atIssue t).putGroup (s.seatAt t) g)

/-- A group has ended: no lane of it runs and no entry of its stack is left (R223). -/
def Group.over (g : Group) : Prop := g.active = 0 ∧ g.stack = []

/-! ### Commands -/

/-- The command named has ended with a status and INFO (R378). -/
def State.endedAs (s : State) (c : Cid) (status info : Nat) : Prop :=
  ∃ k, s.cmd? c = some k ∧ k.stage = .ended ∧ k.status = status ∧ k.info = BitVec.ofNat 64 info

/-! ### Writes to the set-up space -/

/-- The write w of the register at o by agent 1 or 2 takes effect now, judged to j, with no field denied: the agent
reaches the block, the access is of the whole register, no logged change of the register waits, and its partition, if it
has one, is open or the register is PTN_CTL (R548, R549, R552, R555). -/
def State.performs (s : State) (o : Nat) (w : RegWrite) (j : Judged) : Prop :=
  (w.agent = 1 ∨ w.agent = 2) ∧ s.reaches w.agent = true ∧ w.width = 8 ∧ w.at4 = 0 ∧ o % 8 = 0 ∧ s.regWaits o = false ∧
    (∀ n, ptnOfOffset o = some n → o = Reg.ptnCtl n ∨ s.isOpen n = true) ∧ j.denied = false ∧
    ∃ f, regForm o = some f ∧
      j = judge f (s.roleOf w.agent) (s.reg o) (if f.wide then w.value else BitVec.ofNat 64 (w.value.toNat % 2 ^ 32))

/-- In the state v a change of the register at o, which the agent of the write w makes in its role, waits behind those that
waited in s, and the register's value is the same. -/
def State.logs (s v : State) (o : Nat) (w : RegWrite) (c : Change) : Prop :=
  ∃ p : Pending, v.setup.waiting = s.setup.waiting ++ [p] ∧ p.change = c ∧ p.offset = o ∧ p.agent = w.agent ∧
    p.role = s.roleOf w.agent ∧ v.setup.regs = s.setup.regs

/-! ### Meter requests -/

/-- The head of the meter die's queue of requests is m, whose block, in host memory and with its reserved fields zero, asks for
OP op, and no earlier request waits for the logbook (R523). -/
def State.asks (s : State) (op : Nat) (m : MtrReq) (rest : List MtrReq) : Prop :=
  s.meter.requests = m :: rest ∧ m.pointer.toNat + 64 ≤ hostBytes ∧ s.hostRead m.pointer.toNat 8 = BitVec.ofNat 8 op :: List.replicate 7 0 ∧
    op < 256 ∧ s.setup.waiting.any (fun p => p.change.ofRequest) = false

/-- Argument i of a request. -/
def State.arg (s : State) (m : MtrReq) (i : Nat) : Nat := leNat (s.hostRead (m.pointer.toNat + 8 * (i + 1)) 8)

/-- The request has left the queue, its block holds a RESULT, and its pointer is posted back to the requester (R523). -/
def State.answered (s : State) (m : MtrReq) (rest : List MtrReq) (result : Nat) : Prop :=
  s.meter.requests = rest ∧ s.hostRead (m.pointer.toNat + 1) 1 = [BitVec.ofNat 8 result] ∧
    s.mbox m.ch = ⟨3, m.pointer, true, m.agent⟩

/-- In the state v the entry p of a request waits for the logbook behind those that waited in s, in the name of the
requester. -/
def State.entrusted (s v : State) (m : MtrReq) (kind : Nat) (c : Change) : Prop :=
  ∃ p : Pending, v.setup.waiting = s.setup.waiting ++ [p] ∧ p.kind = kind ∧ p.change = c ∧ p.agent = m.agent

/-! ### Faults and resets -/

/-- An open error record of a detector names a unit (R480). -/
def State.recorded (s : State) (det unit : Nat) : Prop := ∃ r ∈ s.dealer.records, r.detector = det ∧ r.suspect = unit

/-- The record kept last names a unit: a report of class PACKAGE of a detector (R482). -/
def State.keptLast (s : State) (det unit : Nat) : Prop := ∃ l r, s.dealer.kept = l ++ [r] ∧ r.detector = det ∧ r.suspect = unit

/-- A reset is ordered and has not completed (R485). -/
def State.orders (s : State) (l : Level) (target : Nat) : Prop := (⟨l, target⟩ : Reset) ∈ s.dealer.resets

/-- The Dealer has raised an event of a kind with its two words. -/
def State.raised (s : State) (k : EventKind) (a b : Nat) : Prop := ∃ i, (⟨i, k, a, b⟩ : Event) ∈ s.dealer.events

end Sys2Proof.Machine
end

