-- ==== Sys2Proof/Certificates/Slice0/Obligations.lean ====
section
/-! DEFINITION. What is stated of the model, for the provers: one def per statement. The docstring of each says it in words;
OBLIGATIONS.json names the rules of spec/. -/

open Sys2Proof Sys2Proof.Machine

/-- A step takes the front command of the queue and answers what the command does with the queue's rest. With an empty
queue the block idles (the model's choice, log entry 1). -/
def Obligations.StepRunsTheFrontCommand : Prop :=
  (∀ (c : Instr) (rest : List Instr) (s : State), s.pending = c :: rest → step s = exec c (s.withPending rest)) ∧
  ∀ s : State, s.pending = [] → step s = .next s

/-- Every command that names units that exist answers a next state; one that names an absent unit stops with noSuchUnit,
and nothing else stops a command. A command acts on everything but the queue: the commands waiting are the same after it. -/
def Obligations.CommandsAlwaysAnswer : Prop :=
  (
  ∀ (c : Instr) (s : State),
    (c.wf = true → ∃ t, exec c s = .next t) ∧ (c.wf = false → exec c s = .fault .noSuchUnit)) ∧
  (
  ∀ (c : Instr) (s t : State), exec c s = .next t → t.pending = s.pending)

/-- Every byte memory keeps its canonical form through every step. -/
def Obligations.MemoriesStayCanonical : Prop :=
  ∀ s t : State, s.memWf → step s = .next t → t.memWf

/-- At reset every byte memory has the canonical form, and every byte reads zero. What start-up leaves (R539, R70, R53):
VCORE 0.60 V and VSRAM 0.75 V on every compute die, no control step yet, so that HELM_STATUS reads VCORE 0, temperature 0
and a brake of 64. In part the model's choice: log entries 4 and 5. -/
def Obligations.ResetState : Prop :=
  (
  State.reset.memWf ∧ (∀ pl, State.reset.byteAt pl = 0) ∧ ∀ p a n, State.reset.deckBytes p a n = List.replicate n 0) ∧
  (
  (∀ d, (State.reset.die d).vcore = 600 ∧ (State.reset.die d).vsram = 750 ∧ (State.reset.die d).brake = 64) ∧
  fld State.reset.helmStatus 9 0 = 0 ∧ fld State.reset.helmStatus 17 10 = 0 ∧ fld State.reset.helmStatus 30 24 = 64)

/-- Each active lane of an arithmetic instruction writes DST with its operation on a, b and c; register 255 takes nothing;
no other register of a lane, no scalar register and no other lane changes; the group goes on at the next instruction. -/
def Obligations.ThreadArithmetic : Prop :=
  ∀ e ∈ ([(.iadd, 0x00, fun _ a b _ => a + b), (.isub, 0x01, fun _ a b _ => a - b), (.imul, 0x02, fun _ a b _ => a * b),
      (.imulh, 0x03, fun k a b _ => if k = 0 then BitVec.ofNat 32 (a.toNat * b.toNat / 2 ^ 32)
        else BitVec.ofInt 32 (a.toInt * b.toInt / 2 ^ 32)),
      (.and, 0x04, fun _ a b _ => a &&& b), (.or, 0x05, fun _ a b _ => a ||| b), (.xor, 0x06, fun _ a b _ => a ^^^ b),
      (.shl, 0x07, fun _ a b _ => a <<< (b.toNat % 32)),
      (.shr, 0x08, fun k a b _ => if k = 0 then a >>> (b.toNat % 32) else a.sshiftRight (b.toNat % 32)),
      (.icmp, 0x09, fun k a b _ => flag (if k = 0 then a == b else if k = 1 then a != b else if k = 2 then BitVec.slt a b
        else if k = 3 then BitVec.sle a b else if k = 4 then BitVec.ult a b else BitVec.ule a b)),
      (.sel, 0x0A, fun _ a b c => if a = 0 then c else b),
      (.iminmax, 0x0B, fun k a b _ => if k = 0 then (if BitVec.slt a b then a else b)
        else if k = 1 then (if BitVec.slt a b then b else a) else if k = 2 then (if BitVec.ult a b then a else b)
        else (if BitVec.ult a b then b else a)),
      (.fadd, 0x10, fun _ a b _ => fadd32 a b), (.fmul, 0x11, fun _ a b _ => fmul32 a b),
      (.ffma, 0x12, fun _ a b c => fmaWord a b c), (.fcmp, 0x13, fun k a b _ => flag ((fcmpFlag k a b).getD false)),
      (.fminmax, 0x14, fun k a b _ => minmaxWord k a b), (.fcvt, 0x15, fun k a _ _ => convert k a),
      (.fsqrt, 0x16, fun _ a _ _ => fsqrt32 a), (.frcp, 0x17, fun _ a _ _ => rcpWord a)] :
      List ((Nat → Nat → DWord → Instr) × Nat × (Nat → Word → Word → Word → Word))),
  ∀ (s : State) (p slot : Nat) (w : DWord) (t : Seat), s.issues p slot w e.2.1 t → threadLegal t.pr.nreg w = true →
    ∃ g, s.leaves (e.1 p slot w) t g ∧
      t.g.wrote g (wDst w) (fun l => e.2.2 (wSub w) (t.g.t (wA w) l) (t.g.b w l) (t.g.t (wC w) l))

/-- A scalar instruction writes s[DST] whatever the active mask, and no other register; the group goes on at the next
instruction. SLI replaces one quarter of s[DST]. -/
def Obligations.ScalarArithmetic : Prop :=
  ∀ e ∈ ([(.sadd, 0xD0, fun _ _ a b => a + b), (.ssub, 0xD1, fun _ _ a b => a - b), (.sand, 0xD2, fun _ _ a b => a &&& b),
      (.sor, 0xD3, fun _ _ a b => a ||| b), (.sxor, 0xD4, fun _ _ a b => a ^^^ b),
      (.sshl, 0xD5, fun _ _ a b => a <<< (b.toNat % 64)),
      (.sshr, 0xD6, fun w _ a b => if wSub w = 0 then a >>> (b.toNat % 64) else a.sshiftRight (b.toNat % 64)),
      (.sli, 0xD7, fun w old _ _ => setFld old (16 * wSub w + 15) (16 * wSub w) (wImm w)), (.smov, 0xD8, fun _ _ _ b => b)] :
      List ((Nat → Nat → DWord → Instr) × Nat × (DWord → DWord → DWord → DWord → DWord))),
  ∀ (s : State) (p slot : Nat) (w : DWord) (t : Seat), s.issues p slot w e.2.1 t → scalarLegal w = true →
    ∃ g, s.leaves (e.1 p slot w) t g ∧
      (∀ r, g.s r = if r = wDst w then e.2.2 w (t.g.s r) (t.g.s (wA w)) (t.g.bs w) else t.g.s r) ∧
      (∀ r l, g.t r l = t.g.t r l) ∧ g.exited = t.g.exited ∧ t.g.goesOn g

/-- Control flow. JMP goes to pc + 8 x IMM16. BR: the lanes whose SRCA is not 0 (SUB 0), or is 0 (SUB 1), branch; lanes
that agree go on together; where they disagree those that branch go on at the target and the others are pending on the
stack, unless that would be a 33rd entry, which faults with DIVERGENCE_DEPTH. JOINPT pushes a reconvergence entry, unless
that would be a 33rd. NOP changes no register. -/
def Obligations.ControlFlow : Prop :=
  ∀ (s : State) (p slot : Nat) (w : DWord) (t : Seat), threadLegal t.pr.nreg w = true →
    let yes := t.g.lanes.filter (fun l => (t.g.t (wA w) l != 0) != (wSub w == 1))
    let no := t.g.lanes.filter (fun l => !((t.g.t (wA w) l != 0) != (wSub w == 1)))
    let u := (s.seatAt t).g
    let deep (c : Instr) : Prop := exec c s = .next ((s.atIssue t).groupFault (s.seatAt t) St.divergenceDepth false)
    (s.issues p slot w 0x61 t → s.leaves (.jmp p slot w) t (u.goto (t.g.target w))) ∧
    (s.issues p slot w 0x65 t → s.leaves (.nop p slot w) t u.advance) ∧
    (s.issues p slot w 0x62 t → t.g.stack.length < 32 →
      s.leaves (.joinpt p slot w) t ({ u with stack := .reconv (t.g.target w) t.g.active :: t.g.stack }).advance) ∧
    (s.issues p slot w 0x62 t → 32 ≤ t.g.stack.length → deep (.joinpt p slot w)) ∧
    (s.issues p slot w 0x60 t → no = [] → s.leaves (.br p slot w) t (u.goto (t.g.target w))) ∧
    (s.issues p slot w 0x60 t → no ≠ [] → yes = [] → s.leaves (.br p slot w) t u.advance) ∧
    (s.issues p slot w 0x60 t → no ≠ [] → yes ≠ [] → 32 ≤ t.g.stack.length → deep (.br p slot w)) ∧
    (s.issues p slot w 0x60 t → no ≠ [] → yes ≠ [] → t.g.stack.length < 32 → ∃ m n : BitVec 32,
      (∀ l, l < 32 → m.getLsbD l = decide (l ∈ yes)) ∧ (∀ l, l < 32 → n.getLsbD l = decide (l ∈ no)) ∧
      s.leaves (.br p slot w) t
        (({ u with stack := .pending (t.g.pc + 8) n :: t.g.stack, active := m }).goto (t.g.target w)))

/-- EXIT and BARB. EXIT ends the active lanes for good. BARB needs a converged group and holds it at its pc. When every
group the block still has is held at the same BARB, each goes on behind it and remembers the order of issue at that moment;
otherwise none of them moves. -/
def Obligations.ExitAndBarrier : Prop :=
  ∀ (s : State) (p slot : Nat) (w : DWord) (t : Seat), threadLegal t.pr.nreg w = true →
    let u := (s.seatAt t).g
    let opens (c : Instr) (v : State) : Prop :=
      ((∃ a, ∀ e ∈ (v.work p).groups, e.2.block = t.g.block → e.2.held = .barrier a) → ∃ v', exec c s = .next v' ∧
        ∀ k, (v'.work p).group? k = ((v.work p).group? k).map (fun g =>
          if g.block = t.g.block then { g.advance with held := .no, barStamp := (v.core p).seq } else g)) ∧
      ((¬∃ a, ∀ e ∈ (v.work p).groups, e.2.block = t.g.block → e.2.held = .barrier a) → exec c s = .next v)
    (s.issues p slot w 0x63 t → opens (.exit p slot w)
      ((s.atIssue t).putGroup (s.seatAt t) ({ u with exited := u.exited ||| u.active, active := 0 }).advance)) ∧
    (s.issues p slot w 0x64 t → t.g.active = ~~~ t.g.exited → opens (.barb p slot w)
      ((s.atIssue t).putGroup (s.seatAt t) { u with held := .barrier t.g.pc })) ∧
    (s.issues p slot w 0x64 t → t.g.active ≠ ~~~ t.g.exited →
      exec (.barb p slot w) s = .next ((s.atIssue t).groupFault (s.seatAt t) St.groupDivergent false))

/-- Group cooperation. SHFL: lane l, r = l mod N in its segment of width N, takes a of the lane SUB names, or c where that
lane lies outside the segment. VOTE: its value by SUB over the active lanes. RDSP: special value IMM16 mod 16. MOVS: the
lowest active lane's registers into s[DST]. MOVT: s[SRCA] into DST of every active lane, high part also into DST + 1. The
special values of RDSP, codes 0 to 11 in order. -/
def Obligations.GroupCooperation : Prop :=
  (
  ∀ (s : State) (p slot : Nat) (w : DWord) (t : Seat), threadLegal t.pr.nreg w = true →
    let g := t.g
    let a (l : Nat) : Word := g.t (wA w) l
    let n := 2 ^ (wImm w / 256 % 8)
    let b (l : Nat) : Nat := if wBsel w = 2 then wImm w % 256 else (g.b w l).toNat
    let bit (l : Nat) : Bool := if 8 ≤ wSub w then (a l).getLsbD ((g.b w l).toNat % 32) else a l != 0
    let on := g.lanes.filter bit
    (s.issues p slot w 0x70 t → ∃ g' f, s.leaves (.shfl p slot w) t g' ∧ g.wrote g' (wDst w) f ∧ ∀ l,
      (wSub w = 0 → f l = a (l - l % n + (l % n + b l) % n)) ∧
      (wSub w = 1 → f l = if b l ≤ l % n then a (l - b l) else g.t (wC w) l) ∧
      (wSub w = 2 → f l = if l % n + b l < n then a (l + b l) else g.t (wC w) l) ∧
      (wSub w = 3 → f l = a (l - l % n + n - 1 - l % n)) ∧
      (wSub w = 4 → f l = a (l - l % n + b l % n))) ∧
    (s.issues p slot w 0x71 t → ∃ g' f, s.leaves (.vote p slot w) t g' ∧ g.wrote g' (wDst w) f ∧ ∀ l,
      (wSub w % 8 = 0 → f l = flag (g.lanes.all bit)) ∧
      (wSub w % 8 = 1 → f l = flag (g.lanes.any bit)) ∧
      (wSub w % 8 = 2 → ∀ k, k < 32 → (f l).getLsbD k = (g.active.getLsbD k && bit k)) ∧
      (wSub w % 8 = 3 → f l = BitVec.ofNat 32 on.length) ∧
      (wSub w % 8 = 4 → f l = BitVec.ofNat 32 (on.filter (· < l)).length) ∧
      (wSub w % 8 = 5 → f l = BitVec.ofNat 32 (on.headD 32)) ∧
      (wSub w = 6 → f l = flag (g.lanes.all (fun k => a k == a (g.lanes.headD 0))))) ∧
    (s.issues p slot w 0x74 t → ∃ g', s.leaves (.rdsp p slot w) t g' ∧
      g.wrote g' (wDst w) (fun l => (s.atIssue t).special (s.seatAt t) (wImm w % 16) l)) ∧
    (s.issues p slot w 0x72 t → ∃ g', s.leaves (.movs p slot w) t g' ∧ (∀ r l, g'.t r l = g.t r l) ∧ g.goesOn g' ∧
      ∀ r, g'.s r = if r = wDst w then
        (let x := (a (g.lanes.headD 0)).toNat
         if wSub w = 0 then setFld (g.s r) 31 0 x else if wSub w = 1 then setFld (g.s r) 63 32 x
         else BitVec.ofNat 64 (x + 2 ^ 32 * (g.t (wA w + 1) (g.lanes.headD 0)).toNat)) else g.s r) ∧
    (s.issues p slot w 0x73 t → ∃ g', s.leaves (.movt p slot w) t g' ∧ (∀ r, g'.s r = g.s r) ∧ g.goesOn g' ∧
      ∀ r l, l < 32 → g'.t r l =
        if g.active.getLsbD l = true ∧ r ≠ 255 ∧ r = wDst w + 1 ∧ wSub w = 2 then ((g.s (wA w)) >>> 32).truncate 32
        else if g.active.getLsbD l = true ∧ r ≠ 255 ∧ r = wDst w then
          (if wSub w = 1 then ((g.s (wA w)) >>> 32).truncate 32 else (g.s (wA w)).truncate 32)
        else g.t r l)) ∧
  (
  ∀ (s : State) (t : Seat) (l : Nat),
    let cores := (List.range 192).filter (fun q => s.ptnOfCore q == t.b.cid.ptn)
    (List.range 12).map (fun k => s.special t k l) =
      ([l, t.slot, t.g.index, t.b.index, t.d.blocks, t.p, (cores.filter (· < t.p)).length, cores.length, t.b.deckLo,
        16384 * t.b.granules, t.g.active.toNat, t.b.cid.queue * 2 ^ 26 + t.b.cid.entry % 2 ^ 26].map
          (fun n : Nat => (BitVec.ofNat 32 n : Word))))

/-- LDD and STD. Where an active lane's address leaves the block's allocation the group faults with DECK_RANGE, else where
one is misaligned with ADDRESS_ALIGNMENT. Otherwise LDD writes DST of each active lane with the deck bytes at SRCA + IMM16,
extended by SUB, and no deck byte changes; STD changes no register and stores the low bytes of b: the highest active lane
of those that store to a byte stands, and a byte that no active lane stores to stays. In part the model's choice: log entry
108. -/
def Obligations.DeckAccess : Prop :=
  ∀ (s : State) (p slot : Nat) (w : DWord) (t : Seat), threadLegal t.pr.nreg w = true → s.memWf →
    let n := 2 ^ (wSub w % 4)
    let at_ (l : Nat) : Nat := t.g.deckAddr w l
    let out : Prop := ∃ l ∈ t.g.lanes, at_ l < t.b.deckLo ∨ t.b.deckLo + 16384 * t.b.granules < at_ l + n
    let off : Prop := ∃ l ∈ t.g.lanes, at_ l % n ≠ 0
    let faults (c : Instr) (st : Nat) : Prop := exec c s = .next ((s.atIssue t).groupFault (s.seatAt t) st false)
    (s.issues p slot w 0x40 t → out → faults (.ldd p slot w) 0x0405) ∧
    (s.issues p slot w 0x40 t → ¬out → off → faults (.ldd p slot w) 0x0408) ∧
    (s.issues p slot w 0x41 t → out → faults (.std p slot w) 0x0405) ∧
    (s.issues p slot w 0x41 t → ¬out → off → faults (.std p slot w) 0x0408) ∧
    (s.issues p slot w 0x40 t → ¬out → ¬off → ∃ (v : State) (g : Group), exec (.ldd p slot w) s = .next (v.putGroup (s.seatAt t) g) ∧
      (∀ q a k, v.deckBytes q a k = s.deckBytes q a k) ∧
      t.g.wrote g (wDst w) (fun l =>
        let x := leNat (s.deckBytes p (at_ l) n)
        if wSub w / 4 % 2 = 1 ∧ 2 ^ (8 * n - 1) ≤ x then BitVec.ofInt 32 ((x : Int) - 2 ^ (8 * n)) else BitVec.ofNat 32 x)) ∧
    (s.issues p slot w 0x41 t → ¬out → ¬off → ∃ v : State,
      exec (.std p slot w) s = .next (v.putGroup (s.seatAt t) (s.seatAt t).g.advance) ∧
      (∀ q a, q ≠ p → v.deckBytes q a 1 = s.deckBytes q a 1) ∧
      (∀ a, (∀ l ∈ t.g.lanes, a < at_ l ∨ at_ l + n ≤ a) → v.deckBytes p a 1 = s.deckBytes p a 1) ∧
      (∀ l ∈ t.g.lanes, (∀ m ∈ t.g.lanes, l < m → at_ m ≠ at_ l) → ∀ i, i < n →
        v.deckBytes p (at_ l + i) 1 = [BitVec.ofNat 8 ((t.g.b w l).toNat / 2 ^ (8 * i))]))

/-- LOCKG and UNLOCKG on a deck word by one active lane: DST takes the word's old value, for LOCKG DST + 1 the status, for
UNLOCKG DST the result; the word changes where the lock's own effect writes it, and no other deck byte does. The two
effects of LOCKG and UNLOCKG on a lock word. LOCKG takes a word whose bit 31 is 0, writing the own word, and says 0; on a
word its own group holds it writes nothing and says 2, on any other 1. UNLOCKG writes 0 and says 0 where the word is its
own lane's, and otherwise writes nothing and says 1. -/
def Obligations.DeckLocks : Prop :=
  (
  ∀ (s : State) (p slot : Nat) (w : DWord) (t : Seat) (l : Nat), threadLegal t.pr.nreg w = true → s.memWf →
    t.g.lanes = [l] → wSub w = 0 →
    let a := t.g.deckAddr w l
    let old : Word := BitVec.ofNat 32 (leNat (s.deckBytes p a 4))
    t.b.deckLo ≤ a → a + 4 ≤ t.b.deckLo + 16384 * t.b.granules → a % 4 = 0 →
    let ends (c : Instr) (r : Option Word × Word) (g : Group) : Prop :=
      ∃ (v : State) (g' : Group), exec c s = .next (v.putGroup (s.seatAt t) g') ∧ (∀ k j, j < 32 → g'.t k j = g.t k j) ∧
        (∀ k, g'.s k = t.g.s k) ∧ g'.exited = t.g.exited ∧ t.g.goesOn g' ∧
        (∀ q b, (q ≠ p ∨ b < a ∨ a + 4 ≤ b) → v.deckBytes q b 1 = s.deckBytes q b 1) ∧
        v.deckBytes p a 4 = (match r.1 with
          | some x => natLe 4 x.toNat
          | none => s.deckBytes p a 4)
    (s.issues p slot w 0x50 t →
      ends (.lockg p slot w) (lockStep (lockWord p slot l) old)
        ((t.g.setT (wDst w) l old).setT (wDst w + 1) l (lockStep (lockWord p slot l) old).2)) ∧
    (s.issues p slot w 0x51 t →
      ends (.unlockg p slot w) (unlockStep (lockWord p slot l) old)
        (t.g.setT (wDst w) l (unlockStep (lockWord p slot l) old).2))) ∧
  (
  ∀ (p slot lane : Nat) (old : Word), p < 192 → slot < 64 → lane < 32 →
    let own := lockWord p slot lane
    own.toNat = lane + 2 ^ 5 * slot + 2 ^ 11 * p + 2 ^ 31 ∧
    lockStep own old = (if old.getLsbD 31 = false then (some own, 0)
      else if old.toNat / 2 ^ 5 % 2 ^ 14 = 2 ^ 6 * p + slot then (none, 2) else (none, 1)) ∧
    unlockStep own old = (if old.getLsbD 31 = true ∧ old.toNat % 2 ^ 19 = 2 ^ 11 * p + 2 ^ 5 * slot + lane then (some 0, 0)
      else (none, 1)))

/-- LDF, STF, ATOMF, and LOCKG and UNLOCKG on a far word. The lowest-addressed check comes first: a misaligned active lane
faults with ADDRESS_ALIGNMENT; then the lowest lane whose address does not translate faults with its status; otherwise
every active lane makes one far request, in lane order, and the group goes on. The core's requests then go out as slots
allow. -/
def Obligations.FarRequests : Prop :=
  ∀ e ∈ ([(.ldf, 0x42), (.stf, 0x43), (.atomf, 0x44), (.lockg, 0x50), (.unlockg, 0x51)] :
      List ((Nat → Nat → DWord → Instr) × Nat)),
  ∀ (s : State) (p slot : Nat) (w : DWord) (t : Seat), s.issues p slot w e.2 t → threadLegal t.pr.nreg w = true →
    (0x50 ≤ e.2 → wSub w = 1) →
    let n := if e.2 < 0x44 then 2 ^ (wSub w % 4) else 4
    let s0 := s.atIssue t
    let u := s.seatAt t
    ((∃ l ∈ t.g.lanes, t.g.farAddr w l % n ≠ 0) → exec (e.1 p slot w) s = .next (s0.groupFault u 0x0408 false)) ∧
    ((∀ l ∈ t.g.lanes, t.g.farAddr w l % n = 0) → ∀ l ∈ t.g.lanes, ∀ st, s0.laneXl t w l = .no st →
      (∀ m ∈ t.g.lanes, m < l → ∃ pl, s0.laneXl t w m = .ok pl) →
      exec (e.1 p slot w) s = .next (s0.groupFault u st false)) ∧
    ((∀ l ∈ t.g.lanes, t.g.farAddr w l % n = 0) → ∀ place : Nat → Place, (∀ l ∈ t.g.lanes, s0.laneXl t w l = .ok (place l)) →
      ∃ (reqs : List FarReq) (v : State), exec (e.1 p slot w) s = .next (v.pumpAll p) ∧
        v = (let v0 := s0.putGroup u u.g.advance
             v0.setWork p { v0.work p with farWait := (v0.work p).farWait ++ reqs }) ∧
        reqs.length = t.g.lanes.length ∧
        ∀ (k l : Nat) (r : FarReq), t.g.lanes[k]? = some l → reqs[k]? = some r →
          r.stamp = (s.core p).seq + 1 ∧ r.slot = slot ∧ r.block = t.g.block ∧ r.ctx = t.d.ctx ∧
          r.addr = t.g.farAddr w l ∧ r.place = place l ∧ r.pc = t.g.pc ∧ r.mask = t.g.active ∧
          (e.2 = 0x42 → ∃ drop, r.act = .load (wDst w) l n (wSub w / 4 % 2 == 1) (8 ≤ wSub w) drop) ∧
          (e.2 = 0x43 → r.act = .store n (t.g.b w l) (8 ≤ wSub w)) ∧
          (e.2 = 0x44 → r.act = .atom (wSub w % 8) (t.g.b w l) (t.g.t (wC w) l) (wDst w) l (8 ≤ wSub w)) ∧
          (e.2 = 0x50 → r.act = .lock (wDst w) l (lockWord p slot l)) ∧
          (e.2 = 0x51 → r.act = .unlock (wDst w) l (lockWord p slot l)))

/-- A request in a far slot that this package's memory answers, over good check words. The slot is free, and: LDF's
register takes the extended bytes, and an acquiring LDF drops its cache lines once, with the last of its requests; STF's
bytes are stored; ATOMF's register takes the word's old value and the word its operation's; LOCKG's two registers take the
old value and the status. What each writes is stored at the request's place. The core's waiting requests then go out as
slots allow. -/
def Obligations.FarResponses : Prop :=
  ∀ (s : State) (p k : Nat) (r : FarReq), p < 192 → k < 64 → Tab.get? (s.work p).slots k = some r →
    r.place.isRemote = false → (s.chan (chanOf r.place)).state = 2 ∨ (s.chan (chanOf r.place)).state = 4 →
    (s.work p).laneFirst r = true → s.flips = [] → s.poison = [] →
    let s0 := s.freeSlot p k
    let s1 := s0.noteWrite ((s0.work p).cidOf r.block) r.place
    let old : Word := BitVec.ofNat 32 (leNat (s.bytesAt r.place 4))
    let ends (v : State) : Prop := exec (.farResponse p k) s = .next (v.pumpAll p)
    (∀ d l n sx acq drop, r.act = .load d l n sx acq drop →
      let v := s0.giveRegs p r (fun g => g.setT d l (extend n sx (s.bytesAt r.place n)))
      ends (if (s0.work p).farAll.any (fun o => o.stamp == r.stamp && o.slot == r.slot && o.block == r.block) then v
        else v.dropLines (p / 48) r.ctx drop)) ∧
    (∀ n x rel, r.act = .store n x rel → ends (s1.store r.place (natLe n x.toNat))) ∧
    (∀ op b c d l ord, r.act = .atom op b c d l ord → ends ((s1.store r.place (natLe 4 (
        (if op = 0 then old + b else if op = 1 then (if BitVec.slt b old then b else old)
        else if op = 2 then (if BitVec.slt old b then b else old) else if op = 3 then b
        else if old = c then b else old : Word)).toNat)).giveRegs p r (fun g => g.setT d l old))) ∧
    (∀ d l own, r.act = .lock d l own → ends (((match (lockStep own old).1 with
        | some x => s1.store r.place (natLe 4 x.toNat)
        | none => s1)).giveRegs p r (fun g => (g.setT d l old).setT (d + 1) l (lockStep own old).2))) ∧
    (∀ d l own, r.act = .unlock d l own → ends (((match (unlockStep own old).1 with
        | some x => s1.store r.place (natLe 4 x.toNat)
        | none => s1)).giveRegs p r (fun g => g.setT d l (unlockStep own old).2)))

/-- A group-wide instruction issued while a lane that has not exited is inactive faults with GROUP_DIVERGENT. An encoding
that the spec reserves faults with ILLEGAL_INSTRUCTION: in the thread format, the scalar format and, from a converged
group, the vector format. A group that is not ready issues nothing: its row charges one cycle of the cause to the core's
counter where the port would choose this group were all ready and none is, and nothing else changes. In part the model's
choice: log entries 2 and 107. -/
def Obligations.IssueFaults : Prop :=
  (
  ∀ e ∈ ([(.barb, 0x64), (.mpass, 0xA0), (.malt, 0xA1), (.mdrain, 0xA2), (.mzero, 0xA3), (.msync, 0xA4), (.tcopy, 0xC0),
      (.twait, 0xC1), (.vld, 0x80), (.vst, 0x81), (.vgath, 0x82), (.vscat, 0x83), (.vbcast, 0x84), (.vperm, 0x85),
      (.vadd, 0x88), (.vsub, 0x89), (.vmul, 0x8A), (.vfma, 0x8B), (.vminmax, 0x8C), (.vcmp, 0x8D), (.vsel, 0x8E),
      (.vdiv, 0x8F), (.vsqrt, 0x90), (.vbit, 0x91), (.vmask, 0x92), (.vcvt, 0x94), (.vcvtl, 0x95), (.vdecl, 0x96),
      (.vreblk, 0x97), (.vseed, 0x98), (.red, 0x9A), (.rget, 0x9B), (.vown, 0x9C)] :
      List ((Nat → Nat → DWord → Instr) × Nat)),
  ∀ (s : State) (p slot : Nat) (w : DWord) (t : Seat), s.issues p slot w e.2 t → t.g.active ≠ ~~~ t.g.exited →
    exec (e.1 p slot w) s = .next ((s.atIssue t).groupFault (s.seatAt t) 0x0502 false)) ∧
  (
  ∀ (s : State) (p slot : Nat) (w : DWord) (t : Seat),
    let illegal (c : Instr) : Prop := exec c s = .next ((s.atIssue t).groupFault (s.seatAt t) 0x0501 false)
    (∀ e ∈ ([(.iadd, 0x00), (.isub, 0x01), (.imul, 0x02), (.imulh, 0x03), (.and, 0x04), (.or, 0x05), (.xor, 0x06),
        (.shl, 0x07), (.shr, 0x08), (.icmp, 0x09), (.sel, 0x0A), (.iminmax, 0x0B), (.fadd, 0x10), (.fmul, 0x11),
        (.ffma, 0x12), (.fcmp, 0x13), (.fminmax, 0x14), (.fcvt, 0x15), (.fsqrt, 0x16), (.frcp, 0x17), (.ldd, 0x40),
        (.std, 0x41), (.ldf, 0x42), (.stf, 0x43), (.atomf, 0x44), (.lockg, 0x50), (.unlockg, 0x51), (.br, 0x60),
        (.jmp, 0x61), (.joinpt, 0x62), (.exit, 0x63), (.nop, 0x65), (.shfl, 0x70), (.vote, 0x71), (.movs, 0x72),
        (.movt, 0x73), (.rdsp, 0x74)] : List ((Nat → Nat → DWord → Instr) × Nat)),
      s.issues p slot w e.2 t → threadLegal t.pr.nreg w = false → illegal (e.1 p slot w)) ∧
    (∀ e ∈ ([(.sadd, 0xD0), (.ssub, 0xD1), (.sand, 0xD2), (.sor, 0xD3), (.sxor, 0xD4), (.sshl, 0xD5), (.sshr, 0xD6),
        (.sli, 0xD7), (.smov, 0xD8)] : List ((Nat → Nat → DWord → Instr) × Nat)),
      s.issues p slot w e.2 t → scalarLegal w = false → illegal (e.1 p slot w)) ∧
    (∀ e ∈ ([(.vld, 0x80), (.vadd, 0x88), (.vcmp, 0x8D), (.vmask, 0x92), (.vcvt, 0x94), (.red, 0x9A), (.vown, 0x9C)] :
        List ((Nat → Nat → DWord → Instr) × Nat)),
      s.issues p slot w e.2 t → t.g.active = ~~~ t.g.exited → vectorLegal w = false → illegal (e.1 p slot w))) ∧
  (
  ∀ e ∈ ([(.iadd, 0x00), (.ldd, 0x40), (.ldf, 0x42), (.stf, 0x43), (.lockg, 0x50), (.br, 0x60), (.barb, 0x64), (.shfl, 0x70),
      (.mpass, 0xA0), (.mdrain, 0xA2), (.msync, 0xA4), (.tcopy, 0xC0), (.twait, 0xC1), (.sadd, 0xD0)] :
      List ((Nat → Nat → DWord → Instr) × Nat)),
  ∀ (s : State) (p slot : Nat) (w : DWord) (t : Seat) (c : Nat), p < 192 → slot < 64 → s.seat p slot = some t →
    t.fetch = some w → wOp w = e.2 → s.stallNext t = some c →
    exec (e.1 p slot w) s = .next (if s.charged t then s.count p c 1 else s))

/-- Register instructions keep everything but their core's groups, blocks' slots, counters and order of issue, and the
units of R507: no other core, no memory, no deck, engine, array or channel, no other group of the core. -/
def Obligations.RegisterInstructionFrame : Prop :=
  ∀ e ∈ ([(.iadd, 0x00), (.isub, 0x01), (.imul, 0x02), (.imulh, 0x03), (.and, 0x04), (.or, 0x05), (.xor, 0x06),
      (.shl, 0x07), (.shr, 0x08), (.icmp, 0x09), (.sel, 0x0A), (.iminmax, 0x0B), (.fadd, 0x10), (.fmul, 0x11),
      (.ffma, 0x12), (.fcmp, 0x13), (.fminmax, 0x14), (.fcvt, 0x15), (.fsqrt, 0x16), (.frcp, 0x17), (.jmp, 0x61),
      (.nop, 0x65), (.shfl, 0x70), (.vote, 0x71), (.movs, 0x72), (.movt, 0x73), (.rdsp, 0x74)] :
      List ((Nat → Nat → DWord → Instr) × Nat)),
  ∀ (s : State) (p slot : Nat) (w : DWord) (t : Seat), s.issues p slot w e.2 t → threadLegal t.pr.nreg w = true →
    ∃ s', exec (e.1 p slot w) s = .next s' ∧ s.sameBut s' p ∧ s.sameCore s' p ∧
      ∀ k, k ≠ slot → (s'.work p).group? k = (s.work p).group? k

/-- An accepted matrix instruction enters a queue of its array behind what waits there, with its operands' registers read
at issue: the forward tile queue for an MPASS with KIND 0, the backward one for an MPASS with KIND 1 and a MALT, the
accumulator queue for an MDRAIN and an MZERO. The group goes on; the other queues and arrays stay. MSYNC and TWAIT hold the
group, behind the instruction, for its earlier matrix instructions on the array named or on all four, and for its earlier
copies on the channel named or on all four. Reserved bits set fault with ILLEGAL_INSTRUCTION. -/
def Obligations.MatrixQueues : Prop :=
  (
  ∀ (s : State) (p slot : Nat) (w : DWord) (t : Seat),
    let g := t.g
    let r (hi lo : Nat) : DWord := g.s (fld w hi lo)
    let u := (s.atIssue t).putGroup (s.seatAt t) (s.seatAt t).g.advance
    let old := (u.work p).array (mArr w)
    let entry (a b c d e : DWord) : MxEntry := ⟨(s.core p).seq + 1, slot, g.block, w, a, b, c, d, e⟩
    let becomes (c : Instr) (x : MxArray) : Prop :=
      exec c s = .next (u.setWork p ((u.work p).setArray (mArr w) x))
    (s.issues p slot w 0xA0 t → mpassFault w t (r 33 28) (r 39 34) (r 45 40) (r 51 46) = none → fld w 26 26 = 0 →
      becomes (.mpass p slot w) { old with fwd := old.fwd ++ [entry (r 33 28) (r 39 34) (r 45 40) (r 51 46) 0] }) ∧
    (s.issues p slot w 0xA0 t → mpassFault w t (r 33 28) (r 39 34) (r 45 40) (r 51 46) = none → fld w 26 26 = 1 →
      becomes (.mpass p slot w) { old with bwd := old.bwd ++ [entry (r 33 28) (r 39 34) (r 45 40) (r 51 46) 0] }) ∧
    (s.issues p slot w 0xA1 t → maltFault w t (r 24 19) (r 30 25) (r 36 31) (r 42 37) (r 48 43) = none →
      becomes (.malt p slot w)
        { old with bwd := old.bwd ++ [entry (r 24 19) (r 30 25) (r 36 31) (r 42 37) (r 48 43)] }) ∧
    (s.issues p slot w 0xA2 t → accFault w t (r 33 28) (r 45 40) = none →
      becomes (.mdrain p slot w) { old with accq := old.accq ++ [entry (r 33 28) (r 45 40) 0 0 0] }) ∧
    (s.issues p slot w 0xA3 t → accFault w t (r 33 28) (r 45 40) = none →
      becomes (.mzero p slot w) { old with accq := old.accq ++ [entry (r 33 28) (r 45 40) 0 0 0] })) ∧
  (
  ∀ (s : State) (p slot : Nat) (w : DWord) (t : Seat), t.g.active = ~~~ t.g.exited →
    let u := s.seatAt t
    let m : BitVec 4 := if fld w 10 10 = 1 then 15 else 1 <<< fld w 9 8
    let illegal (c : Instr) : Prop := exec c s = .next ((s.atIssue t).groupFault u 0x0501 false)
    (s.issues p slot w 0xA4 t → fld w 63 11 = 0 →
      s.leaves (.msync p slot w) t { u.g.advance with held := .msync m ((s.core p).seq + 1) }) ∧
    (s.issues p slot w 0xC1 t → fld w 63 11 = 0 →
      s.leaves (.twait p slot w) t { u.g.advance with held := .twait m ((s.core p).seq + 1) }) ∧
    (s.issues p slot w 0xA4 t → fld w 63 11 ≠ 0 → illegal (.msync p slot w)) ∧
    (s.issues p slot w 0xC1 t → fld w 63 11 ≠ 0 → illegal (.twait p slot w)))

/-- TCOPY, its fields good and both descriptors aligned inside the block's allocation, enters its channel's queue behind
what waits there, and the group goes on; a descriptor outside the allocation faults with DECK_RANGE, else a misaligned one
with ADDRESS_ALIGNMENT. COPY_TAKE: a copy that its channel may take leaves the queue; one whose descriptors or ranges are
refused ends its dispatch with the refusing status. COPY_COMPLETE: a copy whose writes are all acknowledged leaves the
channel. In part the model's choice: log entry 102. -/
def Obligations.Copies : Prop :=
  (
  ∀ (s : State) (p slot : Nat) (w : DWord) (t : Seat), s.issues p slot w 0xC0 t → t.g.active = ~~~ t.g.exited →
    fld w 63 29 = 0 →
    let src := (t.g.s (fld w 15 10)).toNat % 2 ^ 22
    let dst := (t.g.s (fld w 21 16)).toNat % 2 ^ 22
    let inside (a : Nat) : Prop := t.b.deckLo ≤ a ∧ a + 128 ≤ t.b.deckLo + 16384 * t.b.granules
    let faults (st : Nat) : Prop := exec (.tcopy p slot w) s = .next ((s.atIssue t).groupFault (s.seatAt t) st false)
    let u := (s.atIssue t).putGroup (s.seatAt t) (s.seatAt t).g.advance
    let ch := (u.work p).chan (fld w 9 8)
    (¬(inside src ∧ inside dst) → faults 0x0405) ∧
    (inside src → inside dst → ¬(src % 128 = 0 ∧ dst % 128 = 0) → faults 0x0408) ∧
    (inside src → inside dst → src % 128 = 0 → dst % 128 = 0 →
      exec (.tcopy p slot w) s = .next (u.setWork p ((u.work p).setChan (fld w 9 8) { ch with
        queue := ch.queue ++ [⟨(s.core p).seq + 1, slot, t.g.block, src, dst, (t.g.s (fld w 27 22)).toNat % 2 ^ 18,
          fld w 28 28 == 1, t.g.pc, t.g.active⟩] })))) ∧
  (
  ∀ (s : State) (p ch : Nat), p < 192 → ch < 4 →
    let w := s.work p
    let k := w.chan ch
    (∀ (c : CopyEntry) (rest : List CopyEntry) (b : Block) (d : Disp) (pr : Prog), k.queue = c :: rest →
      Tab.get? w.blocks c.block = some b → s.disp? b.cid = some d → Tab.get? (s.ptn b.cid.ptn).progs d.prog = some pr →
      (s.core p).running = true → d.status = 0 → s.generating p ch = false →
      w.blocked c.stamp (copyEnvs w.deck b.cid c) = false → s.flips = [] →
      let s1 := s.setWork p (w.setChan ch { k with queue := rest })
      let src := deckTensor w.deck c.src
      let dst := deckTensor w.deck c.dst
      let who := d.who
      (∀ st, s1.copyRefused p b d pr c = some st → st ≠ 0x0407 →
        exec (.copyTake p ch) s = .next (s1.accessFault p c.slot c.block c.pc c.mask st)) ∧
      (s1.copyRefused p b d pr c = none →
        (src.space = 0 → s1.xlFails who ⟨true, false⟩ src.addrs = none) →
        (dst.space = 0 → s1.xlFails who ⟨dst.acc, true⟩ dst.addrs = none) →
        exec (.copyTake p ch) s = .next ((s1.noteDest d dst).copyStart p ch d c src dst))) ∧
    (∀ (n : Nat) (r : CopyRun), k.runs[n]? = some r → r.writing = true → s.copyBusy p ch r.entry.stamp = false →
      ∃ v : State, exec (.copyComplete p ch n) s = .next (v.pumpAll p) ∧
        (v.work p).chan ch = { k with runs := k.runs.take n ++ k.runs.drop (n + 1) } ∧ { v with cores := s.cores } = s))

/-- A legal vector-engine instruction enters the engine's queue behind what waits there, with its scalar operand as read at
issue, and its group goes on. The block then holds the engine, unless the instruction is VOWN, after which nobody does. A
block that did not hold it takes it, all its registers, masks and accumulators at zero where another context held it last.
The vector engine, freed and drained, passes to the block that has waited longest: the block holds it and waits no more;
all its registers, masks and accumulators are zero where another context held it last, counted once, and otherwise stay. In
part the model's choice: log entries 103 and 104. -/
def Obligations.VectorQueues : Prop :=
  (
  ∀ e ∈ ([(.vld, 0x80), (.vst, 0x81), (.vgath, 0x82), (.vscat, 0x83), (.vbcast, 0x84), (.vperm, 0x85),
      (.vadd, 0x88), (.vsub, 0x89), (.vmul, 0x8A), (.vfma, 0x8B), (.vminmax, 0x8C), (.vcmp, 0x8D), (.vsel, 0x8E),
      (.vdiv, 0x8F), (.vsqrt, 0x90), (.vbit, 0x91), (.vmask, 0x92), (.vcvt, 0x94), (.vcvtl, 0x95), (.vdecl, 0x96),
      (.vreblk, 0x97), (.vseed, 0x98), (.red, 0x9A), (.rget, 0x9B), (.vown, 0x9C)] :
      List ((Nat → Nat → DWord → Instr) × Nat)),
  ∀ (s : State) (p slot : Nat) (w : DWord) (t : Seat), s.issues p slot w e.2 t → t.g.active = ~~~ t.g.exited →
    vectorLegal w = true →
    (e.2 ≤ 0x83 → t.b.holds (vRange w (t.g.s (vSs w))) = true ∧ vBase (t.g.s (vSs w)) % 4 = 0 ∧
      (0x82 ≤ e.2 → 4 ≤ vBound (t.g.s (vSs w)))) →
    ∃ v : State, exec (e.1 p slot w) s = .next (v.putGroup (s.seatAt t) (s.seatAt t).g.advance) ∧
      let old := (s.work p).engine
      let new := (v.work p).engine
      let same := old.holder = .block t.g.block ∨ old.last = [] ∨ old.last = [(t.d.ctx.id, t.d.ctx.gen)]
      new.queue = old.queue ++ [⟨(s.core p).seq + 1, slot, t.g.block, w, t.g.s (vSs w)⟩] ∧
      new.holder = (if e.2 = 0x9C then .nobody else .block t.g.block) ∧ new.ruq = old.ruq ∧
      (same → new.v = old.v ∧ new.k = old.k ∧ new.accs = old.accs) ∧
      (¬same → new.v = [] ∧ new.k = [] ∧ new.accs = [])) ∧
  (
  ∀ (s : State) (p b : Nat) (rest : List Nat) (d : Disp), p < 192 →
    let e := (s.work p).engine
    e.waiters = b :: rest → e.holder = .nobody → e.queue = [] → e.ruq = [] → s.disp? ((s.work p).cidOf b) = some d →
    ∃ v : State, exec (.veOwnerPass p) s = .next v ∧
      let y := (v.work p).engine
      let same := e.last = [] ∨ e.last = [(d.ctx.id, d.ctx.gen)]
      y.holder = .block b ∧ b ∉ y.waiters ∧ y.last = [(d.ctx.id, d.ctx.gen)] ∧ y.queue = [] ∧ y.ruq = [] ∧
      (same → y.v = e.v ∧ y.k = e.k ∧ y.accs = e.accs ∧
        Tab.get (v.core p).counters 63 0 = Tab.get (s.core p).counters 63 0) ∧
      (¬same → y.v = [] ∧ y.k = [] ∧ y.accs = [] ∧
        Tab.get (v.core p).counters 63 0 = Tab.get (s.core p).counters 63 0 + 1))

/-- A take decision of an array that can begin the stream entry of a new pass. With one head ready it takes that one and
the streak starts anew; with both ready it prefers the backward one under BIAS 0, the forward one under BIAS 1, the earlier
issued under BIAS 2, unless the streak of preferred takes has reached RUN_LIMIT, which takes the other and starts anew. The
head taken leaves its queue with its operands read, and empty shadow registers fill with the weights of the next pass that
has rows to stream; with no head ready nothing is taken, and a cycle with a queue not empty is counted. -/
def Obligations.TakeDecisions : Prop :=
  ∀ (s : State) (p a : Nat), p < 192 → a < 4 → (s.core p).running = true →
    let x := (s.work p).array a
    let f := (s.work p).headReady x x.fwd
    let b := (s.work p).headReady x x.bwd
    let sched := s.reg (Reg.passSched (s.ptnOfCore p))
    let bias := fld sched 1 0
    let limit := fld sched 5 2
    let older : Bool := ((x.fwd.head?.map (·.stamp)).getD 0) < ((x.bwd.head?.map (·.stamp)).getD 0)
    let forced : Bool := bias != 2 && 0 < limit && limit ≤ x.streak
    let back : Bool := if !b then false else if !f then true
      else if bias = 2 then !older else (bias == 0) != forced
    x.entryFree = true →
    (f = false → b = false →
      exec (.takeDecision p a) s = .next (if x.fwd = [] ∧ x.bwd = [] then s else s.count p 35 1)) ∧
    (f = true ∨ b = true → ∃ (v : State) (m : MxEntry) (rest : List MxEntry),
      exec (.takeDecision p a) s = .next v ∧ (if back then x.bwd else x.fwd) = m :: rest ∧
      let passes := x.taken ++ [takenOf m (s.work p).deck]
      let coming := (passes.flatMap (·.subs)).find? (fun u => !u.entered && !u.rows.isEmpty)
      (v.work p).array a = { x with
        taken := passes
        shadow := if x.shadow = [] then (coming.map (·.cols)).getD [] else x.shadow
        fwd := if back then x.fwd else rest
        bwd := if back then rest else x.bwd
        streak := if bias = 2 then x.streak else if f && b then (if forced then 0 else x.streak + 1) else 0 } ∧
      ∀ c, c ≠ a → (v.work p).array c = (s.work p).array c)

/-- One fold: the earliest pass taken with rows left folds its next stream row. The row that is its pass's first carries
the front, at which the cells copy their shadow weights to active; the active weights are its columns. Each column's
accumulator entry takes b0 x 2^(s0 − 56) + b1 x 2^(s1 − 56) + its old value, or + nothing under CLR, rounded once, where b0
and b1 are the exact sums of the products of reduction indices 0 to 31 and 32 to 63 and s0 and s1 the sums of the two
blocks' scales. Every other entry stays, and the row is gone from the pass. The product of two elements whose code is not
zero is exact: its sign is the signs' difference and its magnitude the power of two of the codes' distances from the top,
in units of 2^−56, cut below that unit; a zero code makes it zero. In part the model's choice: log entry 105. -/
def Obligations.Folds : Prop :=
  (
  ∀ (s : State) (p a : Nat) (t : Taken) (rest : List Taken) (u : SubPass) (r : StreamRow) (subs : List SubPass),
    p < 192 → a < 4 → ((s.work p).array a).taken = t :: rest → nextRow t.subs = some (u, r, subs) →
    let cols := if u.entered then ((s.work p).array a).active else ((s.work p).array a).shadow
    cols.length ≤ u.width → ∃ v : State, exec (.fold p a) s = .next v ∧
      ((v.work p).array a).taken = { t with subs := subs } :: rest ∧ ((v.work p).array a).active = cols ∧
      (∀ n c, cols[n]? = some c →
        let f := lfmt u.fmt
        let sum (l m : List Nat) : Int := (List.zipWith (product f) l m).sum
        Tab.get ((v.work p).array a).acc (32768 * u.half + u.width * r.out + n) 0 =
          foldValue (sum (r.codes.take 32) (c.codes.take 32)) (r.e0 + c.e0)
            (sum (r.codes.drop 32) (c.codes.drop 32)) (r.e1 + c.e1)
            (Tab.get ((s.work p).array a).acc (32768 * u.half + u.width * r.out + n) 0) u.clr) ∧
      (∀ k, (∀ n, n < cols.length → k ≠ 32768 * u.half + u.width * r.out + n) →
        Tab.get ((v.work p).array a).acc k 0 = Tab.get ((s.work p).array a).acc k 0) ∧
      ∀ k, v.byteAt k = s.byteAt k) ∧
  (
  ∀ (f : LF) (x w : Nat), 0 < f.k →
    let cx := x % (f.cmax + 1)
    let cw := w % (f.cmax + 1)
    (cx = 0 ∨ cw = 0 → product f x w = 0) ∧
    (cx ≠ 0 → cw ≠ 0 → ∃ (e : Int) (r : Nat), (r : Int) = -(((f.cmax - cx) + (f.cmax - cw) : Nat) : Int) - e * f.k ∧ r < f.k ∧
      product f x w = (if bit x (f.width - 1) = bit w (f.width - 1) then 1 else -1) *
        (if 0 ≤ e + 33 then ((mTab (r * (256 / f.k)) * 2 ^ (e + 33).toNat : Nat) : Int)
         else ((mTab (r * (256 / f.k)) / 2 ^ (-(e + 33)).toNat : Nat) : Int))))

/-- PASS_COMPLETE: the earliest pass taken completes once it has no row left. An MDRAIN or MZERO at the head of the
accumulator queue that nothing holds back: it leaves the queue; MDRAIN writes column n of row r to the deck at DATA_ADDR +
r x PITCH x 32 + 4 x n; MZERO, and MDRAIN with CLRA, set the entries to +0; all other entries stay. In part the model's
choice: log entry 105. -/
def Obligations.PassesAndDrains : Prop :=
  (
  ∀ (s : State) (p a : Nat) (t : Taken) (rest : List Taken), p < 192 → a < 4 →
    ((s.work p).array a).taken = t :: rest → (nextRow t.subs).isNone = true →
    ∃ v : State, exec (.passComplete p a) s = .next (v.pumpAll p) ∧
      (v.work p).array a = { (s.work p).array a with taken := rest } ∧
      (∀ c, c ≠ a → (v.work p).array c = (s.work p).array c) ∧ { v with cores := s.cores } = s) ∧
  (
  ∀ (s : State) (p a : Nat) (m : MxEntry) (rest : List MxEntry), p < 192 → a < 4 → s.memWf → (s.core p).running = true →
    let x := (s.work p).array a
    let w := s.work p
    let base := 32768 * fld m.w 22 22
    let width := 64 * prodP (dFmt m.w)
    let at_ (r n : Nat) : Nat := base + width * (exAcc m.opB + r) + n
    let rows := exRows m.opB
    let nv := exNv m.opB
    x.taken = [] → x.accq = m :: rest → w.blocked m.stamp m.envs = false → x.waits m = false → nv ≤ width →
    wOp m.w = 0xA2 ∨ wOp m.w = 0xA3 → (wOp m.w = 0xA2 → 4 * nv ≤ opPitch m.opA) →
    ∃ v : State, exec (.passComplete p a) s = .next (v.pumpAll p) ∧
      let y := (v.work p).array a
      y.accq = rest ∧ y.fwd = x.fwd ∧ y.bwd = x.bwd ∧ y.taken = [] ∧
      (∀ r n, r < rows → n < nv → Tab.get y.acc (at_ r n) 0 =
        if wOp m.w = 0xA3 ∨ fld m.w 23 23 = 1 then 0 else Tab.get x.acc (at_ r n) 0) ∧
      (∀ k, (∀ r n, r < rows → n < nv → k ≠ at_ r n) → Tab.get y.acc k 0 = Tab.get x.acc k 0) ∧
      (wOp m.w = 0xA2 → ∀ r n, r < rows → n < nv →
        v.deckBytes p (opData m.opA + r * opPitch m.opA + 4 * n) 4 = natLe 4 (Tab.get x.acc (at_ r n) 0).toNat) ∧
      (∀ b, (wOp m.w = 0xA2 → ∀ r, r < rows → b < opData m.opA + r * opPitch m.opA ∨
        opData m.opA + r * opPitch m.opA + 4 * nv ≤ b) → v.deckBytes p b 1 = s.deckBytes p b 1))

/-- The vector engine starts the instruction at the head of its queue, which leaves it. Under the mask, or over all lanes,
VD takes the operation by lane of VA, VB and VC; an inactive lane keeps its value, or is zero under MZ; no other register,
no mask register and no accumulator changes. The beats it occupies the engine are counted. The vector engine's compares and
mask operations: VCMP writes its mask register's active lanes with the compare, the others keep their value or are zero
under MZ; VMASK writes by SUB 0 to 7. No vector register and no accumulator changes. -/
def Obligations.VectorLanes : Prop :=
  (
  ∀ (s : State) (p : Nat) (v : VeEntry) (rest : List VeEntry) (d : Disp), p < 192 → (s.core p).running = true →
    let w := s.work p
    let e := w.engine
    e.queue = v :: rest → w.blocked v.stamp v.envs = false → e.awaits v.w = false → s.disp? (w.cidOf v.block) = some d →
    wOp v.w ∈ [0x84, 0x85, 0x88, 0x89, 0x8A, 0x8B, 0x8C, 0x8E, 0x8F, 0x90, 0x91] →
    ∃ u : State, exec (.veInstructionStart p) s = .next (u.pumpAll p) ∧
      let y := (u.work p).engine
      let a (l : Nat) : Word := e.lane (vVa v.w) l
      let b (l : Nat) : Word := e.lane (vVb v.w) l
      let c (l : Nat) : Word := e.lane (vVc v.w) l
      let val (l : Nat) : Word :=
        if wOp v.w = 0x84 then (if vSub v.w = 0 then v.sval.truncate 32 else BitVec.ofNat 32 l)
        else if wOp v.w = 0x85 then a ((b l).toNat % 128)
        else if wOp v.w = 0x8E then (if (e.mreg (vVc v.w)).getLsbD l then a l else b l)
        else if vTy v.w = 3 ∧ wOp v.w = 0x88 then a l + b l
        else if vTy v.w = 3 ∧ wOp v.w = 0x89 then a l - b l
        else if vTy v.w = 3 ∧ wOp v.w = 0x8A then a l * b l
        else if vTy v.w = 0 ∧ wOp v.w = 0x88 then fadd32 (a l) (b l)
        else if vTy v.w = 0 ∧ wOp v.w = 0x8A then fmul32 (a l) (b l)
        else arithLane v.w (a l) (b l) (c l)
      y.queue = rest ∧ y.k = e.k ∧ y.accs = e.accs ∧ y.ruq = e.ruq ∧ y.holder = e.holder ∧
      (∀ r l, l < 128 → y.lane r l = if r ≠ vVd v.w then e.lane r l
        else if vMen v.w = false ∨ (e.mreg (vMk v.w)).getLsbD l = true then val l
        else if vMz v.w then 0 else e.lane r l) ∧
      Tab.get (u.core p).counters 55 0 = Tab.get (s.core p).counters 55 0 +
        (if wOp v.w = 0x8F ∨ wOp v.w = 0x90 then 4 else 1)) ∧
  (
  ∀ (s : State) (p : Nat) (v : VeEntry) (rest : List VeEntry) (d : Disp), p < 192 → (s.core p).running = true →
    let w := s.work p
    let e := w.engine
    e.queue = v :: rest → w.blocked v.stamp v.envs = false → e.awaits v.w = false → s.disp? (w.cidOf v.block) = some d →
    (wOp v.w = 0x8D ∧ (vTy v.w = 0 ∧ vSub v.w ≤ 3 ∨ vTy v.w = 3 ∧ vSub v.w ≤ 5)) ∨ (wOp v.w = 0x92 ∧ vSub v.w ≤ 7) →
    ∃ u : State, exec (.veInstructionStart p) s = .next (u.pumpAll p) ∧
      let y := (u.work p).engine
      let a (l : Nat) : Word := e.lane (vVa v.w) l
      let b (l : Nat) : Word := e.lane (vVb v.w) l
      let ka := e.mreg (vVa v.w)
      let kb := e.mreg (vVb v.w)
      let kd := e.mreg (vVd v.w)
      y.queue = rest ∧ y.accs = e.accs ∧ y.v = e.v ∧
      (∀ k, k ≠ vVd v.w → y.mreg k = e.mreg k) ∧
      ∀ l, l < 128 → (y.mreg (vVd v.w)).getLsbD l =
        if wOp v.w = 0x8D then
          (if vMen v.w = false ∨ (e.mreg (vMk v.w)).getLsbD l = true then
            (if vTy v.w = 0 then (fcmpFlag (vSub v.w) (a l) (b l)).getD false
             else match vSub v.w with
              | 0 => a l == b l
              | 1 => a l != b l
              | 2 => BitVec.slt (a l) (b l)
              | 3 => BitVec.sle (a l) (b l)
              | 4 => BitVec.ult (a l) (b l)
              | _ => BitVec.ule (a l) (b l))
           else !vMz v.w && kd.getLsbD l)
        else match vSub v.w with
          | 0 => ka.getLsbD l && kb.getLsbD l
          | 1 => ka.getLsbD l || kb.getLsbD l
          | 2 => ka.getLsbD l != kb.getLsbD l
          | 3 => ka.getLsbD l && !kb.getLsbD l
          | 4 => !ka.getLsbD l
          | 5 => l < v.sval.toNat
          | 6 => if l < 64 then v.sval.getLsbD l else kd.getLsbD l
          | _ => if l < 64 then kd.getLsbD l else v.sval.getLsbD (l - 64))

/-- The vector engine's deck accesses. Lane l of VLD and VST lies at A + 4 x l, or at A + 4 x S x l under SUB 1; lane l of
VGATH and VSCAT at A plus its offset, made a multiple of 4 and clamped to N − 4. Loads write VD's active lanes with the
words there and change no deck byte; stores change no register, store VA's active lanes, the highest lane on a word
standing, and change no other deck byte. -/
def Obligations.VectorDeck : Prop :=
  ∀ (s : State) (p : Nat) (v : VeEntry) (rest : List VeEntry) (d : Disp), p < 192 → (s.core p).running = true → s.memWf →
    let w := s.work p
    let e := w.engine
    e.queue = v :: rest → w.blocked v.stamp v.envs = false → e.awaits v.w = false → s.disp? (w.cidOf v.block) = some d →
    wOp v.w ∈ [0x80, 0x81, 0x82, 0x83] →
    let base := v.sval.toNat % 2 ^ 22
    let bound := v.sval.toNat / 2 ^ 22 % 2 ^ 22
    let off (l : Nat) : Nat := (e.lane (vVb v.w) l).toNat / 4 * 4
    let at_ (l : Nat) : Nat :=
      if wOp v.w ≤ 0x81 then
        (if vSub v.w = 0 then base + 4 * l else ((base : Int) + 4 * signed 16 (v.sval.toNat / 2 ^ 22) * l).toNat)
      else base + (if bound < off l + 4 then bound - 4 else off l)
    let on (l : Nat) : Prop := l < 128 ∧ (vMen v.w = false ∨ (e.mreg (vMk v.w)).getLsbD l = true)
    ∃ u : State, exec (.veInstructionStart p) s = .next (u.pumpAll p) ∧
      let y := (u.work p).engine
      y.queue = rest ∧ y.k = e.k ∧ y.accs = e.accs ∧
      (wOp v.w = 0x80 ∨ wOp v.w = 0x82 → (∀ b, u.deckBytes p b 1 = s.deckBytes p b 1) ∧
        ∀ r l, l < 128 → (r ≠ vVd v.w → y.lane r l = e.lane r l) ∧
          (on l → y.lane (vVd v.w) l = BitVec.ofNat 32 (leNat (s.deckBytes p (at_ l) 4))) ∧
          (¬on l → y.lane (vVd v.w) l = if vMz v.w then 0 else e.lane (vVd v.w) l)) ∧
      (wOp v.w = 0x81 ∨ wOp v.w = 0x83 → y.v = e.v ∧
        (∀ l, on l → (∀ m, on m → l < m → at_ m + 4 ≤ at_ l ∨ at_ l + 4 ≤ at_ m) → u.deckBytes p (at_ l) 4 = natLe 4 (e.lane (vVa v.w) l).toNat) ∧
        ∀ b, (∀ l, on l → b < at_ l ∨ at_ l + 4 ≤ b) → u.deckBytes p b 1 = s.deckBytes p b 1)

/-- VSEED, RED and RGET leaving the vector engine. VSEED sets the 128 generators of the core by the rule of the seed. RED
and RGET enter the reduction unit's queue behind what waits there, RED with VA's lanes and the active mask as they are;
with eight entries there the start waits and a cycle is counted. One draw of a lane for an element under stochastic
rounding: the lane's state takes three xor shifts, the draw is the top bits of the state times a constant, as many as the
control byte says, a state that is not zero stays so, and no other lane's state changes. Under nearest rounding nothing is
drawn. -/
def Obligations.SeedsAndDraws : Prop :=
  (
  ∀ (s : State) (p : Nat) (v : VeEntry) (rest : List VeEntry) (d : Disp), p < 192 → (s.core p).running = true →
    let w := s.work p
    let e := w.engine
    let mask := if vMen v.w then e.mreg (vMk v.w) else BitVec.allOnes 128
    e.queue = v :: rest → w.blocked v.stamp v.envs = false → e.awaits v.w = false → s.disp? (w.cidOf v.block) = some d →
    (wOp v.w = 0x98 → ∃ u : State, exec (.veInstructionStart p) s = .next (u.pumpAll p) ∧
      (u.work p).engine = { e with queue := rest } ∧ ∀ l, l < 128 →
        let z0 := v.sval + BitVec.ofNat 64 (128 * p + l + 1) * 0x9E3779B97F4A7C15
        let z1 := (z0 ^^^ (z0 >>> 30)) * 0xBF58476D1CE4E5B9
        let z2 := (z1 ^^^ (z1 >>> 27)) * 0x94D049BB133111EB
        let z3 := z2 ^^^ (z2 >>> 31)
        genGet p (u.core p).gens l = if z3 = 0 then 1 else z3) ∧
    (wOp v.w = 0x9A → e.ruq.length < 8 → ∃ (u : State) (lanes : List Word), exec (.veInstructionStart p) s = .next (u.pumpAll p) ∧
      (u.work p).engine = { e with queue := rest, ruq := e.ruq ++ [.red v.stamp v.slot v.block v.w lanes mask] } ∧
      lanes.length = 128 ∧ ∀ l, l < 128 → lanes[l]? = some (e.lane (vVa v.w) l)) ∧
    (wOp v.w = 0x9B → e.ruq.length < 8 → ∃ u : State, exec (.veInstructionStart p) s = .next (u.pumpAll p) ∧
      (u.work p).engine = { e with queue := rest, ruq := e.ruq ++ [.get v.stamp v.slot v.block v.w mask] }) ∧
    (wOp v.w = 0x9A ∨ wOp v.w = 0x9B → 8 ≤ e.ruq.length → exec (.veInstructionStart p) s = .next (s.count p 57 1))) ∧
  (
  ∀ (p ctl lane : Nat) (gens : Table DWord),
    (ctlStoch ctl = false → drawRnd p ctl lane gens = (.nearest, gens)) ∧
    (ctlStoch ctl = true → ∃ (gens' : Table DWord) (rnd : Nat), drawRnd p ctl lane gens = (.stochastic (ctlBits ctl) rnd, gens') ∧
      let x0 := genGet p gens lane
      let x1 := x0 ^^^ (x0 >>> 12)
      let x2 := x1 ^^^ (x1 <<< 25)
      let x3 := x2 ^^^ (x2 >>> 27)
      genGet p gens' lane = x3 ∧ (x0 ≠ 0 → x3 ≠ 0) ∧ (∀ l, l ≠ lane → genGet p gens' l = genGet p gens l) ∧
      rnd = (x3 * 0x2545F4914F6CDD1D).toNat / 2 ^ (64 - ctlBits ctl)))

/-- Conversions to and from L formats by the engine. VDECL: element e's binary32 is its code's value at its block's scale.
VCVTL: element e's new code is VA's element encoded at the scale supplied, or at the smallest scale that covers its block's
active elements, which s[SS][31:0] of the group then takes, bits [63:32] kept. In part the model's choice: log entry 103. -/
def Obligations.LConversions : Prop :=
  ∀ (s : State) (p : Nat) (v : VeEntry) (rest : List VeEntry) (d : Disp), p < 192 → (s.core p).running = true →
    let w := s.work p
    let e := w.engine
    let on (i : Nat) : Bool := !vMen v.w || (e.mreg (vMk v.w)).getLsbD i
    let f := lfmt (vFmt v.w)
    let ctl := vCtl v.w
    let given (b : Nat) : Int := signed 8 (v.sval.toNat / 2 ^ (8 * b))
    e.queue = v :: rest → w.blocked v.stamp v.envs = false → e.awaits v.w = false → s.disp? (w.cidOf v.block) = some d →
    ctlStoch ctl = false → vPart v.w < 32 / f.width →
    (wOp v.w = 0x96 → ∃ u : State, exec (.veInstructionStart p) s = .next (u.pumpAll p) ∧
      ∀ i, i < 128 → on i = true → (u.work p).engine.lane (vVd v.w) i =
        toF32 (f.decode (given (i / 32)) (packGet e.v (vVa v.w) f.width (vPart v.w) i))) ∧
    (wOp v.w = 0x95 → ∃ (u : State) (scale : Nat → Int), exec (.veInstructionStart p) s = .next (u.pumpAll p) ∧
      (ctlSupplied ctl = true → ∀ b, scale b = given b) ∧
      (ctlSupplied ctl = false → (∀ b, b < 4 → scale b =
          chooseScale (((List.range 32).filter (fun i => on (32 * b + i))).map (fun i =>
            f32.decode (e.lane (vVa v.w) (32 * b + i)).toNat))) ∧
        ∀ g, w.group? v.slot = some g → g.block = v.block → ∃ g', (u.work p).group? v.slot = some g' ∧
          (g'.s (vSs v.w)).toNat = (g.s (vSs v.w)).toNat / 2 ^ 32 * 2 ^ 32 +
            ((List.range 4).map (fun b => (scale b % 256).toNat * 2 ^ (8 * b))).sum) ∧
      ∀ i, i < 128 → packGet (u.work p).engine.v (vVd v.w) f.width (vPart v.w) i =
        if on i then (f.encode (scale (i / 32)) .nearest (f32.decode (e.lane (vVa v.w) i).toNat)).bits
        else if vMz v.w then 0 else packGet e.v (vVd v.w) f.width (vPart v.w) i)

/-- Every code of an L format but the code 0 with a sign is the code that encoding its own value at its own scale gives,
under either rounding. Where an element's binary32 value is normal, that value converted back under the same scale, rounded
to nearest, gives the code started from. -/
def Obligations.LCodesRoundTrip : Prop :=
  (∀ fmt ∈ [4, 5, 6], ∀ (e : Int) (b : Nat) (r : Rnd), b < 2 ^ (lfmt fmt).width → b ≠ 2 ^ ((lfmt fmt).width - 1) →
    (lfmt fmt).encode e r ((lfmt fmt).decode e b) = ⟨b, false, false⟩) ∧
  ∀ fmt ∈ [4, 5, 6], ∀ (e : Int) (b : Nat), -128 ≤ e → e ≤ 127 → b < 2 ^ (lfmt fmt).width →
    let w : Word := toF32 ((lfmt fmt).decode e b)
    let x : Nat := w.toNat / 2 ^ 23 % 2 ^ 8
    x ≠ 0 → x ≠ 255 → ((lfmt fmt).encode e .nearest (f32.decode w.toNat)).bits = b

/-- The reduction unit takes the entry at the head of its queue. A sum across streams: lane l of the accumulator takes lane
l of the entry, squared under SUMSQ, alone where the accumulator takes a new result (START, or another operation or mode)
and otherwise added to its value, in active lanes only. RGET in the reduction unit: SUB 0 gives the group's s[SS] the
accumulator's value, SUB 4 gives VD's active lanes the values, one per lane or the single value in every lane. -/
def Obligations.Reductions : Prop :=
  (
  ∀ (s : State) (p stamp slot block : Nat) (w : DWord) (lanes : List Word) (mask : BitVec 128) (rest : List RuEntry),
    p < 192 → (s.core p).running = true → (s.work p).engine.ruq = .red stamp slot block w lanes mask :: rest →
    vSub w = 8 ∨ vSub w = 9 → ∃ v : State, exec (.reductionTake p) s = .next v ∧
      let e := (s.work p).engine
      let y := (v.work p).engine
      let a := Tab.get e.accs (vPart w) ⟨0, 0, false, 0, [], []⟩
      let b := Tab.get y.accs (vPart w) ⟨0, 0, false, 0, [], []⟩
      let fresh : Prop := vCtl w % 2 = 1 ∨ a.live = false ∨ a.op ≠ vSub w - 8 ∨ a.mode ≠ 1
      let x (l : Nat) : Word := (lanes[l]?).getD 0
      let term (l : Nat) : Word := if vSub w = 8 then x l else fmul32 (x l) (x l)
      y.ruq = rest ∧ y.v = e.v ∧ y.k = e.k ∧ b.live = true ∧ b.op = vSub w - 8 ∧ b.mode = 1 ∧
      (∀ j, j ≠ vPart w → Tab.get? y.accs j = Tab.get? e.accs j) ∧
      ∀ l, l < 128 → (mask.getLsbD l = false → Tab.get b.vals l 0 = Tab.get a.vals l 0) ∧
        (mask.getLsbD l = true → fresh → Tab.get b.vals l 0 = term l) ∧
        (mask.getLsbD l = true → ¬fresh → Tab.get b.vals l 0 = fadd32 (Tab.get a.vals l 0) (term l))) ∧
  (
  ∀ (s : State) (p stamp slot block : Nat) (w : DWord) (mask : BitVec 128) (rest : List RuEntry),
    p < 192 → (s.core p).running = true → (s.work p).engine.ruq = .get stamp slot block w mask :: rest →
    let e := (s.work p).engine
    let a := Tab.get e.accs (vPart w) ⟨0, 0, false, 0, [], []⟩
    ∃ v : State, exec (.reductionTake p) s = .next v ∧ (v.work p).engine.ruq = rest ∧ (v.work p).engine.accs = e.accs ∧
      (vSub w = 0 → ∀ g, (s.work p).group? slot = some g → g.block = block → ∃ g', (v.work p).group? slot = some g' ∧
        g'.s (vSs w) = BitVec.ofNat 64 (Tab.get a.vals 0 0).toNat ∧ (∀ k, k ≠ vSs w → g'.s k = g.s k) ∧
        ∀ r l, g'.t r l = g.t r l) ∧
      (vSub w = 4 → ∀ l, l < 128 → mask.getLsbD l = true →
        (v.work p).engine.lane (vVd w) l = Tab.get a.vals (if a.mode = 1 then l else 0) 0))

/-- BLOCK_PLACE: of the partition's dispatches that may place a block, the one of the highest class, and the earliest
started of that class, places its next block on the lowest core that can take it: one that holds no other context's work,
with a free block slot and enough free group slots, group-registers and consecutive deck granules. The block stands in the
lowest free block slot (the model's choice, log entry 124) and the lowest free group slots, its groups at the program's
entry with every lane active and every register zero; its deck granules lie below the stash head's banks and apart from
those of other blocks, and one last held by another context reads zero; a block without deck bytes gets a granule's address
all the same (the model's choice, log entry 125). The core passes to the dispatch's context: where another context's work
was on it last, every accumulator, vector register and mask is zero and the generators take their first state. The
dispatch's next block is the one after. While the block fits on no core, or no dispatch may place one, nothing is placed.
BLOCK_END: a block all of whose groups have ended and whose work has completed leaves its core: its slot and deck granules
are free, the vector engine it holds is freed, and its dispatch counts it. STASH_RESERVATION_GRANT: a dispatch that waits
for its reservation takes as many free granules as its program's stash peak needs, whose segments read as unwritten, and
may then place its blocks; with fewer free, or while its queue holds a record or owes 64, it goes on waiting. -/
def Obligations.BlocksOnCores : Prop :=
  (
  ∀ (s : State) (n : Nat), n < 16 → s.memWf → (s.ptn n).halted = false →
    let places (e : Disp) : Prop := e.status = 0 ∧ e.granted = true ∧ e.next < e.blocks ∧
      ((s.ptn n).saved = [] ∨ s.classOf e.cid = 0)
    ((∀ e ∈ (s.ptn n).disps, ¬places e) → exec (.blockPlace n) s = .next s) ∧
    ∀ (d : Disp) (pr : Prog), d ∈ (s.ptn n).disps → places d → d.cid.ptn = n → Tab.get? (s.ptn n).progs d.prog = some pr →
    (∀ e ∈ (s.ptn n).disps, places e → e ≠ d → s.classOf d.cid < s.classOf e.cid ∨
      s.classOf d.cid = s.classOf e.cid ∧ s.startOf d.cid < s.startOf e.cid) →
    let a := (pr.deckBytes + 16383) / 16384
    let fits (p : Nat) : Prop := (s.core p).running = true ∧
      ((s.work p).ctx = [d.ctx] ∨ (s.work p).blocks = [] ∧ ∀ c, (s.work p).engine.holder ≠ .command c) ∧
      (s.work p).blocks.length < 16 ∧ pr.gpb ≤ ((List.range 64).filter (fun k => ((s.work p).group? k).isNone)).length ∧
      s.regsUsed (s.work p) + 8 * ((pr.nreg + 7) / 8) * pr.gpb ≤ 4096 ∧
      ∃ g, g + a ≤ s.blockGranules n ∧ ∀ x ∈ (s.work p).blocks, a = 0 ∨ x.2.granules = 0 ∨ g + a ≤ x.2.deckLo / 16384 ∨
        x.2.deckLo / 16384 + x.2.granules ≤ g
    ((∀ p ∈ s.coresOf n, ¬fits p) → exec (.blockPlace n) s = .next s) ∧
    ∀ p ∈ s.coresOf n, fits p → (∀ q ∈ s.coresOf n, q < p → ¬fits q) →
      ∃ (v : State) (b lo : Nat) (slots : List Nat), exec (.blockPlace n) s = .next v ∧
      let w := s.work p
      let y := v.work p
      y.ctx = [d.ctx] ∧ Tab.get? w.blocks b = none ∧ (∀ j, j < b → (Tab.get? w.blocks j).isSome = true) ∧
      Tab.get? y.blocks b = some ⟨d.cid, d.next, lo, a, slots⟩ ∧
      slots = ((List.range 64).filter (fun k => (w.group? k).isNone)).take pr.gpb ∧
      (∀ j k, slots[j]? = some k → ∃ g, y.group? k = some g ∧ g.block = b ∧ g.index = j ∧ g.pc = pr.entry ∧
        g.active = BitVec.allOnes 32 ∧ g.exited = 0 ∧ g.stack = [] ∧ (∀ r l, g.t r l = 0) ∧ ∀ r, g.s r = 0) ∧
      lo % 16384 = 0 ∧ (0 < a → lo + 16384 * a ≤ 16384 * s.blockGranules n) ∧
      (∀ j x, Tab.get? w.blocks j = some x → 0 < a → 0 < x.granules →
        lo / 16384 + a ≤ x.deckLo / 16384 ∨ x.deckLo / 16384 + x.granules ≤ lo / 16384) ∧
      (∀ q, lo ≤ q → q < lo + 16384 * a →
        v.deckBytes p q 1 = if Tab.get? w.granuleOwner (q / 16384) = some d.ctx then s.deckBytes p q 1 else [0]) ∧
      ((s.core p).lastCtx = [d.ctx] ∨ (s.core p).lastCtx = [] →
        y.engine = w.engine ∧ y.arrays = w.arrays ∧ (v.core p).gens = (s.core p).gens) ∧
      (¬((s.core p).lastCtx = [d.ctx] ∨ (s.core p).lastCtx = []) →
        (∀ k, (y.array k).acc = []) ∧ y.engine.v = [] ∧ y.engine.k = [] ∧ y.engine.accs = [] ∧
          ∀ l, genGet p (v.core p).gens l = genSeed p 0 l)) ∧
  (
  ∀ (s : State) (p b : Nat) (k : Block) (d : Disp), p < 192 → b < 16 → Tab.get? (s.work p).blocks b = some k →
    (∀ e ∈ (s.work p).groups, e.2.block ≠ b) → (s.work p).blockBusy b = false → s.disp? k.cid = some d →
    ∃ v : State, exec (.blockEnd p b) s = .next v ∧
      let w := s.work p
      let y := v.work p
      y.groups = w.groups ∧ Tab.get? y.blocks b = none ∧ (∀ j, j ≠ b → Tab.get? y.blocks j = Tab.get? w.blocks j) ∧
      y.engine.holder = (if w.engine.holder = .block b then .nobody else w.engine.holder) ∧ y.deck = w.deck ∧
      v.disp? k.cid = some { d with ended := d.ended + 1 } ∧ ∀ q, q ≠ p → v.core q = s.core q) ∧
  (
  ∀ (s : State) (n q e : Nat) (d : Disp) (pr : Prog), n < 16 → q < 64 → (s.ptn n).halted = false →
    (⟨n, q, e⟩ : Cid) ∈ (s.ptn n).waitResv → s.disp? ⟨n, q, e⟩ = some d → s.progOf ⟨n, q, e⟩ = some pr → d.status = 0 →
    let need := (pr.stashPeak * 4096 + 2097151) / 2097152
    let free := (List.range (s.stashSize n)).filter (fun g => (s.ptn n).resv.all (fun r => !r.granules.contains g))
    let owed := ((s.ptn n).cmds.filter (fun c => c.queue == q && (s.ptn n).started n c)).length
    let held := (Tab.get? (s.ptn n).queues q).all (fun x => !x.held.isEmpty)
    (free.length < need ∨ 64 ≤ owed ∨ held = true → exec (.stashReservationGrant n q e) s = .next s) ∧
    (need ≤ free.length → owed < 64 → held = false → ∃ (v : State) (gs : List Nat), exec (.stashReservationGrant n q e) s = .next v ∧
      gs.length = need ∧ gs.Nodup ∧ (∀ g ∈ gs, g ∈ free) ∧ (v.ptn n).resv = (s.ptn n).resv ++ [⟨⟨n, q, e⟩, gs⟩] ∧
      v.disp? ⟨n, q, e⟩ = some { d with granules := gs, granted := true } ∧ (⟨n, q, e⟩ : Cid) ∉ (v.ptn n).waitResv ∧
      (∀ seg, seg / 32 ∈ gs → v.segWritten n seg = false) ∧
      ∀ seg, seg / 32 ∉ gs → v.segWritten n seg = s.segWritten n seg))

/-- PREEMPT: once every engine of the partition stands at a tile boundary, a trump command that cannot start for lack of
cores takes every block of the partition's other commands off its cores into the save area, keeping the trump blocks;
nothing is pre-empted for any other command. PREEMPTED_WORK_RESUME gives saved work back once no trump command runs or
waits to start, the cores hold no work and no unit of the save area is lost: its groups, blocks and queued instructions
stand as they were saved; the streaks stay those of the arrays. In part the model's choice: log entry 106. -/
def Obligations.PreemptionAndResume : Prop :=
  ∀ (s : State) (n : Nat), n < 16 → (s.ptn n).halted = false →
    let x := s.ptn n
    (∀ (q e : Nat) (k : Cmd), q < 64 → s.cmd? ⟨n, q, e⟩ = some k →
      (s.classOf ⟨n, q, e⟩ ≠ 0 → exec (.preempt n q e) s = .next s) ∧
      (s.classOf ⟨n, q, e⟩ = 0 → s.starved ⟨n, q, e⟩ k = true → x.saved = [] →
        (∀ p ∈ s.coresOf n, (s.work p).atBoundary = true) → ∃ v : State, exec (.preempt n q e) s = .next v ∧
          ∀ p ∈ s.coresOf n,
            (∀ b, Tab.get? (v.work p).blocks b = (Tab.get? (s.work p).blocks b).filter (fun _ => s.trumpBlock (s.work p) b)) ∧
            ((∃ e ∈ (s.work p).blocks, s.trumpBlock (s.work p) e.1 = false) → ∃ z ∈ (v.ptn n).saved, z.core = p ∧
              ∀ b, Tab.get? z.work.blocks b =
                (Tab.get? (s.work p).blocks b).filter (fun _ => !s.trumpBlock (s.work p) b)))) ∧
    ((∀ k ∈ x.cmds, s.classOf ⟨n, k.queue, k.entry⟩ = 0 → k.stage ≠ .ready ∧ k.stage ≠ .running) →
      (∀ z ∈ x.saved, (s.work z.core).blocks = [] ∧ (s.work z.core).engine.holder = .nobody ∧ z.work.ctx ≠ []) →
      (x.saved.map (·.core)).Nodup → (∀ f ∈ x.save, s.lostIn n (f * frameBytes) frameBytes = []) →
      ∃ v : State, exec (.preemptedWorkResume n) s = .next v ∧ (v.ptn n).saved = [] ∧ ∀ z ∈ x.saved,
        (v.work z.core).groups = z.work.groups ∧ (v.work z.core).blocks = z.work.blocks ∧
        (∀ i, i < 4 → (v.work z.core).array i =
          { z.work.array i with streak := ((s.work z.core).array i).streak }) ∧ (v.work z.core).engine = z.work.engine ∧
        (v.work z.core).chans = z.work.chans ∧ (v.work z.core).ctx = z.work.ctx)

/-- DOORBELL_WRITE: the line's two words are in host memory afterwards where no registered queue has its doorbell there. A
registered queue whose doorbell the line is takes CQ_HEAD, and SQ_TAIL where it names at most a ring of entries; else it
stops and DOORBELL_INVALID is raised. ENTRY_READ: the queue manager takes the entry at SQ_HEAD of a registered queue that
is neither stopped nor being revoked or destroyed and whose partition runs: SQ_HEAD moves on by one, the command stands
behind those read before it with the entry's 64 bytes, and the fence its SIGNAL names counts one more pending command, in
16 bits (log entry 130), and is not signalled. Entries whose waits name this package are meant, and a doorbell line that is
as it was last read (log entry 131). With no entry waiting nothing happens. In part the model's choice: log entries 9, 63
and 66. -/
def Obligations.RingsRead : Prop :=
  (
  ∀ (s : State) (line : Nat) (tail head : Word), s.memWf → 64 * line + 64 ≤ hostMemoryBytes →
    let line8 : HostWrite := ⟨64 * line, natLe 4 tail.toNat ++ natLe 4 head.toNat⟩
    (s.touched line8 = [] → ∃ v : State, exec (.doorbellWrite [] line tail head) s = .next v ∧
      v.hostRead (64 * line) 8 = natLe 4 tail.toNat ++ natLe 4 head.toNat ∧
      (∀ a, a < 64 * line ∨ 64 * line + 8 ≤ a → v.hostRead a 1 = s.hostRead a 1) ∧ v.ptns = s.ptns ∧ v.cores = s.cores) ∧
    (∀ (n q : Nat) (x : Queue), s.touched line8 = [(n, q)] → s.queue? n q = some x → x.doorbell = 64 * line →
      x.held = [] → x.dying = 0 → q ≠ 0 → ∃ v : State, exec (.doorbellWrite [] line tail head) s = .next v ∧
      (let y := { x with cqHead := head, seen := BitVec.ofNat 64 (tail.toNat + 2 ^ 32 * head.toNat) }
       v.queue? n q = some (if 2 ^ x.sqLog2 < (tail - x.sqHead).toNat then { y with stopped := true }
         else { y with sqTail := tail })) ∧
      v.dealer.events.length = s.dealer.events.length + (if 2 ^ x.sqLog2 < (tail - x.sqHead).toNat then 1 else 0) ∧
      (2 ^ x.sqLog2 < (tail - x.sqHead).toNat → ∃ i a b, v.dealer.events = s.dealer.events ++ [⟨i, .doorbellInvalid, a, b⟩]))) ∧
  (
  ∀ (s : State) (n q : Nat) (x : Queue), n < 16 → q < 64 → s.queue? n q = some x →
    x.seen.toNat = leAt (s.hostRead x.doorbell 8) 0 8 →
    let raw := s.hostRead (x.sqBase + 64 * (x.sqHead.toNat % 2 ^ x.sqLog2)) 64
    let sig := s.signalOf n q x (s.dealer.seq + 1) raw
    (x.sqHead = x.sqTail → exec (.entryRead n q) s = .next s) ∧
    (s.mayRead n q x = true → (∀ i ∈ sig, s.slotFree n i = true) → eRemote raw 0 = false → eRemote raw 1 = false →
      ∃ (v : State) (k : Cmd), exec (.entryRead n q) s = .next v ∧
        (v.ptn n).cmds = (s.ptn n).cmds ++ [k] ∧ k.queue = q ∧ k.entry = x.sqHead.toNat ∧ k.raw = raw ∧
        k.seq = s.dealer.seq + 1 ∧ k.stage = .read ∧ k.status = 0 ∧
        v.queue? n q = some { x with sqHead := x.sqHead + 1, slotWait := false } ∧
        (∀ i f, Tab.get? (s.ptn n).fences i = some f → Tab.get? (v.ptn n).fences i =
          some (if i ∈ sig then { f with pending := (f.pending + 1) % 65536, signalled := false } else f))))

/-- HEADER_CHECK: a command whose turn has come waits next where its header is good, else it ends with the header's status.
BODY_CHECK: once both waits are over and no wait found an error, a command whose body is good is ready to start with the
structures it named as its arguments; one whose body is bad ends with the body's status; one whose waits ended in an error
ends with theirs. While a wait is open nothing happens. In part the model's choice: log entries 52 and 54. -/
def Obligations.CommandChecks : Prop :=
  (
  ∀ (s : State) (n q e : Nat) (k : Cmd) (x : Queue), n < 16 → q < 64 → s.cmd? ⟨n, q, e⟩ = some k → s.queue? n q = some x →
    k.stage = .read → (s.ptn n).turnOf n k = true → (s.ptn n).halted = false →
    let raw := k.raw
    let op := leAt raw 0 1
    ∃ v : State, exec (.headerCheck n q e) s = .next v ∧
      v.cmd? ⟨n, q, e⟩ = some (if s.headerStatus n x k = 0 then { k with stage := .waiting }
        else { k with stage := .ended, status := s.headerStatus n x k }) ∧
      (leAt raw 0 4 / 2 ^ 13 ≠ 0 → s.headerStatus n x k = 0x0101) ∧
      (leAt raw 0 4 / 2 ^ 13 = 0 → leAt raw 20 4 = 0 → q ≠ 0 → (op = 0 ∨ 0x0B < op) → s.headerStatus n x k = 0x0101) ∧
      (leAt raw 0 4 / 2 ^ 13 = 0 → leAt raw 20 4 = 0 → leAt raw 8 4 = 0 → leAt raw 12 4 = 0 → leAt raw 16 4 = 0 →
        (if q = 0 then 0xE0 ≤ op ∧ op ≤ 0xEB else 1 ≤ op ∧ op ≤ 0x0B) → s.headerStatus n x k = 0)) ∧
  (
  ∀ (s : State) (n q e : Nat) (k : Cmd) (x : Queue), n < 16 → q < 64 → s.cmd? ⟨n, q, e⟩ = some k → s.queue? n q = some x →
    k.stage = .waiting → (s.ptn n).halted = false →
    let f := s.checkBody n x.ctx k
    (s.waitStatus n k = none → exec (.bodyCheck n q e) s = .next s) ∧
    (∀ st, s.waitStatus n k = some st → st ≠ 0 → ∃ v : State, exec (.bodyCheck n q e) s = .next v ∧
      v.cmd? ⟨n, q, e⟩ = some { k with stage := .ended, status := st }) ∧
    (s.waitStatus n k = some 0 → f.s.cmd? ⟨n, q, e⟩ = some k → ∃ v : State, exec (.bodyCheck n q e) s = .next v ∧
      (f.status ≠ 0 → v.cmd? ⟨n, q, e⟩ = some { k with stage := .ended, status := f.status }) ∧
      (f.status = 0 → ∃ names, v.cmd? ⟨n, q, e⟩ = some { k with stage := .ready, args := f.bytes, names := names })))

/-- A command that cannot start now, or whose opcode is another row's, is not started by a row: nothing changes (the
model's choice, log entry 2). One that can start has its header and body checked, its turn in its queue has come, its
partition runs, and no command that can start has a higher class. BARRIER and MAP. A BARRIER that may start ends at once. A
MAP whose pages meet no mapping ends at once: the entry of page i of the range, of 2 MiB or 64 KiB as the object's pages
are, names page FIRST + i of the object with the command's rights, and no address outside the range is mapped anew; over an
address already mapped it maps nothing and ends with MAP_CONFLICT. UNMAP: a range that splits a mapped page removes nothing
and ends with MAP_CONFLICT; otherwise no address of the range is mapped afterwards, every other mapping stays, and the
command goes on running. -/
def Obligations.Mappings : Prop :=
  (
  (∀ e ∈ ([(.progLoad, 1), (.dispatch, 2), (.copy, 3), (.fill, 4), (.accumulate, 5), (.fix, 8), (.barrier, 9),
      (.map, 10), (.unmap, 11)] : List ((Nat → Nat → Nat → Instr) × Nat)),
    ∀ (s : State) (n q k : Nat), n < 16 → q < 64 → s.starting n q k e.2 = none → exec (e.1 n q k) s = .next s) ∧
  ∀ (s : State) (n q e op : Nat) (k : Cmd) (x : Queue), s.starting n q e op = some (k, x) →
    s.cmd? ⟨n, q, e⟩ = some k ∧ s.queue? n q = some x ∧ k.stage = .ready ∧ leAt k.raw 0 1 = op ∧ (s.ptn n).halted = false ∧
      (∀ o ∈ (s.ptn n).cmds, o.queue = q → o.seq < k.seq → (s.ptn n).started n o = true) ∧
      (∀ o ∈ (s.ptn n).cmds, s.canStart n o = true → (s.ptn n).cls q ≤ (s.ptn n).cls o.queue)) ∧
  (
  ∀ (s : State) (n q e : Nat) (k : Cmd) (x : Queue), n < 16 → q < 64 →
    let ended (v : State) (st : Nat) : Prop := ∃ k', v.cmd? ⟨n, q, e⟩ = some k' ∧ k'.stage = .ended ∧ k'.status = st
    (s.starting n q e 9 = some (k, x) → ∃ v : State, exec (.barrier n q e) s = .next v ∧ ended v 0) ∧
    (∀ (o : MemObj) (t : Ctx), s.starting n q e 10 = some (k, x) → s.obj? n (eBody k.raw 8 4) = some o →
      Tab.get? s.ctxs x.ctx.id = some t →
      let size := if o.big then 2097152 else 65536
      let leaf (y : Ctx) : Table DWord := if o.big then y.l3 else y.l4
      let other (y : Ctx) : Table DWord := if o.big then y.l4 else y.l3
      let va := eBody k.raw 0 8
      let count := eBody k.raw 16 4
      let rights := eBody k.raw 20 4
      let page (i : Nat) : Nat := (o.bases[eBody k.raw 12 4 + i]?).getD 0
      va % size = 0 →
      ((∃ i, i < count ∧ t.mapped (va + i * size) size = true) → ∃ v : State, exec (.map n q e) s = .next v ∧
        ended v 0x0108 ∧ v.ctxs = s.ctxs) ∧
      ((∀ i, i < count → t.mapped (va + i * size) size = false) → ∃ (v : State) (t' : Ctx), exec (.map n q e) s = .next v ∧
        ended v 0 ∧ Tab.get? v.ctxs x.ctx.id = some t' ∧ other t' = other t ∧
        (∀ i, i < count → Tab.get? (leaf t') (va / size + i) = some (pteOf (rights % 2 == 1) (rights / 2 % 2 == 1) o.host (page i)
          (eBody k.raw 8 4 % 2 ^ 20))) ∧
        ∀ j, (j < va / size ∨ va / size + count ≤ j) → Tab.get? (leaf t') j = Tab.get? (leaf t) j))) ∧
  (
  ∀ (s : State) (n q e : Nat) (k : Cmd) (x : Queue) (t : Ctx), n < 16 → q < 64 → s.starting n q e 11 = some (k, x) →
    Tab.get? s.ctxs x.ctx.id = some t →
    let lo := eBody k.raw 0 8
    let hi := lo + eBody k.raw 8 4 * 65536
    let cut (size : Nat) (l : Table DWord) : Prop := ∃ e ∈ l, pteValid e.2 = true ∧ size * e.1 < hi ∧ lo < size * e.1 + size ∧
      ¬(lo ≤ size * e.1 ∧ size * e.1 + size ≤ hi)
    let split := cut 2097152 t.l3 ∨ cut 65536 t.l4
    (split → ∃ (v : State) (k' : Cmd), exec (.unmap n q e) s = .next v ∧ v.ctxs = s.ctxs ∧ v.cmd? ⟨n, q, e⟩ = some k' ∧
      k'.stage = .ended ∧ k'.status = 0x0108) ∧
    (¬split → ∃ (v : State) (t' : Ctx) (k' : Cmd), exec (.unmap n q e) s = .next v ∧ Tab.get? v.ctxs x.ctx.id = some t' ∧
      v.cmd? ⟨n, q, e⟩ = some k' ∧ k'.stage = .running ∧
      (∀ j, (lo ≤ 65536 * j ∧ 65536 * j < hi → Tab.get? t'.l4 j = none) ∧
        (¬(lo ≤ 65536 * j ∧ 65536 * j < hi) → Tab.get? t'.l4 j = Tab.get? t.l4 j)) ∧
      ∀ j, (lo ≤ 2097152 * j ∧ 2097152 * j < hi → Tab.get? t'.l3 j = none) ∧
        (¬(lo ≤ 2097152 * j ∧ 2097152 * j < hi) → Tab.get? t'.l3 j = Tab.get? t.l3 j)))

/-- PROG_LOAD, where no unit of memory is corrupt: an image whose addresses translate, with pages and an index free for it,
becomes a program of the command's context with the load record's properties, and the command ends with its handle as INFO;
one that does not translate ends with the translation's status, and one without pages with OUT_OF_MEMORY, and no program is
made. DISPATCH: where every generation binding holds the dispatch runs with them, no block placed yet; a program without
stash may place blocks at once; one with stash does so with the granules its stash peak needs where as many are free, and
waits for its reservation where they are not. Where a binding fails the command ends with ILLEGAL_STATE and nothing is
bound. In part the model's choice: log entry 53. -/
def Obligations.ProgramsAndDispatches : Prop :=
  (
  ∀ (s : State) (n q e : Nat) (k : Cmd) (x : Queue), n < 16 → q < 64 → s.starting n q e 1 = some (k, x) →
    s.flips = [] → s.poison = [] →
    let s1 := s.began n k
    let f := s1.readVa n x.ctx (eBody k.raw 0 8) (eBody k.raw 8 4)
    let pages := s1.computePages n 65536 ((eBody k.raw 8 4 + 65535) / 65536)
    let fails (st : Nat) : Prop := ∃ (v : State) (k' : Cmd), exec (.progLoad n q e) s = .next v ∧
      (v.ptn n).progs = (s.ptn n).progs ∧ v.cmd? ⟨n, q, e⟩ = some k' ∧ k'.stage = .ended ∧ k'.status = st
    (f.status ≠ 0 → fails f.status) ∧
    (f.status = 0 → pages = none → fails 0x0204) ∧
    (f.status = 0 → (∃ i, i < 1048576 ∧ Tab.get? (s.ptn n).progs i = none) → ∀ (s2 : State) (l : List Nat),
      pages = some (s2, l) → ∃ (v : State) (i : Nat) (pr : Prog) (k' : Cmd), exec (.progLoad n q e) s = .next v ∧
        i < 1048576 ∧ Tab.get? (s.ptn n).progs i = none ∧ Tab.get? (v.ptn n).progs i = some pr ∧
        pr.ctx = x.ctx ∧ pr.image = f.bytes ∧ pr.frames = l ∧ pr.nreg = leAt k.args 1 1 ∧
        pr.gpb = leAt k.args 0 4 / 2 ^ 16 % 2 ^ 5 + 1 ∧ pr.deckBytes = leAt k.args 4 4 ∧ pr.stashPeak = leAt k.args 8 4 ∧
        pr.codeBytes = leAt k.args 12 4 ∧ pr.entry = leAt k.args 16 4 ∧
        v.cmd? ⟨n, q, e⟩ = some k' ∧ k'.stage = .ended ∧ k'.status = 0 ∧
        k'.info = BitVec.ofNat 64 (i + 2 ^ 20 * Tab.get (s.ptn n).pGens i 0 + 2 ^ 28 * 4))) ∧
  (
  ∀ (s : State) (n q e : Nat) (k : Cmd) (x : Queue), n < 16 → q < 64 → s.starting n q e 2 = some (k, x) →
    (∀ d ∈ (s.ptn n).disps, d.cid ≠ ⟨n, q, e⟩) →
    let d := k.args
    let words := (List.range (leAt d 4 4 / 2 ^ 24 % 2 ^ 4)).map (fun b => leAt d (64 + 8 * b) 8)
    let bound := (s.began n k).bindAll n x.ctx x.owner words
    let free := (List.range (s.stashSize n)).filter (fun g => (s.ptn n).resv.all (fun r => !r.granules.contains g))
    (bound = none → ∃ (v : State) (k' : Cmd), exec (.dispatch n q e) s = .next v ∧ v.cmd? ⟨n, q, e⟩ = some k' ∧
      k'.stage = .ended ∧ k'.status = 0x0107 ∧ (v.ptn n).objs = (s.ptn n).objs ∧ (v.ptn n).disps = (s.ptn n).disps) ∧
    (∀ (s1 : State) (bs : List Bound) (pr : Prog), bound = some (s1, bs) →
      Tab.get? (s.ptn n).progs (leAt d 0 4 % 2 ^ 20) = some pr →
      let need := (pr.stashPeak * 4096 + 2097151) / 2097152
      ∃ (v : State) (y : Disp), exec (.dispatch n q e) s = .next v ∧ v.disp? ⟨n, q, e⟩ = some y ∧ y.ctx = x.ctx ∧
        y.prog = leAt d 0 4 % 2 ^ 20 ∧ y.blocks = leAt d 4 4 % 2 ^ 24 ∧ y.next = 0 ∧ y.ended = 0 ∧ y.status = 0 ∧
        y.bounds = bs ∧ (pr.stashPeak = 0 → y.granted = true ∧ y.granules = []) ∧
        (pr.stashPeak ≠ 0 → need ≤ free.length → y.granted = true ∧ y.granules.length = need ∧ y.granules.Nodup ∧
          ∀ g ∈ y.granules, g ∈ free) ∧
        (pr.stashPeak ≠ 0 → free.length < need → y.granted = false ∧ (⟨n, q, e⟩ : Cid) ∈ (v.ptn n).waitResv)))

/-- COPY, FILL and ACCUMULATE within this package's memory: where every address of the views translates and no unit read is
uncorrectable, the bytes that the command's rule gives, computed from what memory holds, stand at the destination's places,
and the move awaits no answer. In part the model's choice: log entries 64 and 114. -/
def Obligations.MemoryMoves : Prop :=
  ∀ e ∈ ([(.copy, 3), (.fill, 4), (.accumulate, 5)] : List ((Nat → Nat → Nat → Instr) × Nat)),
  ∀ (s : State) (n q j : Nat) (k : Cmd) (x : Queue), n < 16 → q < 64 → s.memWf → s.starting n q j e.2 = some (k, x) →
    s.flips = [] → s.poison = [] → (∀ m ∈ (s.ptn n).moves, m.cid ≠ ⟨n, q, j⟩) → k.status = 0 →
    (∀ p, (s.work p).farWait = [] ∧ ∀ r ∈ (s.work p).slots, r.2.act.isMover = false) →
    let job := moveJob k
    let s1 := (s.began n k).noteView ⟨n, q, j⟩ x.ctx job.dst
    let place (a : Nat) : Option Place := s1.placeOf (whoOf n x.ctx) a
    let reads := job.srcs ++ (if job.old then [job.dst] else [])
    let sees (got : Table Byte) : Prop := ∀ t ∈ reads, ∀ a ∈ t.addrs, ∃ pl, place a = some pl ∧
      Tab.get? got (spaceKey 0 a) = some (s.byteAt pl)
    job.dst.space = 0 → (∀ t ∈ reads, t.space = 0) →
    (∀ t ∈ job.srcs, s1.xlFails (whoOf n x.ctx) ⟨true, false⟩ t.addrs = none) →
    s1.xlFails (whoOf n x.ctx) ⟨job.dst.acc, true⟩ job.dst.addrs = none →
    (∀ t ∈ job.dst :: reads, ∀ a ∈ t.addrs, ∃ pl, place a = some pl ∧ pl.isRemote = false) →
    (∀ a ∈ job.dst.addrs, ∀ b ∈ job.dst.addrs, place a = place b → a = b) →
    ∃ (v : State) (got : Table Byte), exec (e.1 n q j) s = .next v ∧ sees got ∧
      let of (t : Tensor) : Bytes := spaceBytes got t.space
      let w := eBody k.raw 16 4
      let bytes : Bytes :=
        if e.2 = 3 then (match job.srcs with
          | a :: _ => ((s1.copyResult a job.dst (bits w 17 0) (bit w 18) (of a) (of job.dst)).bytes)
          | [] => [])
        else if e.2 = 4 then fillBytes job.dst (of job.dst)
        else (accBytes (job.srcs.map (fun t => (t, of t))) job.dst (bits w 15 8) (of job.dst)).1.bytes
      ((∀ b ∈ bytes, b.1 ∈ job.dst.addrs) →
        (∀ (a : Nat) (b : Byte) (pl : Place), Tab.get? bytes a = some b → place a = some pl → v.byteAt pl = b)) ∧
      ∃ m, v.move? ⟨n, q, j⟩ = some m ∧ m.writing = true ∧ v.moveBusy m = false

/-- UPDATE, where no unit of memory is corrupt: one that may start and whose structures are good holds a reader on the
object's current generation n, marks the object as updating, and waits for slot (n + 1) mod G to drain; one whose
structures are bad ends with their status, and one whose slot counts 65,535 readers with ILLEGAL_STATE. SLOT_DRAINED: while
that slot has a reader or a core it needs is taken nothing happens; else the update leaves the wait with its generation not
yet published, or it has ended with a failing status. PUBLISH: once the own shard is computed and every unit of the peers
has arrived, the object's generation is n + 1, the table's STEP in memory is one more, a GENERATION event names n + 1, and
the command's results are the units stepped and the new generation; where the table cannot be written the update ends with
the translation's status and the generation stays. UPDATE_PEER_TIMEOUT: an update whose peers' units are missing ends with
UPDATE_PEER_TIMEOUT and the number of units that came as INFO; the generation stays and its slot is closed. In part the
model's choice: log entries 17, 58, 59, 60, 61 and 62. -/
def Obligations.Updates : Prop :=
  (
  ∀ (s : State) (n q e : Nat), n < 16 → q < 64 →
    (∀ (k : Cmd) (x : Queue), s.starting n q e 6 = some (k, x) → (∀ u ∈ (s.ptn n).updates, u.cid ≠ ⟨n, q, e⟩) →
      s.flips = [] → s.poison = [] →
      let f := (s.began n k).checkUpdate n x.ctx k
      let i := leAt f.bytes 0 8
      let ended (st : Nat) : Prop := ∃ (v : State) (k' : Cmd), exec (.update n q e) s = .next v ∧ v.cmd? ⟨n, q, e⟩ = some k' ∧
        k'.stage = .ended ∧ k'.status = st ∧ (v.ptn n).objs = (s.ptn n).objs
      (f.status ≠ 0 → ended f.status) ∧
      ∀ o, f.status = 0 → Tab.get? (s.ptn n).objs i = some o → o.gen % max 1 o.slots.length < o.slots.length →
        let r := (o.slot (o.gen % max 1 o.slots.length)).readers
        (r = 65535 → ended 0x0107) ∧
        (r ≠ 65535 → ∃ (v : State) (u : Upd) (o' : MemObj), exec (.update n q e) s = .next v ∧
          v.upd? ⟨n, q, e⟩ = some u ∧ u.obj = i ∧ u.gen = o.gen ∧ u.stage = .draining ∧ u.published = false ∧
          Tab.get? (v.ptn n).objs i = some o' ∧ o'.updating = true ∧ o'.gen = o.gen ∧
          (o'.slot (o.gen % max 1 o.slots.length)).readers = r + 1)) ∧
    (∀ (u : Upd) (k : Cmd) (o : MemObj), s.upd? ⟨n, q, e⟩ = some u → s.cmd? ⟨n, q, e⟩ = some k →
      Tab.get? (s.ptn n).objs u.obj = some o → u.stage = .draining → k.stage = .running → (s.ptn n).halted = false →
      (∀ m, ∀ z ∈ (s.ptn m).updates, z.cid.ptn = m) →
      let r := (o.slot ((u.gen + 1) % max 1 o.slots.length)).readers
      let cores := s.coresFree n q u.ctx (u.last - u.first) (tbSide (updArgs k.args).table != 0)
      (r ≠ 0 ∨ cores = false → exec (.slotDrained n q e) s = .next s) ∧
      (r = 0 → cores = true → ∃ v : State, exec (.slotDrained n q e) s = .next v ∧
        ((∃ u', v.upd? ⟨n, q, e⟩ = some u' ∧ u'.stage ≠ .draining ∧ u'.gen = u.gen ∧ u'.published = u.published ∧
            ∃ o', Tab.get? (v.ptn n).objs u.obj = some o' ∧ o'.gen = o.gen) ∨
          ∃ k', v.cmd? ⟨n, q, e⟩ = some k' ∧ k'.stage = .ended ∧ k'.status ≠ 0)))) ∧
  (
  ∀ (s : State) (n q e : Nat) (u : Upd) (k : Cmd) (o : MemObj), n < 16 → q < 64 → s.upd? ⟨n, q, e⟩ = some u →
    s.cmd? ⟨n, q, e⟩ = some k → k.stage = .running → u.published = false → Tab.get? (s.ptn n).objs u.obj = some o →
    let a := updArgs k.args
    let theirs := List.range u.first ++ (List.range (u.nu - u.last)).map (u.last + ·)
    let all := theirs.all (u.has a)
    let table := s.translate (whoOf n u.ctx) (eBody k.raw 16 8 + 0x18) ⟨false, true⟩
    (∀ st, u.stage = .computed → all = true → table = .no st → ∃ (v : State) (o' : MemObj) (k' : Cmd),
      exec (.publish n q e) s = .next v ∧ Tab.get? (v.ptn n).objs u.obj = some o' ∧ o'.gen = o.gen ∧
      v.cmd? ⟨n, q, e⟩ = some k' ∧ k'.stage = .ended ∧ k'.status = st) ∧
    (∀ pl, s.memWf → u.stage = .computed → all = true → table = .ok pl → pl.isRemote = false →
      ∃ (v : State) (o' : MemObj) (k' : Cmd), exec (.publish n q e) s = .next v ∧ Tab.get? (v.ptn n).objs u.obj = some o' ∧
        o'.gen = (u.gen + 1) % 2 ^ 32 ∧ v.cmd? ⟨n, q, e⟩ = some k' ∧ k'.status = 0 ∧
        k'.detail = BitVec.ofNat 32 u.stepped ∧ k'.info = BitVec.ofNat 64 ((u.gen + 1) % 2 ^ 32) ∧
        v.bytesAt pl 4 = natLe 4 (leAt a.table 0x18 4 + 1) ∧
        ∃ i h, (⟨i, .generation, h, u.gen + 1⟩ : Event) ∈ v.dealer.events) ∧
    (u.stage ≠ .draining → all = false → ∃ (v : State) (o' : MemObj) (u' : Upd) (k' : Cmd),
      exec (.updatePeerTimeout n q e) s = .next v ∧ Tab.get? (v.ptn n).objs u.obj = some o' ∧ o'.gen = o.gen ∧
      v.upd? ⟨n, q, e⟩ = some u' ∧ u'.stage = .draining ∧ u'.published = false ∧
      v.cmd? ⟨n, q, e⟩ = some k' ∧ k'.stage = .ended ∧ k'.status = 0x0602 ∧
      k'.info = BitVec.ofNat 64 (theirs.filter (u.has a)).length))

/-- One element's step under two state objects, in binary32 with each operation rounded once in the order written. The
shards of n owners cut the units into consecutive runs that miss none and share none. PRECOND_ROOT runs block by block, one
a row (the model's choice, log entry 123): one that starts runs its first block, one that runs its next. After a block that
is not the last it goes on running, one block further, and it keeps the engines of its cores. After the last it has ended
with OK where every block's root was found, with ROOT_NOT_CONVERGED and the number of failed blocks as DETAIL where some
was not; where a read of the statistics failed it has ended with that status. A block whose statistic and EPS give a norm
of zero fails. In part the model's choice: log entries 16, 121 and 122. -/
def Obligations.UpdateArithmetic : Prop :=
  (
  ∀ (t : List Byte) (c0 c1 g pg w u0 u1 : Nat), tbF t 0 < 3 ∨ tbF t 0 = 4 → tbF t 1 < 3 ∨ tbF t 1 = 4 → tbf t 6 6 = 0 →
    tbV t = 1 ∨ tbV t = 7 →
    let sel (j : Nat) : Nat := if tbF t j = 0 then g else if tbF t j = 1 then f32.mul g g
      else if tbF t j = 2 then g % 2 ^ 31 else pg
    let step (j u : Nat) : Nat := f32.add (f32.mul (tbCoef t j 0) u) (f32.mul (tbCoef t j 4) (sel j))
    let v0 := step 0 u0
    let v1 := step 1 u1
    let num := f32.add (f32.add 0 (f32.mul (tbCoef t 0 8) (f32.mul c0 v0))) (f32.mul (tbCoef t 1 8) (f32.mul c1 v1))
    let den := if tbV t = 7 then 0x3F800000 else f32.add (f32.sqrt (f32.mul c1 v1)) (tbl t 8)
    let d := f32.div (neg32 (f32.mul (tbl t 4) num)) den
    let d := if tbf t 7 7 = 1 then f32.minmax true (neg32 (tbl t 16)) (f32.minmax false (tbl t 16) d) else d
    let d := if tbf t 8 8 = 1 then f32.sub d (f32.mul (f32.mul (tbl t 4) (tbl t 12)) w) else d
    stepElem t [c0, c1] g pg w [u0, u1] = (f32.add w d, [v0, v1])) ∧
  (
  ∀ (nu n : Nat), 0 < n → (shardRange nu n 0).1 = 0 ∧ (shardRange nu n (n - 1)).2 = nu ∧
    (∀ k, (shardRange nu n k).2 = (shardRange nu n (k + 1)).1) ∧
    (∀ k, (shardRange nu n k).1 ≤ (shardRange nu n k).2) ∧
    ∀ u, u < nu → ∃ k, k < n ∧ (shardRange nu n k).1 ≤ u ∧ u < (shardRange nu n k).2 ∧
      ∀ j, j < n → (shardRange nu n j).1 ≤ u → u < (shardRange nu n j).2 → j = k) ∧
  (
  (∀ (s : State) (n q e : Nat) (k : Cmd) (r : RootJob), n < 16 → q < 64 → (s.ptn n).halted = false →
    ((∃ x, s.starting n q e 7 = some (k, x) ∧ (∀ z ∈ (s.ptn n).roots, z.cid ≠ ⟨n, q, e⟩) ∧ r = ⟨⟨n, q, e⟩, x.ctx, 0, 0, 0⟩) ∨
      (s.starting n q e 7 = none ∧ s.cmd? ⟨n, q, e⟩ = some k ∧ k.stage = .running ∧ s.root? ⟨n, q, e⟩ = some r ∧
        r.failed ≤ r.next ∧ ∀ p ∈ (s.coresOf n).take (rootBlocks k.raw), (s.work p).engine.holder = .command ⟨n, q, e⟩)) →
    r.next < rootBlocks k.raw →
    ∃ (v : State) (k' : Cmd), exec (.precondRoot n q e) s = .next v ∧ v.cmd? ⟨n, q, e⟩ = some k' ∧ k'.raw = k.raw ∧
      ((k'.stage = .running ∧ r.next + 1 < rootBlocks k.raw ∧ ∃ r', v.root? ⟨n, q, e⟩ = some r' ∧ r'.next = r.next + 1 ∧
          (r'.failed = r.failed ∨ r'.failed = r.failed + 1) ∧
          ∀ p ∈ (s.coresOf n).take (rootBlocks k.raw), (v.work p).engine.holder = .command ⟨n, q, e⟩) ∨
        (k'.stage = .ended ∧ k'.status = 0 ∧ k'.detail = 0 ∧ r.next + 1 = rootBlocks k.raw ∧ r.failed = 0) ∨
        (k'.stage = .ended ∧ k'.status = 0x0601 ∧ r.next + 1 = rootBlocks k.raw ∧
          (k'.detail = BitVec.ofNat 32 r.failed ∧ 0 < r.failed ∨ k'.detail = BitVec.ofNat 32 (r.failed + 1))) ∨
        (k'.stage = .ended ∧ k'.status ≠ 0 ∧ k'.status ≠ 0x0601))) ∧
  ∀ (draw p iter tol eps : Nat) (a : Mat), eps = 0 → (∀ r ∈ a, ∀ v ∈ r, v = 0) →
    (rootBlock draw p iter tol eps a).1 = none)

/-- FIX, where no unit of memory is corrupt. To host memory: where the objects' reads succeed, the stream stands at
HOST_ADDR, and the command ends with OK, the objects' number as DETAIL and the stream's length as INFO; where a read fails
it ends with that status and writes nothing. To a partner with no route it ends with REMOTE_UNREACHABLE; otherwise it runs
on, the stream's bytes still to be acknowledged. A restore of one object: a weight object takes the stream's generation;
where the data's CRC holds the object's current slot is settled, else it stays unsettled; the other slots of a weight
object are unsettled. In part the model's choice: log entry 20. -/
def Obligations.Fixes : Prop :=
  (
  ∀ (s : State) (n q e : Nat) (k : Cmd) (x : Queue), n < 16 → q < 64 → s.starting n q e 8 = some (k, x) →
    s.flips = [] → s.poison = [] → s.memWf →
    let f := (s.began n k).fixStream n x.ctx { k with stage := .running, startSeq := s.dealer.seq + 1 }
    let ended (v : State) (st : Nat) : Prop := ∃ k', v.cmd? ⟨n, q, e⟩ = some k' ∧ k'.stage = .ended ∧ k'.status = st
    (f.status ≠ 0 → ∃ v : State, exec (.fix n q e) s = .next v ∧ ended v f.status ∧ v.hmem = s.hmem) ∧
    (f.status = 0 → fixHost k.raw = true → ∃ v : State, exec (.fix n q e) s = .next v ∧ ended v 0 ∧
      v.hostRead (eBody k.raw 16 8) f.bytes.length = f.bytes ∧
      ∃ k', v.cmd? ⟨n, q, e⟩ = some k' ∧ k'.detail = BitVec.ofNat 32 (leAt k.raw 32 1) ∧
        k'.info = BitVec.ofNat 64 f.bytes.length) ∧
    (f.status = 0 → fixHost k.raw = false → s.namesPkg (s.partner n).1 = false → ∃ v : State,
      exec (.fix n q e) s = .next v ∧ ended v 0x0801) ∧
    (f.status = 0 → fixHost k.raw = false → s.namesPkg (s.partner n).1 = true → ∃ (v : State) (y : FixRun),
      exec (.fix n q e) s = .next v ∧ y ∈ (v.ptn n).fixRuns ∧ y.cid = ⟨n, q, e⟩ ∧ y.acked = 0 ∧ y.out = (f.bytes.length + 255) / 256)) ∧
  (
  ∀ (s : State) (n h : Nat) (e stream : List Byte) (o : MemObj), Tab.get? (s.ptn n).objs (hIndex h) = some o →
    0 < o.slots.length →
    let r := s.restoreObj n h e stream
    let gen := if o.isWeight then leAt e 12 4 else o.gen
    let cur := if o.slots.length ≤ 1 then 0 else gen % o.slots.length
    let good := (crc32 (sliceAt stream (leAt e 16 8) o.bytes)).toNat = leAt e 24 4
    (r.2 = true ↔ ¬good) ∧ ∃ o', Tab.get? (r.1.ptn n).objs (hIndex h) = some o' ∧ o'.gen = gen ∧
      (∀ j, j < o.slots.length → j ≠ cur → (o'.slot j).st = .unsettled) ∧
      (good → (o'.slot cur).st = .settled) ∧ (¬good → (o'.slot cur).st = .unsettled))

/-- COMMAND_RETIRE of a command that may retire, of a work queue that is not being revoked or destroyed, with room in its
completion ring and no record held, no context being torn down: one completion record stands at the ring's next place with
the status, DETAIL and INFO of the command, the entry's TAG and the phase of its turn; the record count moves on; a
COMPLETION event is raised; the command is forgotten; the fence its SIGNAL named counts one less, takes the error flag
where the status is not OK, and is signalled once none is left; where the status is not OK and the queue stops on errors it
is stopped. A command that has ended may retire once its writes to other packages are performed, a dispatch once its blocks
have ended; one that may not is not retired. In part the model's choice: log entries 21 and 130. -/
def Obligations.CommandsRetire : Prop :=
  ∀ (s : State) (n q e : Nat) (k : Cmd) (x : Queue), n < 16 → q < 64 → q ≠ 0 → s.memWf → s.cmd? ⟨n, q, e⟩ = some k →
    s.queue? n q = some x →
    (s.mayRetire n x k = false → exec (.commandRetire n q e) s = .next s) ∧
    (k.stage = .ended → x.held = [] → (∀ c ∈ s.cores, ∀ r ∈ c.2.work.farAll, ∀ u rest, r.act = .cmd ⟨n, q, e⟩ u rest → u.write = false) →
      s.mayRetire n x k = true) ∧
    (∀ d, k.stage = .running → leAt k.raw 0 1 = 2 → x.held = [] → s.disp? ⟨n, q, e⟩ = some d → d.ended = d.blocks →
      s.mayRetire n x k = true) ∧
    (let r := s.results n k
     (k.stage = .ended → s.disp? ⟨n, q, e⟩ = none → s.move? ⟨n, q, e⟩ = none → r = (k.status, k.detail, k.info)) ∧
     (s.mayRetire n x k = true → r.1 < 2 ^ 16 → x.held = [] → x.hasRoom = true → x.revoked = false → x.dying = 0 →
      (∀ c ∈ s.ctxs, c.2.torn = 0) → (∀ p ∈ s.ptns, ∀ o ∈ p.2.objs, o.2.dying = 0) →
      ∃ (v : State) (y : Queue) (i : Nat), exec (.commandRetire n q e) s = .next v ∧ v.queue? n q = some y ∧
        y.records = x.records + 1 ∧ v.cmd? ⟨n, q, e⟩ = none ∧ y.held = [] ∧
        (y.stopped = true ↔ x.stopped = true ∨ (r.1 ≠ 0 ∧ x.stopOnError = true)) ∧
        (⟨i, .completion, n + 16 * q, e⟩ : Event) ∈ v.dealer.events ∧
        (∀ j f, k.sig = [j] → Tab.get? (s.ptn n).fences j = some f → f.dying = 0 →
          ∃ g, Tab.get? (v.ptn n).fences j = some g ∧ g.pending = f.pending - 1 ∧
            (g.error = true ↔ f.error = true ∨ r.1 ≠ 0) ∧ (g.signalled = true ↔ f.signalled = true ∨ f.pending ≤ 1)) ∧
        let at_ := x.cqBase + 32 * (x.records.toNat % 2 ^ x.cqLog2)
        let rec_ := v.hostRead at_ 32
        leAt rec_ 0 2 = r.1 ∧ leAt rec_ 4 4 = leAt k.raw 4 4 ∧ leAt rec_ 16 4 = x.sqHead.toNat ∧
        leAt rec_ 20 4 = r.2.1.toNat ∧ leAt rec_ 24 8 = r.2.2.toNat ∧
        leAt rec_ 3 1 / 2 ^ 7 = (x.records.toNat / 2 ^ x.cqLog2 + 1) % 2))

/-- The requests that make a thing: one that the present state refuses ends with that status. Otherwise, with an index
free, a request ends with OK and a handle of the thing's KIND, of an index that was free and of the generation that index
holds; with none free it ends with the status that says so. A context has the job named and no page table, a queue the
fields named and counts of 0, a fence the state named, no error and PENDING 0, and a memory object G slots of PAGES pages
each, all settled. In part the model's choice: log entry 19. -/
def Obligations.CreationRequests : Prop :=
  ∀ (s : State) (n e op : Nat) (k : Cmd) (x : Queue), n < 16 → s.starting n 0 e op = some (k, x) →
    let c : Cid := ⟨n, 0, e⟩
    let r := k.raw
    let w := eBody r 4 4
    let ctx : CtxId := ctxNamed r
    (∀ i ∈ ([.ctxCreate n e, .ctxDestroy n e, .queueCreate n e, .queueDestroy n e, .queueResume n e, .fenceCreate n e,
        .fenceDestroy n e, .fenceReset n e, .memCreate n e, .memDestroy n e, .memSettle n e, .revokeOwner n e] : List Instr).zip
        [0xE0, 0xE1, 0xE2, 0xE3, 0xE4, 0xE5, 0xE6, 0xE7, 0xE8, 0xE9, 0xEA, 0xEB],
      op = i.2 → s.requestState n r ≠ 0 → ∃ v : State, exec i.1 s = .next v ∧ v.endedAs c (s.requestState n r) 0) ∧
    (op = 0xE0 → ∃ v : State, exec (.ctxCreate n e) s = .next v ∧
      (v.endedAs c 0x0201 0 ∧ v.ctxs = s.ctxs ∧ (∀ i, i < 4096 → Tab.get? s.ctxs i = none → i ∈ s.cooling) ∨
        ∃ i t, i < 4096 ∧ Tab.get? s.ctxs i = none ∧ i ∉ s.cooling ∧ v.endedAs c 0 (mkHandle 1 (Tab.get s.ctxGens i 0) i) ∧
          Tab.get? v.ctxs i = some t ∧ t.gen = Tab.get s.ctxGens i 0 ∧ t.ptn = n ∧ t.job = eBody r 0 4 ∧ t.l3 = [] ∧ t.l4 = [] ∧
          ∀ j, j ≠ i → Tab.get? v.ctxs j = Tab.get? s.ctxs j)) ∧
    (op = 0xE2 → s.requestState n r = 0 → ∃ v : State, exec (.queueCreate n e) s = .next v ∧
      (v.endedAs c 0x0202 0 ∧ (∀ i, i < 64 → i ≠ 0 → (s.queue? n i).isSome = true) ∨
        ∃ i y, 0 < i ∧ i < 64 ∧ s.queue? n i = none ∧ v.endedAs c 0 (mkHandle 2 (Tab.get (s.ptn n).qGens i 0) i) ∧
          v.queue? n i = some y ∧ y.ctx = ctx ∧ y.cls = w % 4 ∧ (y.stopOnError = true ↔ w / 4 % 2 = 1) ∧
          y.sqLog2 = w / 8 % 32 ∧ y.cqLog2 = w / 256 % 32 ∧ y.vector = w / 2 ^ 13 % 2 ^ 11 ∧ y.sqBase = eBody r 8 8 ∧
          y.cqBase = eBody r 16 8 ∧ y.doorbell = eBody r 24 8 ∧ y.owner.toNat = eBody r 32 4 ∧ y.sqHead = 0 ∧
          y.sqTail = 0 ∧ y.cqHead = 0 ∧ y.records = 0 ∧ y.stopped = false ∧ ∀ j, j ≠ i → v.queue? n j = s.queue? n j)) ∧
    (op = 0xE5 → ∃ v : State, exec (.fenceCreate n e) s = .next v ∧
      (v.endedAs c 0x0203 0 ∧ (∀ i, i < 16384 → (Tab.get? (s.ptn n).fences i).isSome = true) ∨
        ∃ i f, i < 16384 ∧ Tab.get? (s.ptn n).fences i = none ∧ v.endedAs c 0 (mkHandle 5 (Tab.get (s.ptn n).fGens i 0) i) ∧
          Tab.get? (v.ptn n).fences i = some f ∧ f.ctx = ctx ∧ f.owner.toNat = eBody r 8 4 ∧
          (f.signalled = true ↔ w % 2 = 1) ∧ f.error = false ∧ f.pending = 0)) ∧
    (op = 0xE8 → ∃ v : State, exec (.memCreate n e) s = .next v ∧
      (v.endedAs c 0x0204 0 ∧ ((∀ j, j < 1048576 → (Tab.get? (s.ptn n).objs j).isSome = true) ∨
          (let size := if w % 2 = 1 then 2097152 else 65536
           let count := eBody r 8 4 * (w / 4 % 4 + 1)
           (if w / 2 % 2 = 1 then (s.began n k).hostPages size count else (s.began n k).computePages n size count) = none)) ∨
        ∃ i o, i < 1048576 ∧ Tab.get? (s.ptn n).objs i = none ∧ v.endedAs c 0 (mkHandle 3 (Tab.get (s.ptn n).oGens i 0) i) ∧
          Tab.get? (v.ptn n).objs i = some o ∧ o.ctx = ctx ∧ (o.big = true ↔ w % 2 = 1) ∧ (o.host = true ↔ w / 2 % 2 = 1) ∧
          o.slots.length = w / 4 % 4 + 1 ∧ (∀ y ∈ o.slots, y.st = .settled ∧ y.readers = 0) ∧ o.pages = eBody r 8 4 ∧ ∀ j, j ≠ i → Tab.get? (v.ptn n).objs j = Tab.get? (s.ptn n).objs j))

/-- The requests that end or change a thing, not refused by the present state. Each ends with OK but MEM_SETTLE, whose end
and change wait for its logbook entry, and REVOKE_OWNER and CTX_DESTROY, which stop the queues of the owner, or of the
context, and complete once their commands have retired. CTX_ID_FREE: the id may be opened again. TEARDOWN_TIMEOUT: while
commands of a context being torn down remain, every core that still works for it gets an engine reset; with none left, or
for a context not being torn down, nothing happens. In part the model's choice: log entries 19, 55 and 57. -/
def Obligations.EndingRequests : Prop :=
  (
  ∀ (s : State) (n e op : Nat) (k : Cmd) (x : Queue), n < 16 → s.starting n 0 e op = some (k, x) → s.requestState n k.raw = 0 →
    let c : Cid := ⟨n, 0, e⟩
    let r := k.raw
    let h := eBody r 0 4
    let i := hIndex h
    let gone (qs : Nat → Queue → Prop) (v : State) : Prop := ∀ q y, q ≠ 0 → s.queue? n q = some y → qs q y →
      (∃ z, v.queue? n q = some z ∧ z.revoked = true) ∧
      ∀ j kk, s.cmd? ⟨n, q, j⟩ = some kk → kk.stage = .read ∨ kk.stage = .waiting → ∃ kk', v.cmd? ⟨n, q, j⟩ = some kk' ∧
        kk'.stage = .ended ∧ kk'.status = 0x0701
    (op = 0xE3 → (s.queue? n i).isSome = true → ∃ v : State, exec (.queueDestroy n e) s = .next v ∧ v.endedAs c 0 0 ∧
      (∀ z, v.queue? n i = some z → z.dying ≠ 0) ∧
      ∀ j kk, s.cmd? ⟨n, i, j⟩ = some kk → kk.stage = .read ∨ kk.stage = .waiting → ∃ kk', v.cmd? ⟨n, i, j⟩ = some kk' ∧
        kk'.stage = .ended ∧ kk'.status = 0x0702) ∧
    (op = 0xE4 → ∃ v : State, exec (.queueResume n e) s = .next v ∧ v.endedAs c 0 0 ∧
      ∀ q, v.queue? n q = if q = i then (s.queue? n q).map (fun y => { y with stopped := false }) else s.queue? n q) ∧
    (op = 0xE6 → ∀ f, Tab.get? (s.ptn n).fences i = some f → ∃ v : State, exec (.fenceDestroy n e) s = .next v ∧
      v.endedAs c 0 0 ∧ Tab.get? (v.ptn n).fences i = some { f with dying := if f.dying = 0 then s.dealer.seq + 1 else f.dying }) ∧
    (op = 0xE7 → ∀ f, Tab.get? (s.ptn n).fences i = some f → ∃ (v : State) (g : Fence), exec (.fenceReset n e) s = .next v ∧
      v.endedAs c 0 0 ∧ Tab.get? (v.ptn n).fences i = some g ∧ g.error = false ∧ g.pending = f.pending ∧
      (g.signalled = true ↔ eBody r 4 4 % 2 = 1)) ∧
    (op = 0xE9 → hKind h = 3 → ∀ o, Tab.get? (s.ptn n).objs i = some o → ∃ v : State, exec (.memDestroy n e) s = .next v ∧
      v.endedAs c 0 0 ∧ Tab.get? (v.ptn n).objs i = some { o with dying := if o.dying = 0 then s.dealer.seq + 1 else o.dying }) ∧
    (op = 0xE9 → hKind h = 4 → ∀ o, Tab.get? (s.ptn n).progs i = some o → ∃ v : State, exec (.memDestroy n e) s = .next v ∧
      v.endedAs c 0 0 ∧
      Tab.get? (v.ptn n).progs i = some { o with dying := if o.dying = 0 then s.dealer.seq + 1 else o.dying }) ∧
    (op = 0xEA → ∃ (v : State) (p : Pending), exec (.memSettle n e) s = .next v ∧
      v.setup.waiting = s.setup.waiting ++ [p] ∧ p.kind = 2 ∧ p.item.toNat = h ∧ p.change = .settle n i (eBody r 4 4) ∧
      p.reply = [n, 0, e] ∧ (v.ptn n).objs = (s.ptn n).objs) ∧
    (op = 0xEB → ∃ v : State, exec (.revokeOwner n e) s = .next v ∧
      gone (fun _ y => y.ctx = ctxNamed r ∧ y.owner.toNat = eBody r 4 4) v) ∧
    (op = 0xE1 → ∀ t, s.ctx? (ctxNamed r) = some t → ∃ (v : State) (t' : Ctx), exec (.ctxDestroy n e) s = .next v ∧
      Tab.get? v.ctxs (ctxNamed r).id = some t' ∧ t'.torn = (if t.torn = 0 then s.dealer.seq + 1 else t.torn) ∧ t'.by_ = [c] ∧
      gone (fun _ y => y.ctx = ctxNamed r) v)) ∧
  (
  ∀ (s : State) (c : Nat), c < 4096 →
    (∃ v : State, exec (.ctxIdFree c) s = .next v ∧ (∀ i, i ∈ v.cooling ↔ i ∈ s.cooling ∧ i ≠ c) ∧ v.ctxs = s.ctxs ∧
      v.ctxGens = s.ctxGens) ∧
    (∀ t, Tab.get? s.ctxs c = some t →
      let id : CtxId := ⟨c, t.gen⟩
      let left : Prop := ∃ k ∈ (s.ptn t.ptn).cmds, ∃ y, k.queue ≠ 0 ∧ (k.queue, y) ∈ (s.ptn t.ptn).queues ∧ y.ctx = id
      (t.torn = 0 ∨ ¬left → exec (.teardownTimeout c) s = .next s) ∧
      (t.torn ≠ 0 → left → ∃ v : State, exec (.teardownTimeout c) s = .next v ∧ ∀ p ∈ s.coresOf t.ptn,
        (s.work p).ctx = [id] → (s.work p).blocks ≠ [] → (⟨.engine, p⟩ : Reset) ∈ v.dealer.resets)))

/-- TRAINING_EXCHANGE on a port that trains. The width is the widest of 1, 2, 4 and 8 lanes, at most MAXW, of which some
aligned group is good at both ends, on the lowest such group. Where the neighbour reports the same extents and a bearing
one step on in the port's direction the port is up, its sequences at 0, 192 slots of credit on each of the 8 virtual
channels and nothing held, and NV_PORT_UP, or NV_PORT_NARROWED below MAXW, is raised. With no width, or a wrong neighbour,
the port is down, and the latter raises NV_BEARING_MISMATCH. TRAINING_RETRY lets a port that is down and may train do so.
Retraining in place. A lane that loses lock starts one that excludes it; with the last lane the port is down, holding no
frame, and trains from the start where it may (the model's choice, log entry 72). It ends with the width of R407 over the
lanes good at both ends and not excluded, no wider than before; the frames held for replay stay held; a narrower port
raises NV_PORT_NARROWED. With no width the port goes on retraining, and on RETRAIN_TIMEOUT it is down, holding no frame,
NV_PORT_DOWN is raised, and it trains where it may. -/
def Obligations.PortTraining : Prop :=
  (
  ∀ (s : State) (k : Nat) (near far : BitVec 8) (nb : NeighbourReport), k < 24 → s.portMayTrain k = true →
    let x := s.port k
    let fits (c l : Nat) : Prop := 2 ^ c ∣ l ∧ l + 2 ^ c ≤ 8 ∧ ∀ i, i < 2 ^ c → near.getLsbD (l + i) && far.getLsbD (l + i)
    let dim := k % 6 / 2
    let n := s.ext dim + 1
    let met : Prop := nb.extX = s.ext 0 ∧ nb.extY = s.ext 1 ∧ nb.extZ = s.ext 2 ∧ ∀ d a, d < 3 → [nb.x, nb.y, nb.z][d]? = some a →
      a = if d = dim then (coord s.pkgNo d + (if k % 2 = 0 then 1 else n - 1)) % n else coord s.pkgNo d
    (x.state = 1 → (∀ l, ¬fits 0 l) → exec (.trainingExchange k near far nb) s = .next (s.setPort k { x with state := 0 })) ∧
    (x.state = 1 → (∃ l, fits 0 l) → ¬met → ∃ (v : State) (i : Nat), exec (.trainingExchange k near far nb) s = .next v ∧
      (v.port k).state = 0 ∧ (⟨i, .nvBearingMismatch, k, 0⟩ : Event) ∈ v.dealer.events) ∧
    (x.state = 1 → met → ∀ c l, c ≤ s.maxw k → fits c l → (∀ c' l', c' ≤ s.maxw k → fits c' l' → c' < c ∨ c' = c ∧ l ≤ l') →
      ∃ (v : State) (i : Nat), exec (.trainingExchange k near far nb) s = .next v ∧
        let y := v.port k
        y.state = 2 ∧ y.width = c ∧ y.lane0 = l ∧ y.txSeq = 0 ∧ y.rxSeq = 0 ∧ y.replay = [] ∧ y.rx = [] ∧
        (∀ vc, vc < 8 → Tab.get y.credits vc 0 = 192) ∧
        (⟨i, if c < s.maxw k then .nvPortNarrowed else .nvPortUp, k, c⟩ : Event) ∈ v.dealer.events) ∧
    (x.state = 0 → exec (.trainingRetry k) s = .next (s.setPort k { x with state := 1, excluded := 0 }))) ∧
  (
  ∀ (s : State) (k lane : Nat) (near far : BitVec 8), k < 24 → lane < 8 →
    let x := s.port k
    let good := near &&& far &&& ~~~ x.excluded
    let most := min x.width (s.maxw k)
    let fits (c l : Nat) : Prop := 2 ^ c ∣ l ∧ l + 2 ^ c ≤ 8 ∧ ∀ i, i < 2 ^ c → good.getLsbD (l + i)
    let restarts (c : Instr) : Prop := ∃ (v : State) (i : Nat), exec c s = .next v ∧
      (v.port k).state = (if s.portMayTrain k then 1 else 0) ∧ (v.port k).replay = [] ∧
      (⟨i, .nvPortDown, k, 0⟩ : Event) ∈ v.dealer.events
    (x.state = 2 ∨ x.state = 3 → (∃ i, i < 8 ∧ i ≠ lane ∧ x.excluded.getLsbD i = false) →
      ∃ v : State, exec (.laneLossOfLock k lane) s = .next v ∧ (v.port k).state = 3 ∧
      (∀ i, i < 8 → (v.port k).excluded.getLsbD i = (x.excluded.getLsbD i || i == lane)) ∧ (v.port k).replay = x.replay) ∧
    (x.state = 2 ∨ x.state = 3 → (∀ i, i < 8 → i ≠ lane → x.excluded.getLsbD i = true) → restarts (.laneLossOfLock k lane)) ∧
    (x.state = 3 → (∀ l, ¬fits 0 l) → exec (.retrainComplete k near far) s = .next s) ∧
    (x.state = 3 → ∀ c l, c ≤ most → fits c l → (∀ c' l', c' ≤ most → fits c' l' → c' < c ∨ c' = c ∧ l ≤ l') →
      ∃ v : State, exec (.retrainComplete k near far) s = .next v ∧ (v.port k).state = 2 ∧ (v.port k).width = c ∧
        (v.port k).lane0 = l ∧ (v.port k).replay = x.replay ∧
        (c < x.width → ∃ i, (⟨i, .nvPortNarrowed, k, c⟩ : Event) ∈ v.dealer.events)) ∧
    (x.state = 3 → restarts (.retrainTimeout k)))

/-- FRAME_RECEIVED on a port that is up and not being taken out of service, with no detector armed. An intact frame that is
next in sequence is taken: its packets, but idle slots and packets of a reserved type for this package, join those
received, in order, the next sequence number is one more, the credits it returns are back where no packet is sent
meanwhile, no resend is asked for, and frames sent up to ACK are no longer held; where it asks for a resend, the frames
still held are sent again in their order, before any new one. A frame that is not intact, or out of sequence, is discarded.
One not intact asks for a resend in the next trailer sent, or, 64 frames being held, waits to; the eighth resend asked for,
either way, for one SEQ starts a retrain; its uncorrectable codewords count in counter 1, or, all being good, a CRC error
in counter 2. In part the model's choice: log entries 69, 70 and 71. -/
def Obligations.FramesReceived : Prop :=
  ∀ (s : State) (k : Nat) (f : Frame), k < 24 → (s.port k).state = 2 → s.dealer.armed = [] → (s.port k).draining = false →
    let x := s.port k
    let intact : Prop := f.undecoded = 0 ∧ f.crcOk = true
    let left := x.replay.filter (fun e => 32768 ≤ (f.ack + 65536 - e.seq) % 65536)
    ∃ v : State, exec (.frameReceived k f) s = .next v ∧
      let y := v.port k
      (intact → f.seq = x.rxSeq → f.down = false → v.links.inbox = s.links.inbox ++ (f.packets.filter (fun p =>
          p.type != 0 && !(p.dest == s.pkgNo && 8 < p.type))).map (fun p => ⟨k, p⟩) ∧
        y.rxSeq = (x.rxSeq + 1) % 65536 ∧ y.sendNak = false ∧
        (s.waitingFor k = [] → ∀ c, Tab.get y.credits c 0 = Tab.get x.credits c 0 + if c = f.cvc then f.credits else 0)) ∧
      (intact → f.seq = x.rxSeq → f.down = false → f.nak = false → y.state = 2 ∧
        ∀ e ∈ x.replay, (f.ack + 65536 - e.seq) % 65536 < 32768 → e.seq = x.txSeq ∨ e ∉ y.replay) ∧
      (intact → f.seq = x.rxSeq → f.down = false → f.nak = true → (x.rxNakSeq = (f.ack + 1) % 65536 → x.rxNaks < 7) →
        y.state = 2 ∧ y.wire.map (·.seq) = y.replay.map (·.seq) ∧ y.replay.take left.length = left ∧
        Tab.get y.counters 3 0 = Tab.get x.counters 3 0 + BitVec.ofNat 64 left.length) ∧
      (intact → f.seq = x.rxSeq → f.down = false → f.nak = true → x.rxNakSeq = (f.ack + 1) % 65536 → x.rxNaks = 7 →
        y.state = 3) ∧
      (¬intact ∨ f.seq ≠ x.rxSeq → v.links.inbox = s.links.inbox ∧ y.rxSeq = x.rxSeq ∧
        (s.waitingFor k = [] → y.credits = x.credits)) ∧
      (¬intact → x.replay.length < 64 → y.sendNak = false ∧ (∃ w, y.wire = [w] ∧ w.nak = true ∧ w.seq = x.txSeq) ∧
        y.state = if x.nakSeq = x.rxSeq ∧ x.naks = 7 then 3 else 2) ∧
      (¬intact → 64 ≤ x.replay.length → y.sendNak = true ∧ y.wire = [] ∧ y.state = 2) ∧
      (¬intact → Tab.get y.counters 1 0 = Tab.get x.counters 1 0 + BitVec.ofNat 64 (min 4 f.undecoded) ∧
        Tab.get y.counters 2 0 = Tab.get x.counters 2 0 + if f.undecoded = 0 then 1 else 0)

/-- A packet on its way out of the package: the direction is that of the first dimension, X, Y, Z, whose coordinate
differs, the shorter way round, + when both are equal. Where a port of that direction is up on the packet's die or a die
after it, the packet waits to be sent on the first such port, whose die its DIE names, and its VC has bit 1 for responses,
bit 2 for a detour, and bit 0 where it crosses the dateline or kept it. PACKET_FORWARD: a packet for another package leaves
the receive buffer and goes on with HOPS one more, or is dropped and counted in NV_HOP_DROPS where HOPS would exceed 31.
FENCE_NOTICE_RESEND sends a notice again while its direction, or the one a detour takes, has a port, and forgets it where
it has none or no such package exists. In part the model's choice: log entries 2 and 48. -/
def Obligations.PacketRouting : Prop :=
  (
  ∀ (s : State) (p : Packet) (lastDim d : Nat), d < 3 → (∀ j, j < d → coord p.dest j = coord s.pkgNo j) →
    (∀ j, j < 3 → coord p.dest j ≤ s.ext j ∧ coord s.pkgNo j ≤ s.ext j) → coord p.dest d ≠ coord s.pkgNo d →
    let n := s.ext d + 1
    let up := (coord p.dest d + n - coord s.pkgNo d) % n
    let dir := 2 * d + if 2 * up ≤ n then 0 else 1
    let edge := if dir % 2 = 0 then s.ext d else 0
    s.direction p.dest = some dir ∧ ∀ i, i < 4 → (∀ m, m < 16 → s.field (Reg.ptnSeal m) 0 0 = 0) →
      s.portUp (6 * ((p.die + i) % 4) + dir) = true → (∀ j, j < i → s.portUp (6 * ((p.die + j) % 4) + dir) = false) →
      s.sendPacket p lastDim = s.setLinks { s.links with outbox := s.links.outbox ++ [⟨6 * ((p.die + i) % 4) + dir, { p with
        die := (p.die + i) % 4
        vc := (if coord s.pkgNo d = edge then 1 else if lastDim = d then p.vc % 2 else 0) +
          (if p.type = 2 ∨ p.type = 4 ∨ p.type = 6 then 2 else 0) + if p.detour then 4 else 0 }, p, lastDim⟩] }) ∧
  (
  ∀ (s : State) (k : Nat),
    ((∀ r, s.links.inbox[k]? = some r → r.packet.dest = s.pkgNo) → exec (.packetForward k) s = .next s) ∧
    (s.links.notices[k]? = none → exec (.fenceNoticeResend k) s = .next s) ∧
    (∀ r, s.links.inbox[k]? = some r → r.packet.dest ≠ s.pkgNo →
      (31 ≤ r.packet.hops → exec (.packetForward k) s = .next ((s.takePacket k r).countPkg 1 1)) ∧
      (r.packet.hops < 31 → exec (.packetForward k) s =
        .next ((s.takePacket k r).sendPacket { r.packet with hops := r.packet.hops + 1 } (r.port % 6 / 2)))) ∧
    ∀ p, s.links.notices[k]? = some p →
      let e := Tab.get s.links.detours p.dest (0, false)
      let routed : Prop := ∃ d, s.direction p.dest = some d ∧ ((s.portFor p.die d p.srcPtn).isSome = true ∨
        (s.portFor p.die (if e.2 then e.1 else (2 * (d / 2 + 1)) % 6) p.srcPtn).isSome = true)
      (s.namesPkg p.dest = false ∨ ¬routed → ∃ v : State, exec (.fenceNoticeResend k) s = .next v ∧
        v.links.notices = s.links.notices.take k ++ s.links.notices.drop (k + 1)) ∧
      (s.namesPkg p.dest = true → routed → exec (.fenceNoticeResend k) s = .next (s.sendPacket p 3)))

/-- Requests that are accepted: a read is answered with the bytes that memory holds; a write stands in memory before it is
acknowledged, and an atomic before it is answered with the word's old value; an address that does not translate is answered
with the matching status. Answers go back to the sender with the request's address and tag. A packet received for this
package whose end-to-end CRC fails, or an atomic with OP 7 or a notice with OP above 1, is dropped without a response and
counted in NV_E2E_DROPS. A request for no open context of its job and partition, or one of job 0 that is not a client's for
the fix area, is dropped without a response and counted in CTX_LATE_DROPS. A write to a weight object by an owner that was
told of a slot of it is a push: its bytes arrive where the slot is open for the generation told, and are dropped and
counted where it is not; it is acknowledged either way. One with no such packet does nothing. In part the model's choice:
log entries 2, 17, 22 and 67. -/
def Obligations.RequestsServed : Prop :=
  (
  ∀ (s : State) (k : Nat) (r : Recv), s.memWf → s.links.inbox[k]? = some r → r.packet.dest = s.pkgNo →
    r.packet.e2eCrc = crc32 (pktCrcBytes r.packet) → s.accepts r.packet = true → s.flips = [] → s.poison = [] →
    let p := r.packet
    let t := s.takePacket k r
    let back (type status : Nat) (data : List Byte) : Packet := pktSeal { p with
      type := type, vc := 0, detour := false, dest := p.src, src := s.pkgNo, destPtn := p.srcPtn, srcPtn := p.destPtn,
      die := if p.tag % 256 < 192 then p.tag % 256 / 48 else p.die, destCtx := p.srcCtx, destGen := p.srcGen,
      srcCtx := p.destCtx, srcGen := p.destGen, hops := 0, status := status, payload := data }
    let code (st : Nat) : Nat := if st = 0x0402 then 1 else if st = 0x0403 then 2 else if st = 0x0401 then 3 else
      if st = 0x0404 then 4 else 5
    let at_ (a : Acc) : Xl := s.translateLocal (whoOf p.destPtn ⟨p.destCtx, p.destGen⟩) p.addr a
    (p.type = 1 → ∀ st, st ≠ 0 → at_ ⟨true, false⟩ = .no st → exec (.readRequest k) s = .next (t.sendPacket (back 2 (code st) []) 3)) ∧
    (p.type = 1 → ∀ pl, at_ ⟨true, false⟩ = .ok pl → exec (.readRequest k) s =
      .next (t.sendPacket (back 2 0 ((List.range (p.lenM1 + 1)).map (fun i => s.byteAt (pl.plus i)))) 3)) ∧
    let c : CtxId := ⟨p.destCtx, p.destGen⟩
    let here (i : Nat) : Prop := s.vaObj c (s.pkgNo * 2 ^ 52 + p.addr) = some i
    let told (o : Opened) (i : Nat) : Prop := o.obj = i ∧ o.pkg = p.src ∧ o.ptn = p.srcPtn
    let plain : Prop := ∀ i, here i → ∀ o ∈ (s.ptn p.destPtn).opened, ¬told o i
    (p.type = 3 → plain → ∀ st, st ≠ 0 → at_ ⟨false, true⟩ = .no st →
      exec (.write k) s = .next (t.sendPacket (back 4 (code st) []) 3)) ∧
    (p.type = 3 → plain → ∀ pl, at_ ⟨false, true⟩ = .ok pl → pl.isRemote = false → ∃ v : State,
      exec (.write k) s = .next (v.sendPacket (back 4 0 []) 3) ∧ v.bytesAt pl p.payload.length = p.payload) ∧
    (∀ (i : Nat) (o : Opened), p.type = 3 → here i → o ∈ (s.ptn p.destPtn).opened → told o i →
      (∀ z ∈ (s.ptn p.destPtn).opened, told z i → z = o) →
      let slot (u : Upd) : Prop := u.obj = i ∧ u.ctx = c ∧ u.stage ≠ .draining ∧ u.published = false ∧ u.gen + 1 = o.gen
      ((∀ u ∈ (s.ptn p.destPtn).updates, ¬slot u) →
        exec (.write k) s = .next ((t.countPtn p.destPtn 6 1).sendPacket (back 4 0 []) 3)) ∧
      ∀ u ∈ (s.ptn p.destPtn).updates, slot u → u.cid.ptn = p.destPtn →
        (∀ z ∈ (s.ptn p.destPtn).updates, slot z ∨ z.cid = u.cid → z = u) →
        ∃ (v : State) (u' : Upd), exec (.write k) s = .next (v.sendPacket (back 4 0 []) 3) ∧ v.upd? u.cid = some u' ∧
          u'.arrived = u.arrived ++ (List.range p.payload.length).map (p.addr + ·)) ∧
    (p.type = 5 → p.op < 7 → ∀ pl, at_ ⟨true, true⟩ = .ok pl → pl.isRemote = false → ∃ v : State,
      let old : Word := BitVec.ofNat 32 (leNat (s.bytesAt pl 4))
      exec (.atomic k) s = .next (v.sendPacket (back 6 0 (s.bytesAt pl 4)) 3) ∧
      v.bytesAt pl 4 = match atomicNew p.op old (BitVec.ofNat 32 (leAt p.payload 0 4)) (BitVec.ofNat 32 (leAt p.payload 4 4)) with
        | some w => natLe 4 w.toNat
        | none => s.bytesAt pl 4)) ∧
  (
  ∀ e ∈ ([(.readRequest, 1), (.readResponse, 2), (.write, 3), (.acknowledgement, 4), (.atomic, 5), (.atomicResponse, 6),
      (.fenceNotice, 7), (.openNotice, 8)] : List ((Nat → Instr) × Nat)),
  ∀ (s : State) (k : Nat),
    ((∀ r, s.links.inbox[k]? = some r → r.packet.type ≠ e.2 ∨ r.packet.dest ≠ s.pkgNo) → exec (e.1 k) s = .next s) ∧
    ∀ r, s.links.inbox[k]? = some r → r.packet.type = e.2 → r.packet.dest = s.pkgNo →
      let p := r.packet
      let t := s.takePacket k r
      let bad : Prop := p.e2eCrc ≠ crc32 (pktCrcBytes p) ∨ (e.2 = 5 ∧ 7 ≤ p.op) ∨ (e.2 = 7 ∧ 2 ≤ p.op)
      let open_ : Prop := ∃ c, Tab.get? s.ctxs p.destCtx = some c ∧ c.gen = p.destGen ∧ c.torn = 0 ∧ c.ptn = p.destPtn ∧
        c.job = p.job
      (bad → exec (e.1 k) s = .next (t.countPkg 0 1)) ∧
      (¬bad → p.job ≠ 0 → ¬open_ → e.2 % 2 = 1 ∨ e.2 = 8 → exec (e.1 k) s = .next (t.countPtn p.destPtn 0 1)) ∧
      (¬bad → p.job = 0 → e.2 = 5 ∨ e.2 = 7 ∨ e.2 = 8 ∨ ((e.2 = 1 ∨ e.2 = 3) ∧ s.servesFix p = false) →
        exec (e.1 k) s = .next (t.countPtn p.destPtn 0 1)))

/-- Answers from other packages. A response reaches the far-request slot that its TAG names only where the slot waits for
an answer of that kind from that package and the epoch is the slot's present one; any other is dropped and counted in
NV_TAG_LATE. One that reaches it frees the slot; with a bad STATUS the access faults with it, else the request is answered
with what came, a line that a hold caches taking what an atomic wrote. Notices. A fence notice with OP 0 on a good fence of
a context of its job is acknowledged and its waiter registered, or signalled at once where the fence is signalled; on any
other it is acknowledged with a failing status. One with OP 1 marks the waits it names signalled, with the error flag it
carries. An open notice tells the owner's partition of the peer's slot, where no update there has computed its shard.
FENCE_NOTICE_RESEND sends a notice again. REMOTE_TIMEOUT of a far request of a group: the slot is free, its epoch one more
modulo 4, and the group's dispatch ends with REMOTE_UNREACHABLE; of a command's registered wait: the command has
REMOTE_UNREACHABLE before it starts; of a line that a hold fetches: the copy's dispatch ends with it; of a fix: it ends
with REMOTE_UNREACHABLE; of a restore: it is over with RESULT 4. In part the model's choice: log entries 11, 13, 17, 22 and
68. -/
def Obligations.ResponsesAndTimeouts : Prop :=
  (
  ∀ e ∈ ([(.readResponse, 2), (.acknowledgement, 4), (.atomicResponse, 6)] : List ((Nat → Instr) × Nat)),
  ∀ (s : State) (k : Nat) (r : Recv), s.links.inbox[k]? = some r → r.packet.type = e.2 → r.packet.dest = s.pkgNo →
    r.packet.e2eCrc = crc32 (pktCrcBytes r.packet) → r.packet.job ≠ 0 →
    s.fills = [] → s.links.notices = [] → r.packet.tag % 256 < 192 → r.packet.tag < 65536 →
    let q := r.packet
    let t := s.takePacket k r
    let p := q.tag % 256
    let j := q.tag / 256 % 64
    let epoch : Nat := Tab.get (s.core p).epochs j 0
    (q.tag / 2 ^ 14 ≠ epoch % 4 ∨ Tab.get? (s.work p).slots j = none → exec (e.1 k) s = .next (t.countPkg 3 1)) ∧
    ∀ f a, Tab.get? (s.work p).slots j = some f → f.place = .remote q.src a → f.act.isMover = false → epoch < 4 →
      q.tag / 2 ^ 14 = epoch → f.act.answerType = e.2 →
      (q.status = 0 → exec (e.1 k) s =
        .next ((((t.freeSlot p j).farAnswer p f q.payload).cacheAtomic p f q.payload).pumpAll p)) ∧
      (q.status ≠ 0 → exec (e.1 k) s =
        .next (((t.freeSlot p j).accessFault p f.slot f.block f.pc f.mask (linkStatus q.status)).pumpAll p))) ∧
  (
  ∀ (s : State) (k : Nat) (r : Recv), s.links.inbox[k]? = some r → r.packet.dest = s.pkgNo →
    r.packet.e2eCrc = crc32 (pktCrcBytes r.packet) → s.accepts r.packet = true →
    let p := r.packet
    let t := s.takePacket k r
    let n := p.destPtn
    let h := leAt p.payload 0 4
    let good := fenceKind h && s.validHandle n s.dealer.seq h && (s.fenceCtx n h).any (fun c => s.jobOf c == p.job)
    let w : Waiter := ⟨p.src, p.srcPtn, ⟨p.srcCtx, p.srcGen⟩, leAt p.payload 8 4, p.die⟩
    (p.type = 7 → p.op = 0 → good = false → exec (.fenceNotice k) s = .next (t.answer p 4 1 [])) ∧
    (p.type = 7 → p.op = 0 → good = true → ∃ v : State, exec (.fenceNotice k) s = .next v ∧
      ((s.fenceState n h).1 = false → hKind h = 5 → ∃ f, Tab.get? (s.ptn n).fences (hIndex h) = some f ∧
        v = (t.answer p 4 0 []).putFence n (hIndex h) { f with waiters := f.waiters ++ [w] }) ∧
      ((s.fenceState n h).1 = true → ∃ c, v = (t.answer p 4 0 []).notify n h c (s.fenceState n h).2 [w])) ∧
    (p.type = 7 → p.op = 1 → ∃ v : State, exec (.fenceNotice k) s = .next v ∧ (v.ptn n).remoteWaits =
      (s.ptn n).remoteWaits.map (fun y => if y.pkg = p.src ∧ y.tag = leAt p.payload 8 4 then
        { y with signalled := true, error := bit (leAt p.payload 4 4) 1 } else y)) ∧
    (p.type = 8 → (∀ m, ∀ u ∈ (s.ptn m).updates, u.stage ≠ .computed) → ∃ v : State, exec (.openNotice k) s = .next v ∧
      (v.ptn n).opens = (s.ptn n).opens ++ [⟨p.src, p.srcPtn, ⟨p.srcCtx, p.srcGen⟩, ⟨p.destCtx, p.destGen⟩,
        leAt p.payload 16 4, leAt p.payload 0 8, leAt p.payload 8 8⟩])) ∧
  (
  ∀ (s : State),
    (∀ (p j a pkg : Nat) (f : FarReq) (b : Block) (d : Disp), p < 192 → j < 64 → Tab.get? (s.work p).slots j = some f →
      f.place = .remote pkg a → f.act.isMover = false → (s.work p).farWait = [] → Tab.get? (s.work p).blocks f.block = some b →
      s.disp? b.cid = some d → d.status = 0 → ∃ (v : State) (d' : Disp), exec (.remoteTimeout (.slot p j)) s = .next v ∧
        Tab.get? (v.work p).slots j = none ∧ Tab.get (v.core p).epochs j 0 = (Tab.get (s.core p).epochs j 0 + 1) % 4 ∧
        v.disp? b.cid = some d' ∧ d'.status = 0x0801) ∧
    (∀ (n q e : Nat) (k : Cmd) (w : RemoteWait), n < 16 → q < 64 → s.cmd? ⟨n, q, e⟩ = some k →
      k.stage = .read ∨ k.stage = .waiting → w ∈ (s.ptn n).remoteWaits → w.cid = ⟨n, q, e⟩ → w.acked = false →
      w.signalled = false → ∃ (v : State) (k' : Cmd), exec (.remoteTimeout (.wait n q e)) s = .next v ∧
        v.cmd? ⟨n, q, e⟩ = some k' ∧ k'.status = 0x0801) ∧
    (∀ (p a : Nat) (f : Fill) (r : CopyRun) (b : Block) (d : Disp), p < 192 → f ∈ s.fills → f.p = p → f.addr = a →
      (∀ g ∈ s.fills, g.p = p → g.addr = a → g = f) →
      ((s.work p).chan f.ch).runs.find? (fun x => x.entry.stamp == f.copy) = some r →
      Tab.get? (s.work p).blocks r.entry.block = some b → s.disp? b.cid = some d → d.status = 0 →
      ∃ (v : State) (d' : Disp), exec (.remoteTimeout (.fill p a)) s = .next v ∧
        (∀ g ∈ v.fills, g.p = p → g.addr ≠ a) ∧ v.disp? b.cid = some d' ∧ d'.status = 0x0801) ∧
    (∀ (n e : Nat), n < 16 → (∀ f ∈ (s.ptn n).fixRuns, f.cid ≠ ⟨n, 0, e⟩) → (s.ptn n).restores ≠ [] →
      ∃ v : State, exec (.remoteTimeout (.fix n 0 e)) s = .next v ∧ (v.ptn n).restores = [] ∧
        fld (v.reg (Reg.fixRestore n)) 18 15 = 4) ∧
    ∀ (n q e : Nat) (k : Cmd) (f : FixRun), n < 16 → q < 64 → s.cmd? ⟨n, q, e⟩ = some k → f ∈ (s.ptn n).fixRuns →
      f.cid = ⟨n, q, e⟩ → ∃ (v : State) (k' : Cmd), exec (.remoteTimeout (.fix n q e)) s = .next v ∧
        v.cmd? ⟨n, q, e⟩ = some k' ∧ k'.stage = .ended ∧ k'.status = 0x0801)

/-- Training. The channel that its controller trains, the lowest still in training, is up once trained: in service at the
trial rate, every data byte of it zero, MEM_CHANNEL_UP raised with the rate. A channel that fails in training, or in a
retrain, tries one rate lower, and at code 0 it is retired at once, with a logbook entry to come. A channel that is not the
one in training stays as it is. A retrain that is done puts the channel back in service at its trial rate and changes no
byte. What a powered channel does in service: a refresh of a bank, the refresh rate the device asks for, the device's
corrections in MEM_LINK_CORRECTED, and the patrol scrub of one unit: a good unit stays, one with one flipped bit is
corrected and counted in MEM_ECC_CORRECTED, one beyond correction is poison and counted in MEM_ECC_UNCORRECTABLE, raising
no fault; unit 0 begins a scrub period. No byte of memory changes. A channel not in service does none of it.
FRAME_MIGRATED: the first frame still to move off a channel being retired lies, after it, on another channel of the
partition, byte for byte, and no other frame in use on another channel has moved. With the last one moved the channel is
off and out of the partition, and its logbook entry is to come. With no migration nothing happens. In part the model's
choice: log entries 23, 24, 39, 41, 42, 43 and 50. -/
def Obligations.MemoryChannels : Prop :=
  (
  ∀ (s : State) (c : Nat), c < 200 →
    let x := s.chan c
    let now : Prop := x.state = 1 ∧ ∀ d, d < c → d / 48 = c / 48 → (s.chan d).state ≠ 1
    (¬now → exec (.channelTrained c) s = .next s) ∧
    (now → ∃ (v : State) (i : Nat), exec (.channelTrained c) s = .next v ∧
      (v.chan c).state = 2 ∧ (v.chan c).rate = x.trial ∧ (⟨i, .memChannelUp, c, x.trial⟩ : Event) ∈ v.dealer.events ∧
      (c < 192 → ∀ q, q < 9512681472 → v.byteAt (.chan c q) = 0) ∧
      (192 ≤ c → ∀ a, a / 4096 % 8 = c - 192 → v.byteAt (.host a) = 0)) ∧
    (¬now → x.state ≠ 3 → exec (.rateStepDown c) s = .next s) ∧
    (now ∨ x.state = 3 → 0 < x.trial → exec (.rateStepDown c) s = .next (s.setChan c { x with trial := x.trial - 1 })) ∧
    (now ∨ x.state = 3 → x.trial = 0 → ∃ (v : State) (p : Pending), exec (.rateStepDown c) s = .next v ∧
      (v.chan c).state = 5 ∧ p ∈ v.setup.waiting ∧ p.change = .retire c ∧ ∀ d, d ≠ c → v.chan d = s.chan d) ∧
    (x.state = 3 → exec (.channelRetrainDone c) s = .next (s.setChan c { x with state := 2, rate := x.trial })) ∧
    (x.state ≠ 3 → exec (.channelRetrainDone c) s = .next s)) ∧
  (
  ∀ (s : State) (c bank rate n k : Nat), c < 200 → bank < 32 → (s.chan c).state = 2 ∨ (s.chan c).state = 3 ∨ (s.chan c).state = 4 →
    let x := s.chan c
    exec (.perBankRefresh c bank) s = .next (s.setChan c { x with banks := Tab.set x.banks bank (Tab.get x.banks bank 0 + 1) }) ∧
    exec (.refreshRateCheck c rate) s = .next (s.setChan c { x with refresh := rate }) ∧
    exec (.deviceCorrectionRead c n) s =
      .next (s.setChan c { x with counters := Tab.set x.counters 0 (Tab.get x.counters 0 0 + BitVec.ofNat 64 n) }) ∧
    (k < 9512681472 / 128 →
      let u := unitOf (unitPlace c k)
      let bad : Prop := u ∈ s.poison ∨ Tab.get s.flips u 0 = 2
      (¬bad → Tab.get s.flips u 0 ≠ 1 → exec (.patrolScrub c k) s =
        .next (if k = 0 then s.setChan c { x with periodFix := [] } else s)) ∧
      (¬bad → Tab.get s.flips u 0 = 1 → ∃ v : State, exec (.patrolScrub c k) s = .next v ∧ Tab.get v.flips u 0 = 0 ∧
        Tab.get (v.chan c).counters 1 0 = Tab.get x.counters 1 0 + 1 ∧ v.poison = s.poison ∧ v.cmem = s.cmem) ∧
      (bad → ∃ v : State, exec (.patrolScrub c k) s = .next v ∧ u ∈ v.poison ∧
        Tab.get (v.chan c).counters 2 0 = Tab.get x.counters 2 0 + 1 ∧ v.dealer.records = s.dealer.records ∧
        v.cores = s.cores ∧ v.cmem = s.cmem ∧ v.hmem = s.hmem))) ∧
  (
  ∀ (s : State) (c bank rate n k : Nat), c < 200 → bank < 32 → (s.chan c).state ≠ 2 → (s.chan c).state ≠ 3 → (s.chan c).state ≠ 4 →
    ∀ i ∈ ([.perBankRefresh c bank, .refreshRateCheck c rate, .deviceCorrectionRead c n, .patrolScrub c k] : List Instr),
      i.wf = true → exec i s = .next s) ∧
  (
  (∀ s : State, s.migr = [] → exec .frameMigrated s = .next s) ∧
  ∀ (s : State) (m : Migration) (rest : List Migration) (f : Nat) (fs : List Nat) (src : Nat × Nat),
    s.memWf → s.migr = m :: rest → m.frames = f :: fs →
    let x := s.ptn m.ptn
    let used := rangeFrames (s.usedRanges m.ptn)
    x.frame? f = some src → src.1 = m.chan → f ∈ used → (∃ g, g < x.frameCount ∧ s.frameFree m.ptn m.chan used g = true) →
    s.ptnOfChan m.chan = some m.ptn →
    ∃ (v : State) (dst : Nat × Nat), exec .frameMigrated s = .next v ∧
      (v.ptn m.ptn).frame? f = some dst ∧ dst.1 ≠ m.chan ∧
      (src.2 < 4536 → dst.2 < 4536 → ∀ i, i < 2097152 →
        v.byteAt (.chan dst.1 (dst.2 * 2097152 + i)) = s.byteAt (.chan src.1 (src.2 * 2097152 + i))) ∧
      (∀ h e, h ∈ used → x.frame? h = some e → e.1 ≠ m.chan → (v.ptn m.ptn).frame? h = some e) ∧
      (fs ≠ [] → v.migr = { m with frames := fs } :: rest ∧ v.chans = s.chans) ∧
      (fs = [] → v.migr = rest ∧ (v.chan m.chan).state = 5 ∧ m.chan ∈ (v.ptn m.ptn).gone ∧
        ∃ p ∈ v.setup.waiting, p.change = .retire m.chan))

/-- What a write makes of each field of a register, by the writer's role: RO and reserved bits stay; an RW field takes the
value of a role that may write it; a W1C bit written with 1 by such a role clears; a WO bit written with 1 by such a role
acts. The write is denied where a role not listed would change an RW field, clear a W1C bit that holds 1, or act. Ignored
and denied writes are recorded in SETUP_ERR: the address, the agent, the cause, one more in COUNT up to 65,535, and VALID,
SETUP_DENIED being raised where VALID was 0. The cause is 4 where no register stands at the address, 3 where the size or
place does not fit, 5 for a register of a partition that is not open, 2 for a denied write with no session and 1 for a
denied write of a role that may not. A write behind one of the same register that waits for the logbook waits too. In part
the model's choice: log entries 74 and 75. -/
def Obligations.WritesJudged : Prop :=
  (
  ∀ (o role : Nat) (f : RegForm) (old v : DWord), regForm o = some f →
    let j := judge f role old v
    (∀ x ∈ f.fields,
      let new := fld v x.hi x.lo
      let was := fld old x.hi x.lo
      fld j.new_ x.hi x.lo = (if role ∉ x.roles then was else match x.acc with
        | .rw => new
        | .rws => new
        | .w1c => if new ≠ 0 then 0 else was
        | _ => was) ∧
      (x.acc = .wo → (j.acts x.lo = true ↔ new ≠ 0 ∧ role ∈ x.roles))) ∧
    (∀ b, b < 64 → (∀ x ∈ f.fields, b < x.lo ∨ x.hi < b) → j.new_.getLsbD b = old.getLsbD b) ∧
    (j.denied = true ↔ ∃ x ∈ f.fields, role ∉ x.roles ∧
      ((x.acc = .rw ∨ x.acc = .rws) ∧ fld v x.hi x.lo ≠ fld old x.hi x.lo ∨
        x.acc = .w1c ∧ fld v x.hi x.lo ≠ 0 ∧ fld old x.hi x.lo ≠ 0 ∨ x.acc = .wo ∧ fld v x.hi x.lo ≠ 0))) ∧
  (
  ∀ (s : State) (o : Nat) (w : RegWrite), (w.agent = 1 ∨ w.agent = 2) → s.reaches w.agent = true → o % 8 = 0 → o < 2 ^ 20 →
    let err := s.reg Reg.setupErr
    let records (k : Nat) : Prop := ∃ v : State, exec (.registerWrite o w) s = .next v ∧
      fld (v.reg Reg.setupErr) 19 0 = o ∧ fld (v.reg Reg.setupErr) 27 20 = w.agent ∧ fld (v.reg Reg.setupErr) 31 28 = k ∧
      fld (v.reg Reg.setupErr) 47 32 = min 65535 (fld err 47 32 + 1) ∧ fld (v.reg Reg.setupErr) 63 63 = 1 ∧
      (fld err 63 63 = 0 → ∃ i, (⟨i, .setupDenied, o, k⟩ : Event) ∈ v.dealer.events)
    let fits (f : RegForm) : Prop := w.width = 8 ∧ w.at4 = 0 ∨ w.width = 4 ∧ w.at4 = 0 ∧ f.wide = false
    let value (f : RegForm) : DWord := if f.wide then w.value else BitVec.ofNat 64 (w.value.toNat % 2 ^ 32)
    (s.regWaits o = true → exec (.registerWrite o w) s =
      .next (s.setSetup { s.setup with behind := s.setup.behind ++ [⟨o, w, s.pkg.straps⟩] })) ∧
    (s.regWaits o = false → regForm o = none → records 4) ∧
    (∀ f, s.regWaits o = false → regForm o = some f → w.at4 = 0 → ¬fits f → records 3) ∧
    (∀ f n, s.regWaits o = false → regForm o = some f → fits f → ptnOfOffset o = some n → o ≠ Reg.ptnCtl n →
      s.isOpen n = false → records 5) ∧
    (∀ f, s.regWaits o = false → regForm o = some f → fits f → (∀ n, ptnOfOffset o = some n → s.isOpen n = true) →
      o < 0x4000 ∨ 0x5000 ≤ o → o ≠ Reg.setupErr → o ≠ Reg.counterSel →
      (judge f (s.roleOf w.agent) (s.reg o) (value f)).denied = true →
      records (if s.roleOf w.agent = 0 then 2 else 1)))

/-- Writes that wait for the logbook. A change that a register's own rule refuses sets its REFUSED bit and writes nothing;
any other waits for its entry, the register unchanged till then: HELM_LIMIT, HOLD_MODE, NV_BEARING, PTN_LAYOUT, PTN_CTL
opening and closing, PTN_SEAL, NV_PORT_CTL down and retrain, NV_DETOUR commit and load, FLT_INJECT, FW_CTL, PKG_POWER off
and on, and MTR_CAL, each changed field with an entry of its own. A writer that is not an operator loads nothing into
NV_DETOUR. In part the model's choice: log entries 75 and 100. -/
def Obligations.LoggedWrites : Prop :=
  ∀ (s : State) (w : RegWrite) (j : Judged) (n k : Nat) (straps : BitVec 22), n < 16 → k < 24 →
    let v := j.new_
    let waits (i : Instr) (o : Nat) (c : Change) : Prop := ∃ t : State, exec i s = .next t ∧ s.logs t o w c
    let refused (i : Instr) (o b : Nat) : Prop := exec i s = .next (s.setField o b b 1)
    let noWatts : Prop := fld v 11 0 ≠ fld j.old 11 0 ∧ (fld v 11 0 < 400 ∨ sustained (fld v 17 16) < fld v 11 0)
    let noSplit : Prop := (∃ d ∈ (s.ptn n).disps, d.granted = true) ∨ (fld v 0 0 = 1 ∧ ∀ m, m < 24 → (s.port m).state < 2) ∨ (fld v 0 0 = 1 ↔ fld v 3 1 = 0)
    let noBearing : Prop := (∃ m, m < 24 ∧ 2 ≤ (s.port m).state) ∨ (fld v 24 24 = 1 ∧
      (fld v 15 12 < fld v 3 0 ∨ fld v 19 16 < fld v 7 4 ∨ fld v 23 20 < fld v 11 8))
    (s.performs Reg.helmLimit w j → j.rw = true →
      (¬noWatts → waits (.helmLimitWrite w) Reg.helmLimit (.reg Reg.helmLimit
        (if fld v 11 0 = fld j.old 11 0 ∧ sustained (fld v 17 16) < fld v 11 0 then setFld v 11 0 (sustained (fld v 17 16)) else v))) ∧
      (noWatts → refused (.helmLimitWrite w) Reg.helmStatus 22)) ∧
    (s.performs (Reg.holdMode n) w j → j.rw = true → (¬noSplit → waits (.holdModeWrite n w) (Reg.holdMode n) (.holdMode n v)) ∧
      (noSplit → refused (.holdModeWrite n w) (Reg.holdMode n) 31)) ∧
    (s.performs Reg.nvBearing w j → j.rw = true → (¬noBearing → waits (.nvBearingWrite w) Reg.nvBearing (.bearing v)) ∧
      (noBearing → refused (.nvBearingWrite w) Reg.nvBearing 31)) ∧
    (s.performs Reg.ptnLayout w j → j.rw = true →
      ((∀ m, m < 16 → s.isOpen m = false) → waits (.ptnLayoutWrite w) Reg.ptnLayout (.layout v)) ∧
      ((∃ m, m < 16 ∧ s.isOpen m = true) → refused (.ptnLayoutWrite w) Reg.ptnLayout 31)) ∧
    (s.performs (Reg.ptnCtl n) w j → j.rw = true → fld v 0 0 = 1 →
      (n < s.ptnCount → s.chansOf n ≠ [] → waits (.ptnOpen n w) (Reg.ptnCtl n) (.ptnOpen n v)) ∧
      (s.ptnCount ≤ n ∨ s.chansOf n = [] → refused (.ptnOpen n w) (Reg.ptnCtl n) 31)) ∧
    (s.performs (Reg.ptnCtl n) w j → j.rw = true → fld v 0 0 = 0 →
      ((∀ e ∈ s.ctxs, e.2.ptn ≠ n) → waits (.ptnClose n w) (Reg.ptnCtl n) (.ptnClose n v)) ∧
      ((∃ e ∈ s.ctxs, e.2.ptn = n) → refused (.ptnClose n w) (Reg.ptnCtl n) 31)) ∧
    (s.performs (Reg.ptnSeal n) w j → j.rw = true →
      (s.sealBad n v = false → waits (.ptnSealWrite n w) (Reg.ptnSeal n) (.reg (Reg.ptnSeal n) v)) ∧
      (s.sealBad n v = true → refused (.ptnSealWrite n w) (Reg.ptnSeal n) 31)) ∧
    (s.performs (Reg.nvPortCtl k) w j → fld v 0 0 ≠ fld j.old 0 0 →
      waits (.nvPortCtlDown k w) (Reg.nvPortCtl k) (.portDown k v)) ∧
    (s.performs (Reg.nvPortCtl k) w j → j.acts 1 = true → fld v 0 0 = 0 → fld j.old 0 0 = 0 →
      waits (.nvPortCtlRetrain k w) (Reg.nvPortCtl k) (.portRetrain k v)) ∧
    (s.performs Reg.nvDetour w j → j.acts 16 = true →
      waits (.nvDetourCommit w) Reg.nvDetour (.detour (setFld v 16 16 1))) ∧
    (s.performs Reg.nvDetour w j → s.roleOf w.agent ≠ 1 → exec (.nvDetourLoad w) s = .next (s.setReg Reg.nvDetour v)) ∧
    (s.performs Reg.nvDetour w j → s.roleOf w.agent = 1 → w.value.getLsbD 16 = false →
      let e := Tab.get s.links.detours (fld v 11 0) (0, false)
      let u := setFld (setFld v 14 12 e.1) 15 15 (if e.2 then 1 else 0)
      (u ≠ j.old → waits (.nvDetourLoad w) Reg.nvDetour (.reg Reg.nvDetour u)) ∧
      (u = j.old → exec (.nvDetourLoad w) s = .next s)) ∧
    (s.performs Reg.fltInject w j → j.acts 56 = true →
      let may := s.mayInject (s.roleOf w.agent) (fld v 15 0) (fld v 47 16) (fld v 55 48)
      (may = true → waits (.fltInjectArm w) Reg.fltInject (.inject v)) ∧
      (may = false → refused (.fltInjectArm w) Reg.fltInject 63)) ∧
    (s.performs Reg.fwCtl w j → j.acts 6 = true → s.pkg.fw = [] → waits (.fwCtlGo w) Reg.fwCtl (.firmware v)) ∧
    (s.performs Reg.pkgPower w j → j.acts 0 = true → j.acts 1 = false →
      (s.ctxs = [] → waits (.pkgPowerOff w) Reg.pkgPower .powerOff) ∧
      (s.ctxs ≠ [] → refused (.pkgPowerOff w) Reg.pkgPower 31)) ∧
    (s.performs Reg.pkgPower w j → j.acts 1 = true → s.pkg.start = .off →
      waits (.pkgPowerOn w straps) Reg.pkgPower (.powerOn straps)) ∧
    (∀ c, c < 12 → s.performs (Reg.mtrCal c) w j → ∃ (t : State) (ps : List Pending),
      exec (.registerWrite (Reg.mtrCal c) w) s = .next t ∧ t.setup.waiting = s.setup.waiting ++ ps ∧ t.setup.regs = s.setup.regs ∧
      ps.map (·.change) = ([(15, 0), (31, 16), (51, 32)].filter (fun f => fld v f.1 f.2 ≠ fld j.old f.1 f.2)).map
        (fun f => .sealWrite (Reg.mtrCal c) f.1 f.2 (fld v f.1 f.2)))

/-- Writes of partition registers that take effect at once. PASS_SCHED: BIAS 3 is refused, else every streak of the
partition's arrays is 0. STASH_CFG, HOLD_OWNER, FENCE_MIRROR: refused by their rules, else stored; a new owner finds the
scratch zero; a mirror turned on holds every fence's word. FIX_RESTORE: GO for no open context ends with RESULT 1, for one
with a running command with RESULT 5; from a partner that can be reached it reads the stream. ADMINQ_CTL: EN starts an
empty queue 0 of class normal and of the sizes named; clearing it drains; a new size while it is on is refused. In part the
model's choice: log entries 77 and 78. -/
def Obligations.PartitionWrites : Prop :=
  ∀ (s : State) (w : RegWrite) (j : Judged) (n : Nat), n < 16 →
    let v := j.new_
    let refused (i : Instr) (o b : Nat) : Prop := exec i s = .next (s.setField o b b 1)
    let x := s.ptn n
    (s.performs (Reg.passSched n) w j → (fld v 1 0 = 3 → refused (.passSchedWrite n w) (Reg.passSched n) 31) ∧
      (fld v 1 0 ≠ 3 → ∃ t : State, exec (.passSchedWrite n w) s = .next t ∧ t.reg (Reg.passSched n) = v ∧
        (∀ p ∈ s.coresOf n, ∀ a, ((t.work p).array a).streak = 0) ∧ ∀ p, p ∉ s.coresOf n → t.core p = s.core p)) ∧
    (s.performs (Reg.stashCfg n) w j →
      (s.stashBad n v = true → refused (.stashCfgWrite n w) (Reg.stashCfg n) 63) ∧
      (s.stashBad n v = false → exec (.stashCfgWrite n w) s = .next (s.setReg (Reg.stashCfg n) v))) ∧
    (s.performs (Reg.holdOwner n) w j → j.rw = true →
      (s.ownerBad n j.old v = true → refused (.holdOwnerWrite n w) (Reg.holdOwner n) 31) ∧
      (s.ownerBad n j.old v = false → ∃ t : State, exec (.holdOwnerWrite n w) s = .next t ∧ t.reg (Reg.holdOwner n) = v ∧
        (∀ q ∈ s.quartersOf n, Tab.get? t.hold q = none) ∧ (∀ q, q ∉ s.quartersOf n → Tab.get? t.hold q = Tab.get? s.hold q) ∧
        t.cache = s.cache)) ∧
    (s.performs (Reg.fenceMirror n) w j → j.rw = true → s.memWf →
      (76101451776 < fld v 51 12 * 4096 + 131072 → refused (.fenceMirrorWrite n w) (Reg.fenceMirror n) 63) ∧
      (fld v 51 12 * 4096 + 131072 ≤ 76101451776 → ∃ t : State, exec (.fenceMirrorWrite n w) s = .next t ∧
        t.reg (Reg.fenceMirror n) = v ∧
        (fld v 0 0 = 1 → fld j.old 0 0 = 0 → (x.fences.map (·.1)).Nodup → ∀ e ∈ x.fences,
          t.hostRead (fld v 51 12 * 4096 + 8 * e.1) 8 = natLe 8 (mirrorWord e.2 (s.dealer.seq + 1))) ∧
        (fld v 0 0 = 0 → t.hmem = s.hmem))) ∧
    (s.performs (Reg.fixRestore n) w j → j.acts 13 = true → x.restores = [] →
      let result (t : State) (k : Nat) : Prop := exec (.fixRestoreGo n w) s = .next t ∧ fld (t.reg (Reg.fixRestore n)) 14 14 = 0 ∧
        fld (t.reg (Reg.fixRestore n)) 18 15 = k ∧ (t.ptn n).objs = x.objs ∧ t.cmem = s.cmem
      (Tab.get? s.ctxs (fld v 11 0) = none → ∃ t, result t 1) ∧
      ∀ c, Tab.get? s.ctxs (fld v 11 0) = some c → c.ptn = n → c.torn = 0 →
        (s.ctxRuns n ⟨fld v 11 0, c.gen⟩ = true → ∃ t, result t 5) ∧
        (s.ctxRuns n ⟨fld v 11 0, c.gen⟩ = false → fld v 12 12 = 0 → fld (s.reg (Reg.fixPartner n)) 16 16 = 1 →
          (s.namesPkg (s.partner n).1 = false → ∃ t, result t 4) ∧
          (s.namesPkg (s.partner n).1 = true → ∃ (t : State) (r : Restore), exec (.fixRestoreGo n w) s = .next t ∧
            (t.ptn n).restores = [r] ∧ r.ctx = ⟨fld v 11 0, c.gen⟩ ∧ r.got = [] ∧ fld (t.reg (Reg.fixRestore n)) 14 14 = 1))) ∧
    (s.performs (Reg.adminqCtl n) w j →
      (fld j.old 0 0 = 1 → fld v 10 1 ≠ fld j.old 10 1 → refused (.adminqCtlWrite n w) (Reg.adminqCtl n) 31) ∧
      (fld j.old 0 0 = 0 → fld v 0 0 = 1 → x.draining = false →
        (s.adminBad n v = true → refused (.adminqCtlWrite n w) (Reg.adminqCtl n) 31) ∧
        (s.adminBad n v = false → ∃ (t : State) (q : Queue), exec (.adminqCtlWrite n w) s = .next t ∧ t.queue? n 0 = some q ∧
          q.cls = 1 ∧ q.sqLog2 = fld v 5 1 ∧ q.cqLog2 = fld v 10 6 ∧ q.vector = fld v 21 11 ∧ q.sqHead = 0 ∧ q.sqTail = 0 ∧ q.records = 0 ∧
          q.sqBase = (s.reg (Reg.adminqSq n)).toNat ∧ q.cqBase = (s.reg (Reg.adminqCq n)).toNat ∧
          q.doorbell = (s.reg (Reg.adminqDoorbell n)).toNat ∧ q.registered = true)) ∧
      (fld j.old 0 0 = 1 → fld v 0 0 = 0 → fld v 10 1 = fld j.old 10 1 → (∃ k ∈ x.cmds, k.queue = 0) →
        ∃ t : State, exec (.adminqCtlWrite n w) s = .next t ∧ (t.ptn n).draining = true ∧
          fld (t.reg (Reg.adminqCtl n)) 0 0 = 0 ∧ fld (t.reg (Reg.adminqCtl n)) 23 23 = 1))

/-- Writes of package registers that take effect at once. NV_PEER: refused for a context that is not open or has no job;
COMMIT stores the entry of its package, an operator’s write without COMMIT loads it. MEM_CHAN_CTL: RETIRE begins to move
the channel's frames, or takes it off where it has none, RETRAIN retrains a channel in service at its rate, CLEAR_RETIRED
takes it off the list; each is refused by its rule. FLT_RING: LOG2 1 to 5, or above 16, is refused. SETUP_ERR: clearing
VALID clears COUNT. HOST_POOL: refused above the pool or with host objects. MEM_CFG: refused for a reserved RATE or
SCRUB_HOURS 0. In part the model's choice: log entries 23 and 86. -/
def Obligations.PackageWrites : Prop :=
  ∀ (s : State) (w : RegWrite) (j : Judged) (c : Nat), c < 200 →
    let v := j.new_
    let refused (i : Instr) (o b : Nat) : Prop := exec i s = .next (s.setField o b b 1)
    let stored (i : Instr) (o : Nat) : Prop := exec i s = .next (s.setReg o v)
    let ctl := Reg.memChanCtl c
    let busy : Prop := s.retireRefused c = true ∨ s.field Reg.mtrStatus 8 8 = 1
    (s.performs Reg.nvPeer w j → s.roleOf w.agent ≠ 1 → exec (.nvPeerLoad w) s = .next (s.setReg Reg.nvPeer v)) ∧
    (∀ commit : Bool, s.performs Reg.nvPeer w j → s.roleOf w.agent = 1 → w.value.getLsbD 49 = commit →
      let row : Instr := if commit then .nvPeerCommit w else .nvPeerLoad w
      let o : Option Ctx := (Tab.get? s.ctxs (fld v 11 0)).filter (fun t => t.torn == 0 && t.job != 0)
      (o = none → refused row Reg.nvPeer 63) ∧
      ∀ t, o = some t → ∃ u : State, exec row s = .next u ∧
        (commit = true → u.reg Reg.nvPeer = v ∧ ∃ t', Tab.get? u.ctxs (fld v 11 0) = some t' ∧
          Tab.get? t'.peers (fld v 23 12) = (if fld v 48 48 = 1 then some ⟨fld v 27 24, fld v 39 28, fld v 47 40⟩ else none)) ∧
        (commit = false → u.ctxs = s.ctxs ∧ fld (u.reg Reg.nvPeer) 23 0 = fld v 23 0 ∧
          ∀ e, Tab.get? t.peers (fld v 23 12) = some e → e.ptn < 16 → e.ctx < 4096 → e.gen < 256 →
            fld (u.reg Reg.nvPeer) 27 24 = e.ptn ∧ fld (u.reg Reg.nvPeer) 39 28 = e.ctx ∧ fld (u.reg Reg.nvPeer) 47 40 = e.gen ∧
            fld (u.reg Reg.nvPeer) 48 48 = 1)) ∧
    (s.performs ctl w j → j.acts 0 = true → j.acts 1 = false → j.acts 2 = false →
      (busy → refused (.memChanCtlRetire c w) ctl 31) ∧
      (¬busy → ∃ (t : State) (n : Nat), exec (.memChanCtlRetire c w) s = .next t ∧ s.ptnOfChan c = some n ∧
        (s.framesUsed n c ≠ [] → (t.chan c).state = 4 ∧ ∃ m, t.migr = [m] ∧ m.chan = c ∧ m.ptn = n ∧ m.frames = s.framesUsed n c) ∧
        (s.framesUsed n c = [] → (t.chan c).state = 5 ∧ t.migr = [] ∧ ∃ p ∈ t.setup.waiting, p.change = .retire c))) ∧
    (s.performs ctl w j → j.acts 0 = false → j.acts 1 = true → j.acts 2 = false →
      let x := s.chan c
      (x.state = 4 ∨ x.state = 5 → refused (.memChanCtlRetrain c w) ctl 31) ∧
      (x.state = 2 → exec (.memChanCtlRetrain c w) s = .next ((s.setReg ctl v).setChan c { x with state := 3, trial := x.rate }))) ∧
    (s.performs ctl w j → j.acts 0 = false → j.acts 1 = false → j.acts 2 = true → ∃ t : State,
      exec (.memChanCtlClearRetired c w) s = .next t ∧ t.chans = s.chans ∧
      ∀ d, d ∈ t.meter.retired ↔ d ∈ s.meter.retired ∧ d ≠ c) ∧
    (s.performs Reg.fltRing w j → let k := fld v 4 0
      (k ≠ 0 → k < 6 ∨ 16 < k → refused (.fltRingWrite w) Reg.fltRing 63) ∧
      (k = 0 ∨ 6 ≤ k ∧ k ≤ 16 → s.dealer.kept = [] → ∃ t : State, exec (.fltRingWrite w) s = .next t ∧
        t.reg Reg.fltRing = v ∧ (fld (s.reg Reg.fltRingPtr) 31 0 ≠ fld (s.reg Reg.fltRingPtr) 63 32 → t.reg Reg.fltRingPtr = 0) ∧
        (fld (s.reg Reg.fltRingPtr) 31 0 = fld (s.reg Reg.fltRingPtr) 63 32 → t.reg Reg.fltRingPtr = s.reg Reg.fltRingPtr))) ∧
    (s.performs Reg.setupErr w j → w.value.getLsbD 63 = true → fld j.old 63 63 = 1 → ∃ t : State,
      exec (.setupErrClear w) s = .next t ∧ fld (t.reg Reg.setupErr) 63 63 = 0 ∧ fld (t.reg Reg.setupErr) 47 32 = 0 ∧
      fld (t.reg Reg.setupErr) 31 0 = fld (s.reg Reg.setupErr) 31 0) ∧
    (s.performs Reg.hostPool w j → j.rw = true →
      let bad : Prop := 36288 < fld v 19 0 + fld v 39 20 ∨ ∃ p ∈ s.ptns, ∃ o ∈ p.2.objs, o.2.host = true
      (bad → refused (.hostPoolWrite w) Reg.hostPool 63) ∧ (¬bad → stored (.hostPoolWrite w) Reg.hostPool)) ∧
    (s.performs Reg.memCfg w j → j.rw = true →
      let bad : Prop := 4 < fld v 2 0 ∨ fld v 10 3 = 0
      (bad → refused (.registerWrite Reg.memCfg w) Reg.memCfg 31) ∧ (¬bad → stored (.registerWrite Reg.memCfg w) Reg.memCfg))

/-- Mailbox channels, for an agent that exists. A read of a free lock takes it and returns 0, any other returns the holder.
The holder of a channel with no message unread may write the pointer, post it to another agent that exists, which sets FULL
and raises that agent's interrupt, or unlock; writes of others change nothing. The destination's read of a full channel
returns the pointer and puts the channel at its defaults; any other read of the pointer returns 0. MBX_STATUS reads as
FULL, OWNER and DEST stand. COUNTER_DATA_READ: an agent with an operator session, a helm core or the meter die reads the
counter that its COUNTER_SEL names, whole or its low 32 bits (a core's counter of unseen beats first counts a free number
of them, which takes it no lower), or 0 where it names none; any other agent reads 0, the read being recorded in SETUP_ERR.
In part the model's choice: log entries 79 and 115. -/
def Obligations.MailboxesAndCounters : Prop :=
  (
  ∀ (s : State) (agent ch : Nat) (v : DWord) (dest : BitVec 8), s.reaches agent = true → ch < 64 →
    let m := s.mbox ch
    let holds : Prop := m.owner = agent ∧ m.full = false
    let may : Prop := s.reaches dest.toNat = true ∧ dest.toNat ≠ agent
    let gives (i : Instr) (x : Mbx) (r : DWord) : Prop := ∃ t : State, exec i s = .next t ∧ t.mbox ch = x ∧
      (∀ d, d ≠ ch → t.mbox d = s.mbox d) ∧ Tab.get t.setup.reads agent 0 = r
    (m.owner < 256 → m.dest < 256 → let r := s.readReg agent (0x4018 + 64 * ch)
      (fld r 0 0 = 1 ↔ m.full = true) ∧ fld r 15 8 = m.owner ∧ fld r 23 16 = m.dest) ∧
    (m.owner = 0 → gives (.mbxLockRead agent ch) { m with owner := agent } 0) ∧
    (m.owner ≠ 0 → gives (.mbxLockRead agent ch) m (BitVec.ofNat 64 m.owner)) ∧
    (holds → exec (.mbxMsgWrite agent ch v) s = .next (s.setMbox ch { m with msg := v })) ∧
    (¬holds → exec (.mbxMsgWrite agent ch v) s = .next s ∧ exec (.mbxPostUnlock agent ch) s = .next s ∧
      exec (.mbxPostDest [] agent ch dest) s = .next s) ∧
    (m.full = true → m.dest = agent → gives (.mbxMsgRead agent ch) ⟨0, 0, false, 0⟩ m.msg) ∧
    (¬(m.full = true ∧ m.dest = agent) → gives (.mbxMsgRead agent ch) m 0) ∧
    (holds → may → ∃ t : State, exec (.mbxPostDest [] agent ch dest) s = .next t ∧
      t.mbox ch = { m with full := true, dest := dest.toNat } ∧
      Tab.get t.dealer.mbxIrqs dest.toNat 0 = Tab.get s.dealer.mbxIrqs dest.toNat 0 + 1 ∧
      t.meter.requests = if dest.toNat = 3 then s.meter.requests ++ [⟨agent, ch, m.msg⟩] else s.meter.requests) ∧
    (holds → ¬may → exec (.mbxPostDest [] agent ch dest) s = .next s) ∧
    (holds → ∃ t : State, exec (.mbxPostUnlock agent ch) s = .next t ∧ t.mbox ch = ⟨0, 0, false, 0⟩ ∧
      ∀ d, d ≠ ch → t.mbox d = s.mbox d)) ∧
  (
  ∀ (s : State) (agent width : Nat), s.reaches agent = true →
    let sel := Tab.get s.setup.sel agent 0
    let i := fld sel 15 8
    let e := fld sel 21 16
    let reads (v : DWord) : Prop := ∃ t : State, exec (.counterDataRead agent width) s = .next t ∧
      Tab.get t.setup.reads agent 0 = (if width = 4 then BitVec.ofNat 64 (v.toNat % 2 ^ 32) else v) ∧ t.setup.regs = s.setup.regs
    (3 ≤ agent ∨ s.roleOf agent = 1 → width = 4 ∨ width = 8 →
      (fld sel 2 0 = 0 → i < 192 → 
        let was := Tab.get (s.core i).counters e 0
        (beatCounter e = false → reads was) ∧
        (beatCounter e = true → ∃ (t : State) (k : DWord), exec (.counterDataRead agent width) s = .next t ∧
          Tab.get (t.core i).counters e 0 = k ∧ was.toNat ≤ k.toNat ∧
          Tab.get t.setup.reads agent 0 = (if width = 4 then BitVec.ofNat 64 (k.toNat % 2 ^ 32) else k))) ∧
      (fld sel 2 0 = 1 → i < s.ptnCount → e < 7 → reads (Tab.get (s.ptn i).counters e 0)) ∧
      (fld sel 2 0 = 2 → i < 24 → e < 5 → reads (Tab.get (s.port i).counters e 0)) ∧
      (fld sel 2 0 = 3 → i = 0 → e < 5 → reads (Tab.get s.links.counters e 0)) ∧
      (fld sel 2 0 = 5 → i < 4 → e < 3 → reads (Tab.get s.dealer.dieCounters (3 * i + e) 0)) ∧
      (fld sel 2 0 = 4 → i < 200 → e < 3 → reads (Tab.get (s.chan i).counters e 0)) ∧
      (5 < fld sel 2 0 → reads 0)) ∧
    (agent < 3 → s.roleOf agent ≠ 1 → width = 4 ∨ width = 8 → ∃ t : State, exec (.counterDataRead agent width) s = .next t ∧
      Tab.get t.setup.reads agent 0 = 0 ∧ fld (t.reg Reg.setupErr) 31 28 = 6 ∧ fld (t.reg Reg.setupErr) 27 20 = agent))

/-- Role sessions. An open whose chain is refused is answered with RESULT 2 and logged; one whose chain is good gets a
nonce, which the meter die keeps with the role and the chain's serials. A proof with no open is answered with RESULT 4; one
whose signature is good hands the opening of the session to the logbook, one whose signature is not is answered with RESULT
3 and logged; either ends the open. A close hands the session's end to the logbook. Ten seconds end an open. The meter die
takes requests one at a time, in the order of their posts: a row for an OP other than the head's does nothing, and one with
an unknown OP is answered with RESULT 6. Requests that need a session are answered with RESULT 4 where the agent has none
and with RESULT 1 where its role lacks the right. In part the model's choice: log entries 92, 93 and 112. -/
def Obligations.RoleSessions : Prop :=
  (
  ∀ (s : State) (m : MtrReq) (rest : List MtrReq), s.memWf → m.agent = 1 ∨ m.agent = 2 →
    let kept (v : State) : Option Opening := Tab.get? v.meter.openings m.agent
    (s.asks 1 m rest → s.arg m 0 + 64 ≤ hostBytes →
      let chain := s.chainOf (s.bundleAt (s.arg m 0)) (s.arg m 1 % 8)
      ∃ v : State, exec .openSession s = .next v ∧
        (chain = none → v.answered m rest 2 ∧ s.entrusted v m 6 .nothing ∧ kept v = kept s) ∧
        ∀ l, chain = some l → v.answered m rest 0 ∧ ∃ o, kept v = some o ∧
          o.role = s.arg m 1 % 8 ∧ o.serials = l.map (·.serial) ∧ o.nonce.length = 32 ∧
          v.hostRead (m.pointer.toNat + 32) 32 = o.nonce) ∧
    (s.asks 2 m rest → kept s = none → ∃ v : State, exec .prove s = .next v ∧ v.answered m rest 4) ∧
    (s.asks 2 m rest → s.arg m 0 + 512 ≤ hostBytes → ∀ o, kept s = some o →
      let good := pssVerify o.modulus (o.nonce ++ natLe 8 Config.serial ++ natLe 1 m.agent ++ natLe 1 o.role)
        (s.hostRead (s.arg m 0) 512)
      ∃ v : State, exec .prove s = .next v ∧ kept v = none ∧
        (good = true → s.entrusted v m 5 (.sessionOpen m.agent o.role o.serials) ∧ v.meter.sessions = s.meter.sessions) ∧
        (good = false → v.answered m rest 3 ∧ s.entrusted v m 6 .nothing)) ∧
    (s.asks 3 m rest → s.roleOf m.agent ∈ [1, 2, 3] → ∃ v : State, exec .closeSession s = .next v ∧
      s.entrusted v m 7 (.sessionClose m.agent)) ∧
    ∃ v : State, exec (.sessionProveTimeout m.agent) s = .next v ∧ kept v = none ∧ v.meter.sessions = s.meter.sessions) ∧
  (
  ∀ e ∈ ([(.openSession, 1, []), (.prove, 2, []), (.closeSession, 3, [1, 2, 3]), (.attest, 4, []), (.sink, 5, [1]),
      (.revoke, 6, [2, 3]), (.readLogbook, 7, [1, 2, 3]), (.selfRecalibrate, 8, [1, 2]), (.installMeterImage, 9, [3])] :
      List (Instr × Nat × List Nat)),
  ∀ (s : State), (s.meter.requests = [] → exec e.1 s = .next s) ∧
    ∀ (op : Nat) (m : MtrReq) (rest : List MtrReq), s.asks op m rest →
      (1 ≤ op → op ≤ 9 → op ≠ e.2.1 → exec e.1 s = .next s) ∧
      (op = 0 ∨ 9 < op → s.memWf → ∃ v : State, exec e.1 s = .next v ∧ v.answered m rest 6) ∧
      (op = e.2.1 → e.2.2 ≠ [] → s.memWf →
        (s.roleOf m.agent = 0 → ∃ v : State, exec e.1 s = .next v ∧ v.answered m rest 4) ∧
        (s.roleOf m.agent ≠ 0 → s.roleOf m.agent ∉ e.2.2 → ∃ v : State, exec e.1 s = .next v ∧ v.answered m rest 1)))

/-- The other meter requests, by an agent whose role may ask. ATTEST writes the report, which begins with the format, the
seal counter, the identity serial and the nonce, and its signature. SINK registers a host object of the context, or none.
REVOKE hands the serial to the logbook, an installer's only for its own certificate, none where the list is full.
READ_LOGBOOK copies the entries asked for. SELF_RECALIBRATE begins where both channels measure. INSTALL_METER_IMAGE hands a
verified image to the logbook, as a legally relevant change for TARGET 5. In part the model's choice: log entries 93, 94,
95 and 112. -/
def Obligations.MeterRequests : Prop :=
  ∀ (s : State) (m : MtrReq) (rest : List MtrReq), s.memWf →
    let a (i : Nat) : Nat := s.arg m i
    let role := s.roleOf m.agent
    let at_ := m.pointer.toNat
    let gives (i : Instr) (r : Nat) : Prop := ∃ v : State, exec i s = .next v ∧ v.answered m rest r
    (s.asks 4 m rest → a 1 % 4096 = 0 → a 0 + 32 ≤ hostBytes → a 1 + 0xD80 ≤ hostBytes → at_ + 64 ≤ a 1 ∨ a 1 + 0xD80 ≤ at_ →
      ∃ v : State, exec .attest s = .next v ∧ v.answered m rest 0 ∧
        v.hostRead (a 1) 48 = natLe 4 1 ++ natLe 4 s.meter.sealNo ++ natLe 8 Config.serial ++ s.hostRead (a 0) 32 ∧
        v.hostRead (a 1 + 0xB80) 512 = natBe 512 (Config.sign (v.hostRead (a 1) 0xB80) s.fresh)) ∧
    (s.asks 5 m rest → role = 1 → a 0 < 2 ^ 32 → a 0 / 2 ^ 28 = 1 → ∀ c, Tab.get? s.ctxs (a 0 % 2 ^ 20) = some c →
      c.gen = a 0 / 2 ^ 20 % 2 ^ 8 → c.torn = 0 →
      let sinks (l : List Nat) : Prop := ∃ v : State, exec .sink s = .next v ∧ v.answered m rest 0 ∧
        Tab.get? v.ctxs (a 0 % 2 ^ 20) = some { c with sink := l }
      (a 1 = 0 → sinks []) ∧
      (∀ o, hKind (a 1) = 3 → s.validHandle c.ptn (s.dealer.seq + 1) (a 1) = true → s.obj? c.ptn (a 1) = some o →
        o.host = true → o.ctx = ⟨a 0 % 2 ^ 20, c.gen⟩ → sinks [a 1]) ∧
      (a 1 ≠ 0 → hKind (a 1) ≠ 3 → gives .sink 6)) ∧
    (s.asks 6 m rest → role = 2 ∨ role = 3 → a 0 ∉ s.meter.revoked →
      let may : Prop := role = 3 ∨ a 1 = s.credOf m.agent
      (¬may → gives .revoke 1) ∧ (may → 256 ≤ s.meter.revoked.length → gives .revoke 7) ∧
      (may → s.meter.revoked.length < 256 → ∃ v : State, exec .revoke s = .next v ∧ s.entrusted v m 8 (.revoke (a 0)))) ∧
    (s.asks 7 m rest → role ∈ [1, 2, 3] → a 1 + 1024 * a 2 ≤ hostBytes → at_ + 64 ≤ a 1 ∨ a 1 + 1024 * a 2 ≤ at_ →
      (∀ e ∈ s.meter.lrLog ++ s.meter.genLog, e.bytes.length = 1024) → ∃ v : State, exec .readLogbook s = .next v ∧
        v.answered m rest 0 ∧ ∀ k e, k < a 2 → s.meter.entry? (a 0 + k) = some e → v.hostRead (a 1 + 1024 * k) 1024 = e.bytes) ∧
    (s.asks 8 m rest → role = 1 ∨ role = 2 → ∃ v : State, exec .selfRecalibrate s = .next v ∧
      (s.meterChan 0 = 0 → s.meterChan 1 = 0 → v.answered m rest 0 ∧ v.meterChan (a 0 % 2) = 1 ∧ v.meterChan (1 - a 0 % 2) = 0) ∧
      (s.meterChan 0 ≠ 0 ∨ s.meterChan 1 ≠ 0 → v.answered m rest 5 ∧ v.meterChan 0 = s.meterChan 0 ∧ v.meterChan 1 = s.meterChan 1)) ∧
    (s.asks 9 m rest → role = 3 → s.meter.sealNo < 2 ^ 32 - 1 →
      let l := s.imageAt (a 0)
      let t := leAt l 4 4
      ∃ v : State, exec .installMeterImage s = .next v ∧
        (t = 4 ∨ t = 5 → s.imageOk t l = true → s.entrusted v m (if t = 5 then 9 else 4) (.meterImage l)) ∧
        (¬(t = 4 ∨ t = 5) ∨ s.imageOk t l = false → v.answered m rest 3))

/-- LOGBOOK_ENTRY: the change that has waited longest gets the next entry number, its entry being stored in the section of
its kind, and takes effect; a legally relevant change counts one more in the seal counter. Where the store has failed, or a
legally relevant entry finds its section full, nothing is stored and a register's change sets its REFUSED bit. With nothing
waiting nothing happens. The entry of a field of MTR_CAL holds the register as it stands and as that field's change leaves
it. What a stored entry's change does: a register takes its value, or one field of it; a new layout closes every partition,
its registers at their defaults; a partition opens empty and zero, or closes; a port goes down or trains; a detour is
entered; a session opens, or closes, or a serial is revoked, which ends the sessions it stands behind; a slot is settled; a
retired channel is listed. In part the model's choice: log entries 95, 100 and 112. -/
def Obligations.LogbookEntries : Prop :=
  (
  ∀ (s : State), (s.setup.waiting = [] → exec .logbookEntry s = .next s) ∧
    ∀ (p : Pending) (rest : List Pending), s.setup.waiting = p :: rest → s.setup.behind = [] →
      let s0 := s.setSetup { s.setup with waiting := rest }
      let full : Prop := s.field Reg.mtrStatus 8 8 = 1 ∨ p.lr = true ∧ (512 ≤ s.meter.lrLog.length ∨ 2 ^ 32 - 1 ≤ s.meter.sealNo)
      (full → ∀ o x, p.change = .reg o x → p.offset = 0 → exec .logbookEntry s = .next s0) ∧
      (full → ∀ x, p.change = .layout x → p.offset = Reg.ptnLayout →
        exec .logbookEntry s = .next (s0.setField Reg.ptnLayout 31 31 1)) ∧
      let q := s0.dueEntry p
      (∀ o hi lo x, p.change = .sealWrite o hi lo x → q = { p with old := s.reg o, new_ := setFld (s.reg o) hi lo x }) ∧
      ((∀ o hi lo x, p.change ≠ .sealWrite o hi lo x) → q = p) ∧
      (¬full → ∃ (v : State) (e : LogEntry) (i : Nat), exec .logbookEntry s = .next ((v.applyChange q)) ∧
        e ∈ v.meter.lrLog ++ v.meter.genLog ∧ e.no = s.meter.logNo + 1 ∧ e.lr = p.lr ∧ v.meter.logNo = s.meter.logNo + 1 ∧
        v.meter.sealNo = s.meter.sealNo + (if p.lr then 1 else 0) ∧ v.setup.waiting = rest ∧
        leAt e.bytes 4 1 = p.kind % 256 ∧ leAt e.bytes 8 8 = (s.meter.logNo + 1) % 2 ^ 64 ∧
        leAt e.bytes 0x30 8 = p.item.toNat ∧ leAt e.bytes 0x38 8 = q.old.toNat ∧ leAt e.bytes 0x40 8 = q.new_.toNat ∧
        (⟨i, .logbookEntry, s.meter.logNo + 1, 0⟩ : Event) ∈ v.dealer.events ∧
        (∀ o, o ≠ Reg.mtrStatus → v.reg o = s.reg o) ∧ v.cmem = s.cmem ∧ v.hmem = s.hmem ∧ v.cores = s.cores)) ∧
  (
  ∀ (s : State) (p : Pending),
    (∀ o v, p.change = .reg o v → (s.applyChange p).reg o = v) ∧
    (∀ o hi lo x, p.change = .sealWrite o hi lo x → s.applyChange p = s.setReg o (setFld (s.reg o) hi lo x)) ∧
    (∀ v, p.change = .layout v → fld v 1 0 < 3 → (s.applyChange p).reg Reg.ptnLayout = v ∧ ∀ n, n < 16 →
      (s.applyChange p).isOpen n = false ∧ ((s.applyChange p).ptn n).cmds = []) ∧
    (∀ n v, p.change = .ptnOpen n v → n < 16 → n < s.ptnCount → s.isOpen n = false → s.memWf →
      let t := s.applyChange p
      t.isOpen n = true ∧ (t.ptn n).objs = [] ∧ (t.ptn n).queues = [] ∧ (t.ptn n).deal = s.chansOf n ∧
      (∀ c q, c < 192 → s.ptnOfChan c = some n → s.chanLive c = true → q < 9512681472 → t.byteAt (.chan c q) = 0) ∧
      ∃ i, (⟨i, .ptnOpened, n, 0⟩ : Event) ∈ t.dealer.events) ∧
    (∀ n v, p.change = .ptnClose n v → n < 16 → (∀ e ∈ s.ctxs, e.2.ptn ≠ n) →
      (s.applyChange p).isOpen n = false ∧ ∀ q ∈ s.coresOf n, ((s.applyChange p).core q).running = false) ∧
    (∀ k v, p.change = .portDown k v → k < 24 → fld v 0 0 = 1 → (s.port k).state = 1 → ((s.applyChange p).port k).state = 0) ∧
    (∀ v, p.change = .detour v → Tab.get? (s.applyChange p).links.detours (fld v 11 0) = some (fld v 14 12, fld v 15 15 == 1)) ∧
    (∀ a r l, p.change = .sessionOpen a r l → (s.applyChange p).roleOf a = r) ∧
    (∀ a, p.change = .sessionClose a → (s.applyChange p).roleOf a = 0) ∧
    (∀ n, p.change = .revoke n → (s.meter.sessions.map (·.1)).Nodup → n ∈ (s.applyChange p).meter.revoked ∧
      ∀ a x, Tab.get? s.meter.sessions a = some x → n ∈ x.serials → (s.applyChange p).roleOf a = 0) ∧
    (∀ n i k o, p.change = .settle n i k → Tab.get? (s.ptn n).objs i = some o → k < o.slots.length →
      ∃ o', Tab.get? ((s.applyChange p).ptn n).objs i = some o' ∧ (o'.slot k).st = .settled) ∧
    (∀ c, p.change = .retire c → c ∈ (s.applyChange p).meter.retired ∧
      ∃ i, (⟨i, .memChannelRetired, c, 0⟩ : Event) ∈ (s.applyChange p).dealer.events))

/-- One sample of every input. The serving channel's energy joins the window, the frame and that channel's second, the
other channel's its own: V x I over 5 µs in nJ, exact where V x I in µW is a multiple of 200, else rounded down or up (the
model's choice, log entry 28). A channel that does not measure adds nothing. The two channels. A compare of a second that
both measured throughout sets DISAGREE and asks for a logbook entry where some rail differs by more than 1 % of the larger
plus 0.05 % of full-scale power, and none otherwise; the second starts anew. A recalibration begins where both channels
measure, the other serving, and ends with the channel measuring again. -/
def Obligations.MeterSampling : Prop :=
  (
  ∀ (s : State) (l : List Sample), l.length = 12 → ∃ v : State, exec (.meterSample l) s = .next v ∧
    ∀ r x, r < 12 → l[r]? = some x → ∃ eA eB,
      (s.meterChan 0 ≠ 0 → eA = 0) ∧ (s.meterChan 1 ≠ 0 → eB = 0) ∧
      (s.meterChan 0 = 0 → (eA - x.vA * x.iA / 200 ≤ 1 ∧ x.vA * x.iA / 200 ≤ eA) ∧ (x.vA * x.iA % 200 = 0 → eA = x.vA * x.iA / 200)) ∧
      (s.meterChan 1 = 0 → (eB - x.vB * x.iB / 200 ≤ 1 ∧ x.vB * x.iB / 200 ≤ eB) ∧ (x.vB * x.iB % 200 = 0 → eB = x.vB * x.iB / 200)) ∧
      Tab.get v.meter.window r 0 = Tab.get s.meter.window r 0 + (if s.serving = 1 then eB else eA) ∧
      Tab.get v.meter.window (16 + r) 0 = Tab.get s.meter.window (16 + r) 0 + (if s.serving = 1 then eA else eB) ∧
      Tab.get v.meter.frame r 0 = Tab.get s.meter.frame r 0 + (if s.serving = 1 then eB else eA) ∧
      Tab.get v.meter.second r 0 = Tab.get s.meter.second r 0 + eA ∧
      Tab.get v.meter.second (16 + r) 0 = Tab.get s.meter.second (16 + r) 0 + eB) ∧
  (
  ∀ (s : State),
    (let a (r : Nat) : Nat := Tab.get s.meter.second r 0
     let b (r : Nat) : Nat := Tab.get s.meter.second (16 + r) 0
     let off (r : Nat) : Prop := 400000 * (max (a r) (b r) - min (a r) (b r)) >
       4000 * max (a r) (b r) + Tab.get s.meter.second (32 + r) 0 * fullScale r
     ∃ v : State, exec .channelCompare s = .next v ∧ v.meter.window = s.meter.window ∧ v.meter.total = s.meter.total ∧
       (∀ k, k < 48 → Tab.get v.meter.second k 0 = 0) ∧
       (Tab.get? s.meter.second 48 = none → (∃ r, r < 12 ∧ off r) → fld (v.reg Reg.mtrStatus) 5 5 = 1 ∧
         ∃ p, v.setup.waiting = s.setup.waiting ++ [p] ∧ p.kind = 10) ∧
       ((Tab.get? s.meter.second 48).isSome = true ∨ (∀ r, r < 12 → ¬off r) → v.setup = s.setup)) ∧
    ∀ ch, ch < 2 →
      (s.meterChan 0 = 0 → s.meterChan 1 = 0 → ∃ v : State, exec (.periodicRecalibration ch) s = .next v ∧
        v.meterChan ch = 1 ∧ v.meterChan (1 - ch) = 0 ∧ v.serving = 1 - ch) ∧
      (s.meterChan 0 ≠ 0 ∨ s.meterChan 1 ≠ 0 → exec (.periodicRecalibration ch) s = .next s) ∧
      (s.meterChan ch = 1 → ∃ v : State, exec (.recalibrationDone ch) s = .next v ∧ v.meterChan ch = 0 ∧
        v.meterChan (1 - ch) = s.meterChan (1 - ch)) ∧
      (s.meterChan ch ≠ 1 → exec (.recalibrationDone ch) s = .next s))

/-- REFERENCE_STROBE ends a window; on each die that it reaches the pace counter has advanced by the periods counted, at
the scale in force and changed by at most 0.5 % towards the reference, modulo 2^64, and the next millisecond is as many
periods as one of those that the count spans: how many they are is the model's reading. COUNT_FRAME divides a die's compute
energy of the window that ended: by the counts of the frame where it is intact, all of it to the unattributed bucket, with
COUNT_LOST and a logbook entry, where it is not. A frame with no window open for it, or after the first, changes nothing.
Energy is neither made nor lost by division: each context with a count gets the floor of its share, and what the shares
leave over is counted as unattributed. INTERVAL_END. Before the interval's windows are over, or while one is still to be
attributed, nothing happens. Then the record gets the next number, which MTR_STATUS shows; the operator's ring, where it
has slots, takes it at its slot and METER_RECORD names it; the next interval starts at the present window; every total
keeps what is below a thousandth of a mJ, as every bucket that was reported does. WEAR_BUCKET: each die's hour joins the
720 kept, the newest first. In part the model's choice: log entries 83, 84 and 118. -/
def Obligations.EnergyAttribution : Prop :=
  (
  (∀ (s : State) (periods : List Nat), s.meter.ended = [] → periods.length = 5 → ∃ v : State,
    exec (.referenceStrobe periods) s = .next v ∧ v.meter.windowNo = s.meter.windowNo + 1 ∧ v.meter.window = [] ∧
    v.meter.counts = s.meter.activity ∧ v.meter.activity = [] ∧ v.meter.arrived = [] ∧
    (∀ r, r < 32 → v.meter.endedNj r = Tab.get s.meter.window r 0) ∧
    ∀ d k, periods[d]? = some k → (k = 0 → v.die d = s.die d) ∧
      (k ≠ 0 → let x := s.die d
        let ms := max 1 ((2 * k + x.scale) / (2 * max 1 x.scale))
        let adv := k * 1000000 / max 1 x.scale
        (v.die d).scale = k / ms ∧ (v.die d).cal = .strobed ∧
          (x.cal = .lost → ∃ i, (⟨i, .paceCalibrated, d, 0⟩ : Event) ∈ v.dealer.events) ∧
          ∃ a : Nat, (v.die d).pace = x.pace + BitVec.ofNat 64 a ∧ adv - adv / 200 ≤ a ∧ a ≤ adv + adv / 200 ∧
            (v.die d).err = x.err + (1000000 * ms : Int) - a)) ∧
  ∀ (s : State) (d : Nat) (intact : Bool), d < 4 →
    (s.meter.ended = [] ∨ d ∈ s.meter.arrived → exec (.countFrame d intact) s = .next s) ∧
    (s.meter.ended ≠ [] → d ∉ s.meter.arrived → s.meter.arrived.length < 3 → ∃ v : State, exec (.countFrame d intact) s = .next v ∧
      v.meter.arrived = s.meter.arrived ++ [d] ∧
      let e := s.meter.endedNj d + s.meter.endedNj (4 + d)
      let r := divideNj (Tab.get s.meter.counts d []) e false s.meter.buckets
      (intact = true → v.meter.buckets = r.1 ∧ v.meter.unCompute = s.meter.unCompute + (e - r.2)) ∧
      (intact = false → v.meter.buckets = s.meter.buckets ∧ v.meter.unCompute = s.meter.unCompute + e ∧
        fld (v.reg Reg.mtrStatus) 7 7 = 1 ∧ ∃ p, v.setup.waiting = s.setup.waiting ++ [p] ∧ p.kind = 10))) ∧
  (
  ∀ (l : List (Nat × Nat × Nat)) (e : Nat) (shared : Bool) (b : List (CtxId × Bucket)),
    let r := divideNj l e shared b
    let sum (x : List (CtxId × Bucket)) : Nat := (x.map (fun y => if shared then y.2.shared else y.2.compute)).sum
    let total := (l.map (·.2.2)).sum
    r.2 ≤ e ∧ sum r.1 = sum b + r.2 ∧ r.2 = (l.map (fun x => e * x.2.2 / total)).sum ∧
      (b.map (fun y => if shared then y.2.compute else y.2.shared)).sum =
        (r.1.map (fun y => if shared then y.2.compute else y.2.shared)).sum) ∧
  (
  ∀ (s : State),
    (let m := s.meter
     let due : Prop := m.ended = [] ∧ m.windowNo ≠ m.startMs ∧ (m.early = true ∨ m.startMs + 1000 * m.intervalS ≤ m.windowNo)
     (¬due → exec .intervalEnd s = .next s) ∧
     (due → ∃ v : State, exec .intervalEnd s = .next v ∧ v.meter.recordNo = m.recordNo + 1 ∧ v.meter.startMs = m.windowNo ∧
       v.meter.early = false ∧ v.meter.flags = 0 ∧ v.meter.intervalS = s.field Reg.mtrCfg 9 0 ∧
       fld (v.reg Reg.mtrStatus) 63 32 = (m.recordNo + 1) % 2 ^ 32 ∧
       (∀ r, Tab.get v.meter.total r 0 = Tab.get m.total r 0 % 1000) ∧
       (s.field Reg.mtrCfg 17 10 ≠ 0 → ∃ i, (⟨i, .meterRecord, m.recordNo + 1, 0⟩ : Event) ∈ v.dealer.events) ∧
       (s.field Reg.mtrCfg 17 10 ≠ 0 → (∀ e ∈ s.ctxs, e.2.sink = []) → s.memWf →
         let at_ := s.field Reg.mtrCfg 57 18 * 4096 + (m.recordNo + 1) % s.field Reg.mtrCfg 17 10 * 528384
         v.hostRead at_ 16 = natLe 4 1 ++ natLe 4 (m.windowNo - m.startMs) ++ natLe 8 (m.recordNo + 1)))) ∧
    ∃ v : State, exec .wearBucket s = .next v ∧ v.meter.wearNow = [] ∧ ∀ d, d < 4 →
      let w : Nat × Nat := Tab.get s.meter.wearNow d (0, 0)
      Tab.get v.meter.wear d [] = ((w.1 / max 1 w.2) :: Tab.get s.meter.wear d []).take 720)

/-- HELM_CONTROL_STEP. At 105 °C or above VCORE goes to 0.55 V, the brake to 16/64 or lower, and THERMAL_CEILING is raised
when it starts. VCORE rises by at most 25 mV a step, and falls by at most that below 95 °C while no limit asks for more; it
is a multiple of 5 mV from 0.55 V up, never above 0.60 V while frames are lost, and on a die in no sealed partition never
above 0.80 V outside a sprint or 0.90 V inside. There it is lowered while a frame has broken the power rules or the wear
cap is not met, until it is 0.55 V, where the power rules lower the brake by one instead; with neither the brake is
released by one. A sealed die goes towards its VCORE_MV. WEAR_LIMITED is raised where the cap begins or ends to limit the
die; the step ends a fallback. The rails. Wherever VSRAM is at least the larger of VCORE and 0.70 V before a regulator
settles, it is after: raising, VSRAM settles first, lowering, VCORE does; a rail settles at its target. The Helm's own
detectors. HELM_STEP: the die holds its rails, with the brake at 32/64 and HELM_FALLBACK raised, and the other instance
takes the lead as a fallback begins. METER_FRAMES: the cap of R52 holds from then on, with METER_FRAMES_LOST raised.
METER_FRAME: frames arrive again and the frame is kept; one above the limit begins a sprint where sprints are allowed and
the average permits one, and lengthens a sprint; an average still above the limit 500 ms after a sprint began breaks the
rules; one above the sprint ceiling, or above the limit with sprints off, brakes every compute die to 16/64. PACE_STROBE: a
die that loses its strobes keeps its scale, with PACE_UNCALIBRATED raised. In part the model's choice: log entries 26, 27,
37, 38, 47, 49 and 117. -/
def Obligations.HelmControl : Prop :=
  (
  ∀ (s : State) (d : Nat) (l : List Nat), d < 4 → s.helmRuns = true → s.pkg.start ≠ .helm → (s.die d).tripped = false → l.length = 24 →
    let tj := hottest l
    let x := s.die d
    let worn := s.wearReached d
    let wearUnmet : Prop := worn = true ∧ wearOver (Tab.get s.meter.lastI d 0) tj = true
    let brake := if x.fallback then x.helmBrake else x.brake
    let cool : Prop := tj < 105 ∧ x.forceCeiling = false
    ∃ v : State, exec (.helmControlStep d l) s = .next v ∧
      let y := v.die d
      y.tj = tj ∧ y.stepTj = tj ∧ y.stepMv = y.vset ∧ y.fallback = false ∧ y.stepped = true ∧ y.vcore = x.vcore ∧ y.vsram = x.vsram ∧
      y.vset % 5 = 0 ∧ 550 ≤ y.vset ∧ (s.helm.framesLost = true → y.vset ≤ 600) ∧ (550 ≤ x.vset → y.vset ≤ x.vset + 25) ∧
      (s.sealedMv d = none →
        (s.helm.sprint = [] → y.vset ≤ 800) ∧ y.vset ≤ 900 ∧
        (x.vset % 5 = 0 → tj < 95 → x.throttled = false → x.forceCeiling = false → s.helm.framesLost = false → s.helm.exceeded = false →
          x.vset ≤ y.vset + 25 ∨ 800 < x.vset) ∧
        (550 < x.vset → s.helm.exceeded = true ∨ wearUnmet → y.vset < x.vset) ∧
        (cool → s.helm.exceeded = true → x.vcore = 550 → y.brake = max 1 (brake - 1)) ∧
        (cool → s.helm.exceeded = false → x.vcore ≠ 550 ∨ ¬wearUnmet → y.brake = min 64 (brake + 1))) ∧
      (∀ mv, s.sealedMv d = some mv → mv % 5 = 0 → 550 ≤ mv → x.vset % 5 = 0 → x.vset ≤ 900 → cool → s.helm.framesLost = false → worn = false →
        y.vset = if x.vset < mv then min (x.vset + 25) mv else max mv (x.vset - 25)) ∧
      (105 ≤ tj → y.vset = 550 ∧ y.brake ≤ 16 ∧
        (x.ceiling = false → ∃ i, (⟨i, .thermalCeiling, d, 0⟩ : Event) ∈ v.dealer.events)) ∧
      y.wearLtd = worn ∧ (x.wearLtd ≠ worn → ∃ i, (⟨i, .wearLimited, d, if worn then 1 else 0⟩ : Event) ∈ v.dealer.events) ∧
      Tab.get? v.helm.limits d = some (s.reg Reg.helmLimit)) ∧
  (
  ∀ (s : State) (d : Nat), d < 4 →
    let x := s.die d
    ∃ v : State, exec (.regulatorSettled d) s = .next v ∧
      let y := v.die d
      (max x.vcore 700 ≤ x.vsram → max y.vcore 700 ≤ y.vsram) ∧
      (∀ t, x.target = [t] → y.vcore = x.vcore ∨ y.vcore = t) ∧
      (∀ t, x.target = [t] → x.vcore < t → x.vsram < max t 700 → y.vsram = max t 700 ∧ y.vcore = x.vcore) ∧
      (∀ t, x.target = [t] → t < x.vcore → y.vcore = t ∧ y.vsram = x.vsram) ∧
      (x.target = [] → v.dies = s.dies ∨ y = x) ∧ ∀ q, q ≠ d → v.die q = s.die q) ∧
  (
  ∀ (s : State), s.helmRuns = true →
    (∀ d, d < 4 → ∃ (v : State) (i : Nat), exec (.helmStep d) s = .next v ∧
      (v.die d).vcore = (s.die d).vcore ∧ (v.die d).vsram = (s.die d).vsram ∧ (v.die d).target = [] ∧ (v.die d).brake = 32 ∧
      (v.die d).fallback = true ∧ v.helm.lead = (if (s.die d).fallback = true then s.helm.lead else 3 - s.helm.lead) ∧
      (⟨i, .helmFallback, d, 0⟩ : Event) ∈ v.dealer.events) ∧
    (s.helm.framesLost = false → ∃ (v : State) (i : Nat), exec .meterFrames s = .next v ∧ v.helm.framesLost = true ∧
      (⟨i, .meterFramesLost, 0, 0⟩ : Event) ∈ v.dealer.events) ∧
    (s.helm.framesLost = true → exec .meterFrames s = .next s) ∧
    (∃ v : State, exec .meterFrame s = .next v ∧
      let e := (s.meter.frame.map (·.2)).sum
      let lim := fld s.limitNow 11 0 * 50000
      v.helm.framesLost = false ∧ v.meter.frame = [] ∧ v.helm.frames = (e :: s.helm.frames).take 10000 ∧
      let judged := s.helm.judged.headD (fld s.limitNow 11 0) * 50000
      let met (l : List Nat) : Prop := l.sum ≤ l.length * judged
      (e ≤ lim ∨ fld s.limitNow 12 12 = 0 → v.helm.sprint = []) ∧
      (lim < e → fld s.limitNow 12 12 = 1 → (∀ k r, s.helm.sprint = k :: r → v.helm.sprint = [k + 1]) ∧
        (s.helm.sprint = [] → (met s.helm.frames → v.helm.sprint = [1] ∧ v.helm.since = [1]) ∧
          (¬met s.helm.frames → v.helm.sprint = [] ∧ v.helm.exceeded = true))) ∧
      (1000 ≤ v.helm.sprint.headD 0 → v.helm.exceeded = true) ∧
      (∀ k, s.helm.since = [k] → 9999 ≤ k → v.helm.sprint ≠ [1] → ¬met v.helm.frames → v.helm.exceeded = true) ∧
      (e ≤ lim → e ≤ sprintCeiling (fld s.limitNow 17 16) * 50000 → s.helm.since = [] → v.helm.exceeded = false) ∧
      (sprintCeiling (fld s.limitNow 17 16) * 50000 < e ∨ (lim < e ∧ fld s.limitNow 12 12 = 0) →
        v.helm.exceeded = true ∧ ∀ d, d < 4 → (v.die d).brake = min 16 (s.die d).brake)) ∧
    ∀ d, d < 5 →
      ((s.die d).cal ≠ .lost → ∃ (v : State) (i : Nat), exec (.paceStrobe d) s = .next v ∧ (v.die d).cal = .lost ∧
        (v.die d).scale = (s.die d).scale ∧ (v.die d).pace = (s.die d).pace ∧
        (⟨i, .paceUncalibrated, d, 0⟩ : Event) ∈ v.dealer.events) ∧
      ((s.die d).cal = .lost → exec (.paceStrobe d) s = .next s))

/-- Detectors of a class that resets. HANDSHAKE orders an engine reset of its core, QM_STALL a die reset for an open
partition, SUPPLY_LOW one for VCORE and a package reset for any other rail, REGULATOR_FAULT a die reset for VCORE and VSRAM
and a package reset for any other; THERMAL_TRIP stops the die, drives THERMTRIP_N and orders a package reset. Each reports
its unit, one of class PACKAGE in the meter die's keeping. Dies without power or held in reset, a closed partition, or a
reading below 115 °C fire nothing. Detectors of a degraded part. KEEPER_WATCHDOG, where keeper runs, restarts it on its
other image and ends agent 1's session; JOINT_DOWN of a joint not yet down takes it down, with PATH_CHANGE for one of the
ring; PCIE_ERROR of a port not held in reset names the host die. Each reports its unit and resets nothing. HANG of a
running dispatch, the suspect being the lowest core with a group of it. Outside solo mode the partition is ordered into
reset and the dispatch, its context being among the suspects, ends with HANG_DETECTED; in solo mode the core is ordered
into engine reset and the solo context's queues are stopped. A dispatch with no group on a core, or none, is left alone. In
part the model's choice: log entries 80, 81 and 113. -/
def Obligations.Detectors : Prop :=
  (
  ∀ (s : State) (p n r d t : Nat), p < 192 → n < 16 → r < 12 → d < 5 →
    (∃ v : State, exec (.handshake p) s = .next v ∧ v.recorded 0x16 (coreUnit p) ∧ v.orders .engine p) ∧
    (s.isOpen n = false → exec (.qmStall n) s = .next s) ∧
    (s.isOpen n = true → ∃ v : State, exec (.qmStall n) s = .next v ∧ v.orders .die ((s.diesOf n).headD 0) ∧
      v.recorded 0x17 (unitCode 11 ((s.diesOf n).headD 0) 0)) ∧
    (s.powered = false → exec (.supplyLow r) s = .next s ∧ exec (.regulatorFault r) s = .next s) ∧
    (s.powered = true → ∃ v : State, exec (.supplyLow r) s = .next v ∧
      if r < 4 then v.orders .die r ∧ v.recorded 0x1E (railUnit r) else v.orders .package 0 ∧ v.keptLast 0x1E (railUnit r)) ∧
    (s.powered = true → ∃ v : State, exec (.regulatorFault r) s = .next v ∧
      if r < 8 then v.orders .die (r % 4) ∧ v.recorded 0x1F (railUnit r) else v.orders .package 0 ∧ v.keptLast 0x1F (railUnit r)) ∧
    (t < 115 ∨ s.powered = false ∨ s.pkg.start = .heldTest → exec (.thermalTrip d t) s = .next s) ∧
    (115 ≤ t → s.powered = true → s.pkg.start ≠ .heldTest → ∃ v : State, exec (.thermalTrip d t) s = .next v ∧
      (v.die d).tripped = true ∧ (v.die d).tj = t ∧ v.pkg.thermtrip = true ∧ v.orders .package 0 ∧ v.keptLast 0x1D (dieUnit d))) ∧
  (
  ∀ (s : State) (j port : Nat), j < 9 → port < 2 →
    (s.pkg.start = .complete → strapEndpoint s.pkg.straps = true → ∃ v : State, exec .keeperWatchdog s = .next v ∧
      v.pkg.keeperB = !s.pkg.keeperB ∧ v.roleOf 1 = 0 ∧ v.recorded 0x20 (dieUnit 4) ∧ v.dealer.resets = s.dealer.resets) ∧
    (s.pkg.start ≠ .complete ∨ strapEndpoint s.pkg.straps = false → exec .keeperWatchdog s = .next s) ∧
    ((Tab.get? s.pkg.joints j).isSome = true → exec (.jointDown j) s = .next s) ∧
    (Tab.get? s.pkg.joints j = none → ∃ v : State, exec (.jointDown j) s = .next v ∧ Tab.get? v.pkg.joints j = some true ∧
      v.recorded 0x0C (jointUnit j) ∧ (j < 4 → v.raised .pathChange j 0) ∧ v.dealer.resets = s.dealer.resets) ∧
    let held : Prop := s.powered = false ∨ s.pkg.start = .heldTest ∨ strapEndpoint s.pkg.straps = true ∧ port = 1
    (held → exec (.pcieError port) s = .next s) ∧
    (¬held → ∃ v : State, exec (.pcieError port) s = .next v ∧ v.recorded 0x22 (dieUnit 4) ∧ v.dealer.resets = s.dealer.resets)) ∧
  (
  ∀ (s : State) (n q e : Nat), n < 16 → q < 64 →
    (s.disp? ⟨n, q, e⟩ = none → exec (.hang n q e) s = .next s) ∧
    ∀ (d : Disp) (p slot : Nat) (g : Group), s.disp? ⟨n, q, e⟩ = some d → d.status = 0 →
      (s.coresOf n).find? (fun c => ((s.work c).groupOf ⟨n, q, e⟩).isSome) = some p → (s.work p).groupOf ⟨n, q, e⟩ = some (slot, g) →
      (s.soloMode n = false → ∃ v : State, exec (.hang n q e) s = .next v ∧ v.orders .partition n ∧ v.recorded 0x15 (coreUnit p) ∧
        ∀ (k : Cmd) (x : Queue), s.cmd? ⟨n, q, e⟩ = some k → q ≠ 0 → s.queue? n q = some x → k.stage = .running → eOpcode k.raw = 2 →
          x.ctx ∈ s.suspects p → d.ended ≠ d.blocks → ∃ d', v.disp? ⟨n, q, e⟩ = some d' ∧ d'.status = 0x0703) ∧
      (s.soloMode n = true → ∃ v : State, exec (.hang n q e) s = .next v ∧ v.orders .engine p ∧ v.recorded 0x15 (coreUnit p) ∧
        ∀ (i : Nat) (x : Queue) (c : Ctx), i ≠ 0 → s.queue? n i = some x → x.ctx = ⟨s.field (Reg.fltSolo n) 11 0, c.gen⟩ →
          Tab.get? s.ctxs (s.field (Reg.fltSolo n) 11 0) = some c → ∃ y, v.queue? n i = some y ∧ y.stopped = true ∧ y.revoked = true))

/-- RESET_ENTERED completes a reset. Engine: the core holds nothing, its deck reads zero and its generators start anew, and
a dispatch with blocks there ends with RESET_CUT_OFF. Partition: so for every core of it; its hold reads zero, every slot
of its compute memory objects is unsettled, its queues are stopped, PTN_RESET_DONE is raised. Die: the brake is open.
Package: no context is left, start-up begins anew, every mailbox channel that waits for an agent on the dies covered is
dropped, and the meter die's store stays as it was, MTR_STATUS but for its W1C bits. RESET_HANG: an engine reset that hangs
gives way to a reset of its partition, a partition reset to one of every die with a core of it, a die reset to a package
reset; a package reset has no bound. ERROR_RECORD_CLOSE: the record is no longer open and ERROR_CLOSED is raised.
IRQ_GAP_END: a cause held in the gap fires once, at the host die or, in endpoint mode, at the outside server, and begins a
gap; with none held the gap is over. In part the model's choice: log entries 25, 44, 45 and 46. -/
def Obligations.ResetLadder : Prop :=
  (
  ∀ (s : State) (k : Nat), (s.dealer.resets[k]? = none → exec (.resetEntered k) s = .next s) ∧
    ∀ (l : Level) (t : Nat), s.dealer.resets[k]? = some ⟨l, t⟩ → s.dealer.armed = [] → ∃ v : State,
      exec (.resetEntered k) s = .next v ∧ (l = .engine ∨ l = .package ∨ s.migr = [] → ¬v.orders l t) ∧
      (l = .engine → t < 192 → (v.work t).groups = [] ∧ (v.work t).blocks = [] ∧ (v.core t).gens = [] ∧
        (∀ a m, v.deckBytes t a m = List.replicate m 0) ∧
        ∀ (b : Nat) (x : Block) (c : Cmd) (d : Disp), Tab.get? (s.work t).blocks b = some x → x.cid.ptn = s.ptnOfCore t →
          x.cid.queue ≠ 0 → s.cmd? x.cid = some c → c.stage = .running → eOpcode c.raw = 2 → s.disp? x.cid = some d →
          d.status = 0 → d.ended ≠ d.blocks → ∃ d', v.disp? x.cid = some d' ∧ d'.status = 0x0705) ∧
      (l = .partition → t < 16 → s.isOpen t = true → s.migr = [] → v.raised .ptnResetDone t 0 ∧ (v.ptn t).halted = false ∧
        (∀ p ∈ s.coresOf t, (v.work p).groups = [] ∧ ∀ a m, v.deckBytes p a m = List.replicate m 0) ∧
        (∀ q ∈ s.quartersOf t, Tab.get? v.hold q = none) ∧
        (∀ i q, v.queue? t i = some q → q.stopped = true) ∧
        ∀ i o, Tab.get? (v.ptn t).objs i = some o → o.host = false → ∀ j, j < o.slots.length → (o.slot j).st = .unsettled) ∧
      (l = .die → t < 4 → (v.die t).brake = 64 ∧ (v.die t).fallback = false ∧ (v.die t).vcore = (s.die t).vcore ∧
        ∀ p, p / 48 = t → (v.work p).groups = []) ∧
      (l = .package → v.ctxs = [] ∧ v.ptns = [] ∧ v.cores = [] ∧ v.links = State.reset.links ∧ v.pkg.straps = s.pkg.straps ∧
        v.pkg.start = bootStart s.pkg.straps ∧ v.pkg.thermtrip = s.pkg.thermtrip ∧ v.meter.recordNo = s.meter.recordNo ∧
        v.meter.logNo = s.meter.logNo ∧ v.meter.sealNo = s.meter.sealNo ∧ v.meter.revoked = s.meter.revoked ∧
        v.meter.wear = s.meter.wear ∧ v.meter.retired = s.meter.retired ∧ v.roleOf 1 = 0 ∧ v.roleOf 2 = 0 ∧
        fld (v.reg Reg.helmLimit) 17 16 = fld (s.reg Reg.helmLimit) 17 16 ∧ v.reg Reg.mtrStatus = s.reg Reg.mtrStatus &&& ~~~0x1A0#64 ∧
        v.setup.mbx = [] ∧ ((s.setup.mbx.map (·.1)).Nodup → ∀ ch m, Tab.get? s.setup.mbx ch = some m →
          (if m.full then m.dest else m.owner) ∈ resetAgents → v.raised .mailboxDropped ch 0))) ∧
  (
  ∀ (s : State) (k v : Nat), v < 2048 →
    (∀ l t, s.dealer.resets[k]? = some ⟨l, t⟩ → ∃ u : State, exec (.resetHang k) s = .next u ∧
      (l = .engine → u.orders .partition (s.ptnOfCore t) ∧ u.recorded 0x18 (coreUnit t)) ∧
      (l = .partition → ∀ d ∈ s.diesOf t, u.orders .die d) ∧
      (l = .die → u.orders .package 0 ∧ u.keptLast 0x18 (dieUnit t)) ∧
      (l = .package → u = s)) ∧
    (s.dealer.resets[k]? = none → exec (.resetHang k) s = .next s) ∧
    (s.dealer.records[k]? = none → exec (.errorRecordClose k) s = .next s) ∧
    (∀ r, s.dealer.records[k]? = some r → ∃ u : State, exec (.errorRecordClose k) s = .next u ∧
      u.dealer.records = s.dealer.records.take k ++ s.dealer.records.drop (k + 1) ∧ u.raised .errorClosed r.detector r.suspect) ∧
    (Tab.get? s.dealer.gaps v = none → exec (.irqGapEnd v) s = .next s) ∧
    (∀ g, Tab.get? s.dealer.gaps v = some g → ∃ u : State, exec (.irqGapEnd v) s = .next u ∧
      let host (t : State) : Nat := Tab.get t.dealer.irqs v 0
      let server (t : State) : Nat := Tab.get t.dealer.msix v 0
      (g.held = true → Tab.get? u.dealer.gaps v = some ⟨true, false⟩ ∧
        (strapEndpoint s.pkg.straps = false → host u = host s + 1 ∧ server u = server s) ∧
        (strapEndpoint s.pkg.straps = true → host u = host s ∧ server u = server s + 1)) ∧
      (g.held = false → Tab.get? u.dealer.gaps v = none ∧ u.dealer.irqs = s.dealer.irqs ∧ u.dealer.msix = s.dealer.msix)))

/-- Power. POWER_ON: every die starts over with the straps sampled, one power cycle more, the meter die's store kept, and
the first rails enabled. POWER_LOSS: everything is off. RAIL_CHECK: rails in range bring up the next enable, or after the
last let the host die leave reset; a rail out of range brings every enable low and is reported to the meter die.
RAIL_RETRY: the sequence starts again until the third failure. Booting. An image written to the boot window that is
verified starts the helm cores, one that is not raises FW_SIGNATURE and the window waits. With BOOTSRC 0 the flash's
preferred host boot image is tried, then the other, and the recovery image runs where neither is verified, as it does for
any other BOOTSRC; with the helm cores VHOST is set to 0.80 V. A restart of an agent's software ends its session and
returns mailbox channels that wait for it to their defaults. IMAGE_RUNNING of an update: the image is the one in force, its
target's lowest SVN rises to its own, the update is over with RESULT 0. IMAGE_TIMEOUT of a helm or keeper image: it is
abandoned, the one in force stays, RESULT 3. In part the model's choice: log entries 88, 89, 91 and 96. -/
def Obligations.PowerAndBoot : Prop :=
  (
  ∀ (s : State) (straps : BitVec 22),
    (∃ v : State, exec (.powerOn straps) s = .next v ∧ v.pkg.straps = straps ∧ v.pkg.start = .rails 0 ∧ v.pkg.railEn = 1 ∧ v.pkg.vhost = [] ∧
      v.meter.cycles = (s.meter.cycles + 1) % 2 ^ 32 ∧ v.ctxs = [] ∧ v.ptns = [] ∧ v.cores = [] ∧ v.pkg.thermtrip = false ∧
      v.meter.recordNo = s.meter.recordNo ∧ v.meter.sealNo = s.meter.sealNo ∧ v.meter.revoked = s.meter.revoked ∧
      v.meter.retired = s.meter.retired ∧ v.roleOf 1 = 0 ∧ v.pending = s.pending) ∧
    (∃ v : State, exec .powerLoss s = .next v ∧ v.pkg.start = .off ∧ v.pkg.railEn = 0 ∧ v.pkg.stbyOk = false ∧ v.ctxs = [] ∧
      v.meter.window = [] ∧ v.meter.logNo = s.meter.logNo) ∧
    (∀ n, s.pkg.start = .rails n → n < 3 → exec (.railCheck true) s =
      .next (s.setPkg { s.pkg with start := .rails (n + 1), railEn := s.pkg.railEn ||| BitVec.ofNat 4 (2 ^ (n + 1)) })) ∧
    (s.pkg.start = .rails 3 → ∃ v : State, exec (.railCheck true) s = .next v ∧ v.pkg.start = bootStart s.pkg.straps ∧
      v.pkg.railEn = s.pkg.railEn) ∧
    (∀ n, s.pkg.start = .rails n → ∃ (v : State) (r : Nat), exec (.railCheck false) s = .next v ∧ v.pkg.start = .railFail ∧
      v.pkg.railEn = 0 ∧ v.pkg.railFails = s.pkg.railFails + 1 ∧ r ∈ railGroup n ∧ v.keptLast 0x1E (railUnit r)) ∧
    (s.pkg.start = .railFail → s.pkg.railFails < 3 →
      exec .railRetry s = .next (s.setPkg { s.pkg with start := .rails 0, railEn := 1 })) ∧
    (s.pkg.start ≠ .railFail ∨ 3 ≤ s.pkg.railFails → exec .railRetry s = .next s)) ∧
  (
  ∀ (s : State) (l : List Byte) (agent : Nat),
    (s.pkg.start = .bootWindow → ∃ v : State, exec (.bootWindowLoad l) s = .next v ∧
      (s.imageOk 3 l = true → v.pkg.start = .helm ∧ v.pkg.vhost = [800] ∧
        ∃ x, Tab.get? v.meter.images 18 = some x ∧ x.version = leAt l 8 4 ∧ x.fromHost = true) ∧
      (s.imageOk 3 l = false → v.pkg.start = .bootWindow ∧ v.raised .fwSignature 4 0 ∧ v.recorded 0x23 (dieUnit 4))) ∧
    (s.pkg.start ≠ .bootWindow → exec (.bootWindowLoad l) s = .next s) ∧
    (s.pkg.start = .boot → strapBoot s.pkg.straps ≠ 0 → ∃ v : State, exec (.hostBootImageLoaded l) s = .next v ∧
      v.pkg.start = .helm ∧ v.pkg.vhost = [800] ∧ v.pkg.recov = true) ∧
    (s.pkg.start = .boot → strapBoot s.pkg.straps = 0 →
      let fl := flashOf l
      let good (p e : Nat) : Prop := dirFind fl 3 p = some e ∧ s.imageOk 3 (dirImage fl e) = true
      ∃ v : State, exec (.hostBootImageLoaded l) s = .next v ∧ v.pkg.start = .helm ∧ v.pkg.vhost = [800] ∧
        (∀ e, good 1 e ∨ (¬∃ e', good 1 e') ∧ good 0 e → v.pkg.recov = s.pkg.recov ∧
          ∃ x : Image, Tab.get? v.meter.images 18 = some x ∧ x.version = imgVersion (dirImage fl e) ∧ x.fromHost = false) ∧
        ((∀ p e, p < 2 → ¬good p e) → v.pkg.recov = true)) ∧
    (s.pkg.start ≠ .boot → exec (.hostBootImageLoaded l) s = .next s) ∧
    (agent = 1 ∨ agent = 2 → s.reaches agent = true → ∃ v : State, exec (.hostSoftwareRestart agent) s = .next v ∧
      v.roleOf agent = 0 ∧ Tab.get? v.meter.openings agent = none ∧
      ((s.setup.mbx.map (·.1)).Nodup → ∀ ch m, Tab.get? s.setup.mbx ch = some m → (if m.full then m.dest else m.owner) = agent →
        v.mbox ch = ⟨0, 0, false, 0⟩ ∧ v.raised .mailboxDropped ch 0))) ∧
  (
  ∀ (s : State) (t unit : Nat) (x : Image), t < 4 →
    let key := fwKey t unit
    (Tab.get? s.meter.images (32 + key) = some x → (t, key) ∈ s.pkg.fw → ∃ v : State, exec (.imageRunning t unit) s = .next v ∧
      Tab.get? v.meter.images key = some { x with running := true } ∧ Tab.get? v.meter.images (32 + key) = none ∧
      Tab.get v.meter.minSvn t 0 = max (Tab.get s.meter.minSvn t 0) x.svn ∧ v.pkg.fw = [] ∧
      fld (v.reg Reg.fwCtl) 9 7 = 4 ∧ fld (v.reg Reg.fwCtl) 13 10 = 0) ∧
    (t = 1 ∨ t = 2 → unit = 0 → (t, key) ∈ s.pkg.fw → ∃ v : State, exec (.imageTimeout t) s = .next v ∧ v.pkg.fw = [] ∧
      Tab.get? v.meter.images (32 + key) = none ∧ Tab.get? v.meter.images key = Tab.get? s.meter.images key ∧
      fld (v.reg Reg.fwCtl) 9 7 = 4 ∧ fld (v.reg Reg.fwCtl) 13 10 = 3) ∧
    (t = 0 ∨ t = 3 → exec (.imageTimeout t) s = .next s))
end

