-- ==== Sys2Proof/Laws/Tables.lean ====
section
/-! SUPPORT. Laws of tables: what reading a table after a write gives. -/

namespace Sys2Proof.Machine

variable {α : Type}

@[simp] theorem Tab.get?_nil (k : Nat) : Tab.get? ([] : Table α) k = none := rfl

/-- Reading a table after a write: the entry written, every other entry as before. -/
theorem Tab.get?_set (t : Table α) (k j : Nat) (x : α) :
    Tab.get? (Tab.set t k x) j = if j = k then some x else Tab.get? t j := by
  induction t with
  | nil => simp [Tab.set, Tab.get?, eq_comm]
  | cons e t ih =>
    obtain ⟨i, y⟩ := e
    simp only [Tab.set]
    split
    · simp [Tab.get?, eq_comm]
    · split
      · next h => subst h; simp only [Tab.get?, eq_comm (a := j)]; split <;> simp_all
      · simp only [Tab.get?, ih]
        split
        · next h1 h2 h3 => subst h3; simp [Ne.symm h2]
        · rfl

@[simp] theorem Tab.get?_set_same (t : Table α) (k : Nat) (x : α) : Tab.get? (Tab.set t k x) k = some x := by
  simp [Tab.get?_set]

theorem Tab.get?_set_other {t : Table α} {k j : Nat} (x : α) (h : j ≠ k) :
    Tab.get? (Tab.set t k x) j = Tab.get? t j := by simp [Tab.get?_set, h]

/-- The same with a default. -/
theorem Tab.get_set (t : Table α) (k j : Nat) (x d : α) :
    Tab.get (Tab.set t k x) j d = if j = k then x else Tab.get t j d := by
  unfold Tab.get
  rw [Tab.get?_set]
  split <;> rfl

@[simp] theorem Tab.get_set_same (t : Table α) (k : Nat) (x d : α) : Tab.get (Tab.set t k x) k d = x := by
  simp [Tab.get_set]

theorem Tab.get_set_other {t : Table α} {k j : Nat} (x d : α) (h : j ≠ k) :
    Tab.get (Tab.set t k x) j d = Tab.get t j d := by simp [Tab.get_set, h]

/-- An entry erased is unlisted; the others stand. -/
theorem Tab.get?_erase (t : Table α) (k j : Nat) :
    Tab.get? (Tab.erase t k) j = if j = k then none else Tab.get? t j := by
  induction t with
  | nil => simp [Tab.erase]
  | cons e t ih =>
    obtain ⟨i, y⟩ := e
    simp only [Tab.erase, List.filter_cons] at ih ⊢
    by_cases h : i = k
    · subst h
      simp only [bne_self_eq_false, Bool.false_eq_true, ↓reduceIte, ih, Tab.get?]
      split
      · rfl
      · next h => simp [Ne.symm h]
    · simp only [bne_iff_ne, ne_eq, h, not_false_eq_true, ↓reduceIte, Tab.get?, ih]
      split
      · next h2 => subst h2; simp [h]
      · rfl

/-- Mapping the values keeps what is listed. -/
theorem Tab.get?_mapVals (f : α → α) (t : Table α) (k : Nat) :
    Tab.get? (Tab.mapVals f t) k = (Tab.get? t k).map f := by
  induction t with
  | nil => rfl
  | cons e t ih =>
    simp only [Tab.mapVals, List.map_cons, Tab.get?] at ih ⊢
    split <;> simp_all

end Sys2Proof.Machine
end

