-- ==== Sys2Proof/Laws/State.lean ====
section
/-! SUPPORT. What each plain update of the state leaves as it was, field by field, and what reading a numbered unit after
replacing one gives. -/

namespace Sys2Proof.Machine

/-! ### setCore -/

@[simp] theorem State.setCore_pending (s : State) (p : Nat) (c : Core) : (s.setCore p c).pending = s.pending := rfl
@[simp] theorem State.setCore_fresh (s : State) (p : Nat) (c : Core) : (s.setCore p c).fresh = s.fresh := rfl
@[simp] theorem State.setCore_hold (s : State) (p : Nat) (c : Core) : (s.setCore p c).hold = s.hold := rfl
@[simp] theorem State.setCore_cache (s : State) (p : Nat) (c : Core) : (s.setCore p c).cache = s.cache := rfl
@[simp] theorem State.setCore_fills (s : State) (p : Nat) (c : Core) : (s.setCore p c).fills = s.fills := rfl
@[simp] theorem State.setCore_cmem (s : State) (p : Nat) (c : Core) : (s.setCore p c).cmem = s.cmem := rfl
@[simp] theorem State.setCore_hmem (s : State) (p : Nat) (c : Core) : (s.setCore p c).hmem = s.hmem := rfl
@[simp] theorem State.setCore_poison (s : State) (p : Nat) (c : Core) : (s.setCore p c).poison = s.poison := rfl
@[simp] theorem State.setCore_flips (s : State) (p : Nat) (c : Core) : (s.setCore p c).flips = s.flips := rfl
@[simp] theorem State.setCore_chans (s : State) (p : Nat) (c : Core) : (s.setCore p c).chans = s.chans := rfl
@[simp] theorem State.setCore_migr (s : State) (p : Nat) (c : Core) : (s.setCore p c).migr = s.migr := rfl
@[simp] theorem State.setCore_ptns (s : State) (p : Nat) (c : Core) : (s.setCore p c).ptns = s.ptns := rfl
@[simp] theorem State.setCore_ctxs (s : State) (p : Nat) (c : Core) : (s.setCore p c).ctxs = s.ctxs := rfl
@[simp] theorem State.setCore_ctxGens (s : State) (p : Nat) (c : Core) : (s.setCore p c).ctxGens = s.ctxGens := rfl
@[simp] theorem State.setCore_cooling (s : State) (p : Nat) (c : Core) : (s.setCore p c).cooling = s.cooling := rfl
@[simp] theorem State.setCore_links (s : State) (p : Nat) (c : Core) : (s.setCore p c).links = s.links := rfl
@[simp] theorem State.setCore_setup (s : State) (p : Nat) (c : Core) : (s.setCore p c).setup = s.setup := rfl
@[simp] theorem State.setCore_dealer (s : State) (p : Nat) (c : Core) : (s.setCore p c).dealer = s.dealer := rfl
@[simp] theorem State.setCore_dies (s : State) (p : Nat) (c : Core) : (s.setCore p c).dies = s.dies := rfl
@[simp] theorem State.setCore_helm (s : State) (p : Nat) (c : Core) : (s.setCore p c).helm = s.helm := rfl
@[simp] theorem State.setCore_meter (s : State) (p : Nat) (c : Core) : (s.setCore p c).meter = s.meter := rfl
@[simp] theorem State.setCore_pkg (s : State) (p : Nat) (c : Core) : (s.setCore p c).pkg = s.pkg := rfl

/-! ### setWork -/

@[simp] theorem State.setWork_pending (s : State) (p : Nat) (w : Work) : (s.setWork p w).pending = s.pending := rfl
@[simp] theorem State.setWork_fresh (s : State) (p : Nat) (w : Work) : (s.setWork p w).fresh = s.fresh := rfl
@[simp] theorem State.setWork_hold (s : State) (p : Nat) (w : Work) : (s.setWork p w).hold = s.hold := rfl
@[simp] theorem State.setWork_cache (s : State) (p : Nat) (w : Work) : (s.setWork p w).cache = s.cache := rfl
@[simp] theorem State.setWork_fills (s : State) (p : Nat) (w : Work) : (s.setWork p w).fills = s.fills := rfl
@[simp] theorem State.setWork_cmem (s : State) (p : Nat) (w : Work) : (s.setWork p w).cmem = s.cmem := rfl
@[simp] theorem State.setWork_hmem (s : State) (p : Nat) (w : Work) : (s.setWork p w).hmem = s.hmem := rfl
@[simp] theorem State.setWork_poison (s : State) (p : Nat) (w : Work) : (s.setWork p w).poison = s.poison := rfl
@[simp] theorem State.setWork_flips (s : State) (p : Nat) (w : Work) : (s.setWork p w).flips = s.flips := rfl
@[simp] theorem State.setWork_chans (s : State) (p : Nat) (w : Work) : (s.setWork p w).chans = s.chans := rfl
@[simp] theorem State.setWork_migr (s : State) (p : Nat) (w : Work) : (s.setWork p w).migr = s.migr := rfl
@[simp] theorem State.setWork_ptns (s : State) (p : Nat) (w : Work) : (s.setWork p w).ptns = s.ptns := rfl
@[simp] theorem State.setWork_ctxs (s : State) (p : Nat) (w : Work) : (s.setWork p w).ctxs = s.ctxs := rfl
@[simp] theorem State.setWork_ctxGens (s : State) (p : Nat) (w : Work) : (s.setWork p w).ctxGens = s.ctxGens := rfl
@[simp] theorem State.setWork_cooling (s : State) (p : Nat) (w : Work) : (s.setWork p w).cooling = s.cooling := rfl
@[simp] theorem State.setWork_links (s : State) (p : Nat) (w : Work) : (s.setWork p w).links = s.links := rfl
@[simp] theorem State.setWork_setup (s : State) (p : Nat) (w : Work) : (s.setWork p w).setup = s.setup := rfl
@[simp] theorem State.setWork_dealer (s : State) (p : Nat) (w : Work) : (s.setWork p w).dealer = s.dealer := rfl
@[simp] theorem State.setWork_dies (s : State) (p : Nat) (w : Work) : (s.setWork p w).dies = s.dies := rfl
@[simp] theorem State.setWork_helm (s : State) (p : Nat) (w : Work) : (s.setWork p w).helm = s.helm := rfl
@[simp] theorem State.setWork_meter (s : State) (p : Nat) (w : Work) : (s.setWork p w).meter = s.meter := rfl
@[simp] theorem State.setWork_pkg (s : State) (p : Nat) (w : Work) : (s.setWork p w).pkg = s.pkg := rfl

/-! ### count -/

@[simp] theorem State.count_pending (s : State) (p i k : Nat) : (s.count p i k).pending = s.pending := rfl
@[simp] theorem State.count_fresh (s : State) (p i k : Nat) : (s.count p i k).fresh = s.fresh := rfl
@[simp] theorem State.count_hold (s : State) (p i k : Nat) : (s.count p i k).hold = s.hold := rfl
@[simp] theorem State.count_cache (s : State) (p i k : Nat) : (s.count p i k).cache = s.cache := rfl
@[simp] theorem State.count_fills (s : State) (p i k : Nat) : (s.count p i k).fills = s.fills := rfl
@[simp] theorem State.count_cmem (s : State) (p i k : Nat) : (s.count p i k).cmem = s.cmem := rfl
@[simp] theorem State.count_hmem (s : State) (p i k : Nat) : (s.count p i k).hmem = s.hmem := rfl
@[simp] theorem State.count_poison (s : State) (p i k : Nat) : (s.count p i k).poison = s.poison := rfl
@[simp] theorem State.count_flips (s : State) (p i k : Nat) : (s.count p i k).flips = s.flips := rfl
@[simp] theorem State.count_chans (s : State) (p i k : Nat) : (s.count p i k).chans = s.chans := rfl
@[simp] theorem State.count_migr (s : State) (p i k : Nat) : (s.count p i k).migr = s.migr := rfl
@[simp] theorem State.count_ptns (s : State) (p i k : Nat) : (s.count p i k).ptns = s.ptns := rfl
@[simp] theorem State.count_ctxs (s : State) (p i k : Nat) : (s.count p i k).ctxs = s.ctxs := rfl
@[simp] theorem State.count_ctxGens (s : State) (p i k : Nat) : (s.count p i k).ctxGens = s.ctxGens := rfl
@[simp] theorem State.count_cooling (s : State) (p i k : Nat) : (s.count p i k).cooling = s.cooling := rfl
@[simp] theorem State.count_links (s : State) (p i k : Nat) : (s.count p i k).links = s.links := rfl
@[simp] theorem State.count_setup (s : State) (p i k : Nat) : (s.count p i k).setup = s.setup := rfl
@[simp] theorem State.count_dealer (s : State) (p i k : Nat) : (s.count p i k).dealer = s.dealer := rfl
@[simp] theorem State.count_dies (s : State) (p i k : Nat) : (s.count p i k).dies = s.dies := rfl
@[simp] theorem State.count_helm (s : State) (p i k : Nat) : (s.count p i k).helm = s.helm := rfl
@[simp] theorem State.count_meter (s : State) (p i k : Nat) : (s.count p i k).meter = s.meter := rfl
@[simp] theorem State.count_pkg (s : State) (p i k : Nat) : (s.count p i k).pkg = s.pkg := rfl

/-! ### setPtn -/

@[simp] theorem State.setPtn_pending (s : State) (n : Nat) (x : Ptn) : (s.setPtn n x).pending = s.pending := rfl
@[simp] theorem State.setPtn_fresh (s : State) (n : Nat) (x : Ptn) : (s.setPtn n x).fresh = s.fresh := rfl
@[simp] theorem State.setPtn_cores (s : State) (n : Nat) (x : Ptn) : (s.setPtn n x).cores = s.cores := rfl
@[simp] theorem State.setPtn_hold (s : State) (n : Nat) (x : Ptn) : (s.setPtn n x).hold = s.hold := rfl
@[simp] theorem State.setPtn_cache (s : State) (n : Nat) (x : Ptn) : (s.setPtn n x).cache = s.cache := rfl
@[simp] theorem State.setPtn_fills (s : State) (n : Nat) (x : Ptn) : (s.setPtn n x).fills = s.fills := rfl
@[simp] theorem State.setPtn_cmem (s : State) (n : Nat) (x : Ptn) : (s.setPtn n x).cmem = s.cmem := rfl
@[simp] theorem State.setPtn_hmem (s : State) (n : Nat) (x : Ptn) : (s.setPtn n x).hmem = s.hmem := rfl
@[simp] theorem State.setPtn_poison (s : State) (n : Nat) (x : Ptn) : (s.setPtn n x).poison = s.poison := rfl
@[simp] theorem State.setPtn_flips (s : State) (n : Nat) (x : Ptn) : (s.setPtn n x).flips = s.flips := rfl
@[simp] theorem State.setPtn_chans (s : State) (n : Nat) (x : Ptn) : (s.setPtn n x).chans = s.chans := rfl
@[simp] theorem State.setPtn_migr (s : State) (n : Nat) (x : Ptn) : (s.setPtn n x).migr = s.migr := rfl
@[simp] theorem State.setPtn_ctxs (s : State) (n : Nat) (x : Ptn) : (s.setPtn n x).ctxs = s.ctxs := rfl
@[simp] theorem State.setPtn_ctxGens (s : State) (n : Nat) (x : Ptn) : (s.setPtn n x).ctxGens = s.ctxGens := rfl
@[simp] theorem State.setPtn_cooling (s : State) (n : Nat) (x : Ptn) : (s.setPtn n x).cooling = s.cooling := rfl
@[simp] theorem State.setPtn_links (s : State) (n : Nat) (x : Ptn) : (s.setPtn n x).links = s.links := rfl
@[simp] theorem State.setPtn_setup (s : State) (n : Nat) (x : Ptn) : (s.setPtn n x).setup = s.setup := rfl
@[simp] theorem State.setPtn_dealer (s : State) (n : Nat) (x : Ptn) : (s.setPtn n x).dealer = s.dealer := rfl
@[simp] theorem State.setPtn_dies (s : State) (n : Nat) (x : Ptn) : (s.setPtn n x).dies = s.dies := rfl
@[simp] theorem State.setPtn_helm (s : State) (n : Nat) (x : Ptn) : (s.setPtn n x).helm = s.helm := rfl
@[simp] theorem State.setPtn_meter (s : State) (n : Nat) (x : Ptn) : (s.setPtn n x).meter = s.meter := rfl
@[simp] theorem State.setPtn_pkg (s : State) (n : Nat) (x : Ptn) : (s.setPtn n x).pkg = s.pkg := rfl

/-! ### countPtn -/

@[simp] theorem State.countPtn_pending (s : State) (n i k : Nat) : (s.countPtn n i k).pending = s.pending := rfl
@[simp] theorem State.countPtn_fresh (s : State) (n i k : Nat) : (s.countPtn n i k).fresh = s.fresh := rfl
@[simp] theorem State.countPtn_cores (s : State) (n i k : Nat) : (s.countPtn n i k).cores = s.cores := rfl
@[simp] theorem State.countPtn_hold (s : State) (n i k : Nat) : (s.countPtn n i k).hold = s.hold := rfl
@[simp] theorem State.countPtn_cache (s : State) (n i k : Nat) : (s.countPtn n i k).cache = s.cache := rfl
@[simp] theorem State.countPtn_fills (s : State) (n i k : Nat) : (s.countPtn n i k).fills = s.fills := rfl
@[simp] theorem State.countPtn_cmem (s : State) (n i k : Nat) : (s.countPtn n i k).cmem = s.cmem := rfl
@[simp] theorem State.countPtn_hmem (s : State) (n i k : Nat) : (s.countPtn n i k).hmem = s.hmem := rfl
@[simp] theorem State.countPtn_poison (s : State) (n i k : Nat) : (s.countPtn n i k).poison = s.poison := rfl
@[simp] theorem State.countPtn_flips (s : State) (n i k : Nat) : (s.countPtn n i k).flips = s.flips := rfl
@[simp] theorem State.countPtn_chans (s : State) (n i k : Nat) : (s.countPtn n i k).chans = s.chans := rfl
@[simp] theorem State.countPtn_migr (s : State) (n i k : Nat) : (s.countPtn n i k).migr = s.migr := rfl
@[simp] theorem State.countPtn_ctxs (s : State) (n i k : Nat) : (s.countPtn n i k).ctxs = s.ctxs := rfl
@[simp] theorem State.countPtn_ctxGens (s : State) (n i k : Nat) : (s.countPtn n i k).ctxGens = s.ctxGens := rfl
@[simp] theorem State.countPtn_cooling (s : State) (n i k : Nat) : (s.countPtn n i k).cooling = s.cooling := rfl
@[simp] theorem State.countPtn_links (s : State) (n i k : Nat) : (s.countPtn n i k).links = s.links := rfl
@[simp] theorem State.countPtn_setup (s : State) (n i k : Nat) : (s.countPtn n i k).setup = s.setup := rfl
@[simp] theorem State.countPtn_dealer (s : State) (n i k : Nat) : (s.countPtn n i k).dealer = s.dealer := rfl
@[simp] theorem State.countPtn_dies (s : State) (n i k : Nat) : (s.countPtn n i k).dies = s.dies := rfl
@[simp] theorem State.countPtn_helm (s : State) (n i k : Nat) : (s.countPtn n i k).helm = s.helm := rfl
@[simp] theorem State.countPtn_meter (s : State) (n i k : Nat) : (s.countPtn n i k).meter = s.meter := rfl
@[simp] theorem State.countPtn_pkg (s : State) (n i k : Nat) : (s.countPtn n i k).pkg = s.pkg := rfl

/-! ### setDie -/

@[simp] theorem State.setDie_pending (s : State) (d : Nat) (x : Die) : (s.setDie d x).pending = s.pending := rfl
@[simp] theorem State.setDie_fresh (s : State) (d : Nat) (x : Die) : (s.setDie d x).fresh = s.fresh := rfl
@[simp] theorem State.setDie_cores (s : State) (d : Nat) (x : Die) : (s.setDie d x).cores = s.cores := rfl
@[simp] theorem State.setDie_hold (s : State) (d : Nat) (x : Die) : (s.setDie d x).hold = s.hold := rfl
@[simp] theorem State.setDie_cache (s : State) (d : Nat) (x : Die) : (s.setDie d x).cache = s.cache := rfl
@[simp] theorem State.setDie_fills (s : State) (d : Nat) (x : Die) : (s.setDie d x).fills = s.fills := rfl
@[simp] theorem State.setDie_cmem (s : State) (d : Nat) (x : Die) : (s.setDie d x).cmem = s.cmem := rfl
@[simp] theorem State.setDie_hmem (s : State) (d : Nat) (x : Die) : (s.setDie d x).hmem = s.hmem := rfl
@[simp] theorem State.setDie_poison (s : State) (d : Nat) (x : Die) : (s.setDie d x).poison = s.poison := rfl
@[simp] theorem State.setDie_flips (s : State) (d : Nat) (x : Die) : (s.setDie d x).flips = s.flips := rfl
@[simp] theorem State.setDie_chans (s : State) (d : Nat) (x : Die) : (s.setDie d x).chans = s.chans := rfl
@[simp] theorem State.setDie_migr (s : State) (d : Nat) (x : Die) : (s.setDie d x).migr = s.migr := rfl
@[simp] theorem State.setDie_ptns (s : State) (d : Nat) (x : Die) : (s.setDie d x).ptns = s.ptns := rfl
@[simp] theorem State.setDie_ctxs (s : State) (d : Nat) (x : Die) : (s.setDie d x).ctxs = s.ctxs := rfl
@[simp] theorem State.setDie_ctxGens (s : State) (d : Nat) (x : Die) : (s.setDie d x).ctxGens = s.ctxGens := rfl
@[simp] theorem State.setDie_cooling (s : State) (d : Nat) (x : Die) : (s.setDie d x).cooling = s.cooling := rfl
@[simp] theorem State.setDie_links (s : State) (d : Nat) (x : Die) : (s.setDie d x).links = s.links := rfl
@[simp] theorem State.setDie_setup (s : State) (d : Nat) (x : Die) : (s.setDie d x).setup = s.setup := rfl
@[simp] theorem State.setDie_dealer (s : State) (d : Nat) (x : Die) : (s.setDie d x).dealer = s.dealer := rfl
@[simp] theorem State.setDie_helm (s : State) (d : Nat) (x : Die) : (s.setDie d x).helm = s.helm := rfl
@[simp] theorem State.setDie_meter (s : State) (d : Nat) (x : Die) : (s.setDie d x).meter = s.meter := rfl
@[simp] theorem State.setDie_pkg (s : State) (d : Nat) (x : Die) : (s.setDie d x).pkg = s.pkg := rfl

/-! ### setChan -/

@[simp] theorem State.setChan_pending (s : State) (c : Nat) (x : Chan) : (s.setChan c x).pending = s.pending := rfl
@[simp] theorem State.setChan_fresh (s : State) (c : Nat) (x : Chan) : (s.setChan c x).fresh = s.fresh := rfl
@[simp] theorem State.setChan_cores (s : State) (c : Nat) (x : Chan) : (s.setChan c x).cores = s.cores := rfl
@[simp] theorem State.setChan_hold (s : State) (c : Nat) (x : Chan) : (s.setChan c x).hold = s.hold := rfl
@[simp] theorem State.setChan_cache (s : State) (c : Nat) (x : Chan) : (s.setChan c x).cache = s.cache := rfl
@[simp] theorem State.setChan_fills (s : State) (c : Nat) (x : Chan) : (s.setChan c x).fills = s.fills := rfl
@[simp] theorem State.setChan_cmem (s : State) (c : Nat) (x : Chan) : (s.setChan c x).cmem = s.cmem := rfl
@[simp] theorem State.setChan_hmem (s : State) (c : Nat) (x : Chan) : (s.setChan c x).hmem = s.hmem := rfl
@[simp] theorem State.setChan_poison (s : State) (c : Nat) (x : Chan) : (s.setChan c x).poison = s.poison := rfl
@[simp] theorem State.setChan_flips (s : State) (c : Nat) (x : Chan) : (s.setChan c x).flips = s.flips := rfl
@[simp] theorem State.setChan_migr (s : State) (c : Nat) (x : Chan) : (s.setChan c x).migr = s.migr := rfl
@[simp] theorem State.setChan_ptns (s : State) (c : Nat) (x : Chan) : (s.setChan c x).ptns = s.ptns := rfl
@[simp] theorem State.setChan_ctxs (s : State) (c : Nat) (x : Chan) : (s.setChan c x).ctxs = s.ctxs := rfl
@[simp] theorem State.setChan_ctxGens (s : State) (c : Nat) (x : Chan) : (s.setChan c x).ctxGens = s.ctxGens := rfl
@[simp] theorem State.setChan_cooling (s : State) (c : Nat) (x : Chan) : (s.setChan c x).cooling = s.cooling := rfl
@[simp] theorem State.setChan_links (s : State) (c : Nat) (x : Chan) : (s.setChan c x).links = s.links := rfl
@[simp] theorem State.setChan_setup (s : State) (c : Nat) (x : Chan) : (s.setChan c x).setup = s.setup := rfl
@[simp] theorem State.setChan_dealer (s : State) (c : Nat) (x : Chan) : (s.setChan c x).dealer = s.dealer := rfl
@[simp] theorem State.setChan_dies (s : State) (c : Nat) (x : Chan) : (s.setChan c x).dies = s.dies := rfl
@[simp] theorem State.setChan_helm (s : State) (c : Nat) (x : Chan) : (s.setChan c x).helm = s.helm := rfl
@[simp] theorem State.setChan_meter (s : State) (c : Nat) (x : Chan) : (s.setChan c x).meter = s.meter := rfl
@[simp] theorem State.setChan_pkg (s : State) (c : Nat) (x : Chan) : (s.setChan c x).pkg = s.pkg := rfl

/-! ### countChan -/

@[simp] theorem State.countChan_pending (s : State) (c i k : Nat) : (s.countChan c i k).pending = s.pending := rfl
@[simp] theorem State.countChan_fresh (s : State) (c i k : Nat) : (s.countChan c i k).fresh = s.fresh := rfl
@[simp] theorem State.countChan_cores (s : State) (c i k : Nat) : (s.countChan c i k).cores = s.cores := rfl
@[simp] theorem State.countChan_hold (s : State) (c i k : Nat) : (s.countChan c i k).hold = s.hold := rfl
@[simp] theorem State.countChan_cache (s : State) (c i k : Nat) : (s.countChan c i k).cache = s.cache := rfl
@[simp] theorem State.countChan_fills (s : State) (c i k : Nat) : (s.countChan c i k).fills = s.fills := rfl
@[simp] theorem State.countChan_cmem (s : State) (c i k : Nat) : (s.countChan c i k).cmem = s.cmem := rfl
@[simp] theorem State.countChan_hmem (s : State) (c i k : Nat) : (s.countChan c i k).hmem = s.hmem := rfl
@[simp] theorem State.countChan_poison (s : State) (c i k : Nat) : (s.countChan c i k).poison = s.poison := rfl
@[simp] theorem State.countChan_flips (s : State) (c i k : Nat) : (s.countChan c i k).flips = s.flips := rfl
@[simp] theorem State.countChan_migr (s : State) (c i k : Nat) : (s.countChan c i k).migr = s.migr := rfl
@[simp] theorem State.countChan_ptns (s : State) (c i k : Nat) : (s.countChan c i k).ptns = s.ptns := rfl
@[simp] theorem State.countChan_ctxs (s : State) (c i k : Nat) : (s.countChan c i k).ctxs = s.ctxs := rfl
@[simp] theorem State.countChan_ctxGens (s : State) (c i k : Nat) : (s.countChan c i k).ctxGens = s.ctxGens := rfl
@[simp] theorem State.countChan_cooling (s : State) (c i k : Nat) : (s.countChan c i k).cooling = s.cooling := rfl
@[simp] theorem State.countChan_links (s : State) (c i k : Nat) : (s.countChan c i k).links = s.links := rfl
@[simp] theorem State.countChan_setup (s : State) (c i k : Nat) : (s.countChan c i k).setup = s.setup := rfl
@[simp] theorem State.countChan_dealer (s : State) (c i k : Nat) : (s.countChan c i k).dealer = s.dealer := rfl
@[simp] theorem State.countChan_dies (s : State) (c i k : Nat) : (s.countChan c i k).dies = s.dies := rfl
@[simp] theorem State.countChan_helm (s : State) (c i k : Nat) : (s.countChan c i k).helm = s.helm := rfl
@[simp] theorem State.countChan_meter (s : State) (c i k : Nat) : (s.countChan c i k).meter = s.meter := rfl
@[simp] theorem State.countChan_pkg (s : State) (c i k : Nat) : (s.countChan c i k).pkg = s.pkg := rfl

/-! ### setPort -/

@[simp] theorem State.setPort_pending (s : State) (k : Nat) (x : Port) : (s.setPort k x).pending = s.pending := rfl
@[simp] theorem State.setPort_fresh (s : State) (k : Nat) (x : Port) : (s.setPort k x).fresh = s.fresh := rfl
@[simp] theorem State.setPort_cores (s : State) (k : Nat) (x : Port) : (s.setPort k x).cores = s.cores := rfl
@[simp] theorem State.setPort_hold (s : State) (k : Nat) (x : Port) : (s.setPort k x).hold = s.hold := rfl
@[simp] theorem State.setPort_cache (s : State) (k : Nat) (x : Port) : (s.setPort k x).cache = s.cache := rfl
@[simp] theorem State.setPort_fills (s : State) (k : Nat) (x : Port) : (s.setPort k x).fills = s.fills := rfl
@[simp] theorem State.setPort_cmem (s : State) (k : Nat) (x : Port) : (s.setPort k x).cmem = s.cmem := rfl
@[simp] theorem State.setPort_hmem (s : State) (k : Nat) (x : Port) : (s.setPort k x).hmem = s.hmem := rfl
@[simp] theorem State.setPort_poison (s : State) (k : Nat) (x : Port) : (s.setPort k x).poison = s.poison := rfl
@[simp] theorem State.setPort_flips (s : State) (k : Nat) (x : Port) : (s.setPort k x).flips = s.flips := rfl
@[simp] theorem State.setPort_chans (s : State) (k : Nat) (x : Port) : (s.setPort k x).chans = s.chans := rfl
@[simp] theorem State.setPort_migr (s : State) (k : Nat) (x : Port) : (s.setPort k x).migr = s.migr := rfl
@[simp] theorem State.setPort_ptns (s : State) (k : Nat) (x : Port) : (s.setPort k x).ptns = s.ptns := rfl
@[simp] theorem State.setPort_ctxs (s : State) (k : Nat) (x : Port) : (s.setPort k x).ctxs = s.ctxs := rfl
@[simp] theorem State.setPort_ctxGens (s : State) (k : Nat) (x : Port) : (s.setPort k x).ctxGens = s.ctxGens := rfl
@[simp] theorem State.setPort_cooling (s : State) (k : Nat) (x : Port) : (s.setPort k x).cooling = s.cooling := rfl
@[simp] theorem State.setPort_setup (s : State) (k : Nat) (x : Port) : (s.setPort k x).setup = s.setup := rfl
@[simp] theorem State.setPort_dealer (s : State) (k : Nat) (x : Port) : (s.setPort k x).dealer = s.dealer := rfl
@[simp] theorem State.setPort_dies (s : State) (k : Nat) (x : Port) : (s.setPort k x).dies = s.dies := rfl
@[simp] theorem State.setPort_helm (s : State) (k : Nat) (x : Port) : (s.setPort k x).helm = s.helm := rfl
@[simp] theorem State.setPort_meter (s : State) (k : Nat) (x : Port) : (s.setPort k x).meter = s.meter := rfl
@[simp] theorem State.setPort_pkg (s : State) (k : Nat) (x : Port) : (s.setPort k x).pkg = s.pkg := rfl

/-! ### countPort -/

@[simp] theorem State.countPort_pending (s : State) (j i k : Nat) : (s.countPort j i k).pending = s.pending := rfl
@[simp] theorem State.countPort_fresh (s : State) (j i k : Nat) : (s.countPort j i k).fresh = s.fresh := rfl
@[simp] theorem State.countPort_cores (s : State) (j i k : Nat) : (s.countPort j i k).cores = s.cores := rfl
@[simp] theorem State.countPort_hold (s : State) (j i k : Nat) : (s.countPort j i k).hold = s.hold := rfl
@[simp] theorem State.countPort_cache (s : State) (j i k : Nat) : (s.countPort j i k).cache = s.cache := rfl
@[simp] theorem State.countPort_fills (s : State) (j i k : Nat) : (s.countPort j i k).fills = s.fills := rfl
@[simp] theorem State.countPort_cmem (s : State) (j i k : Nat) : (s.countPort j i k).cmem = s.cmem := rfl
@[simp] theorem State.countPort_hmem (s : State) (j i k : Nat) : (s.countPort j i k).hmem = s.hmem := rfl
@[simp] theorem State.countPort_poison (s : State) (j i k : Nat) : (s.countPort j i k).poison = s.poison := rfl
@[simp] theorem State.countPort_flips (s : State) (j i k : Nat) : (s.countPort j i k).flips = s.flips := rfl
@[simp] theorem State.countPort_chans (s : State) (j i k : Nat) : (s.countPort j i k).chans = s.chans := rfl
@[simp] theorem State.countPort_migr (s : State) (j i k : Nat) : (s.countPort j i k).migr = s.migr := rfl
@[simp] theorem State.countPort_ptns (s : State) (j i k : Nat) : (s.countPort j i k).ptns = s.ptns := rfl
@[simp] theorem State.countPort_ctxs (s : State) (j i k : Nat) : (s.countPort j i k).ctxs = s.ctxs := rfl
@[simp] theorem State.countPort_ctxGens (s : State) (j i k : Nat) : (s.countPort j i k).ctxGens = s.ctxGens := rfl
@[simp] theorem State.countPort_cooling (s : State) (j i k : Nat) : (s.countPort j i k).cooling = s.cooling := rfl
@[simp] theorem State.countPort_setup (s : State) (j i k : Nat) : (s.countPort j i k).setup = s.setup := rfl
@[simp] theorem State.countPort_dealer (s : State) (j i k : Nat) : (s.countPort j i k).dealer = s.dealer := rfl
@[simp] theorem State.countPort_dies (s : State) (j i k : Nat) : (s.countPort j i k).dies = s.dies := rfl
@[simp] theorem State.countPort_helm (s : State) (j i k : Nat) : (s.countPort j i k).helm = s.helm := rfl
@[simp] theorem State.countPort_meter (s : State) (j i k : Nat) : (s.countPort j i k).meter = s.meter := rfl
@[simp] theorem State.countPort_pkg (s : State) (j i k : Nat) : (s.countPort j i k).pkg = s.pkg := rfl

/-! ### countPkg -/

@[simp] theorem State.countPkg_pending (s : State) (i k : Nat) : (s.countPkg i k).pending = s.pending := rfl
@[simp] theorem State.countPkg_fresh (s : State) (i k : Nat) : (s.countPkg i k).fresh = s.fresh := rfl
@[simp] theorem State.countPkg_cores (s : State) (i k : Nat) : (s.countPkg i k).cores = s.cores := rfl
@[simp] theorem State.countPkg_hold (s : State) (i k : Nat) : (s.countPkg i k).hold = s.hold := rfl
@[simp] theorem State.countPkg_cache (s : State) (i k : Nat) : (s.countPkg i k).cache = s.cache := rfl
@[simp] theorem State.countPkg_fills (s : State) (i k : Nat) : (s.countPkg i k).fills = s.fills := rfl
@[simp] theorem State.countPkg_cmem (s : State) (i k : Nat) : (s.countPkg i k).cmem = s.cmem := rfl
@[simp] theorem State.countPkg_hmem (s : State) (i k : Nat) : (s.countPkg i k).hmem = s.hmem := rfl
@[simp] theorem State.countPkg_poison (s : State) (i k : Nat) : (s.countPkg i k).poison = s.poison := rfl
@[simp] theorem State.countPkg_flips (s : State) (i k : Nat) : (s.countPkg i k).flips = s.flips := rfl
@[simp] theorem State.countPkg_chans (s : State) (i k : Nat) : (s.countPkg i k).chans = s.chans := rfl
@[simp] theorem State.countPkg_migr (s : State) (i k : Nat) : (s.countPkg i k).migr = s.migr := rfl
@[simp] theorem State.countPkg_ptns (s : State) (i k : Nat) : (s.countPkg i k).ptns = s.ptns := rfl
@[simp] theorem State.countPkg_ctxs (s : State) (i k : Nat) : (s.countPkg i k).ctxs = s.ctxs := rfl
@[simp] theorem State.countPkg_ctxGens (s : State) (i k : Nat) : (s.countPkg i k).ctxGens = s.ctxGens := rfl
@[simp] theorem State.countPkg_cooling (s : State) (i k : Nat) : (s.countPkg i k).cooling = s.cooling := rfl
@[simp] theorem State.countPkg_setup (s : State) (i k : Nat) : (s.countPkg i k).setup = s.setup := rfl
@[simp] theorem State.countPkg_dealer (s : State) (i k : Nat) : (s.countPkg i k).dealer = s.dealer := rfl
@[simp] theorem State.countPkg_dies (s : State) (i k : Nat) : (s.countPkg i k).dies = s.dies := rfl
@[simp] theorem State.countPkg_helm (s : State) (i k : Nat) : (s.countPkg i k).helm = s.helm := rfl
@[simp] theorem State.countPkg_meter (s : State) (i k : Nat) : (s.countPkg i k).meter = s.meter := rfl
@[simp] theorem State.countPkg_pkg (s : State) (i k : Nat) : (s.countPkg i k).pkg = s.pkg := rfl

/-! ### setLinks -/

@[simp] theorem State.setLinks_pending (s : State) (l : Links) : (s.setLinks l).pending = s.pending := rfl
@[simp] theorem State.setLinks_fresh (s : State) (l : Links) : (s.setLinks l).fresh = s.fresh := rfl
@[simp] theorem State.setLinks_cores (s : State) (l : Links) : (s.setLinks l).cores = s.cores := rfl
@[simp] theorem State.setLinks_hold (s : State) (l : Links) : (s.setLinks l).hold = s.hold := rfl
@[simp] theorem State.setLinks_cache (s : State) (l : Links) : (s.setLinks l).cache = s.cache := rfl
@[simp] theorem State.setLinks_fills (s : State) (l : Links) : (s.setLinks l).fills = s.fills := rfl
@[simp] theorem State.setLinks_cmem (s : State) (l : Links) : (s.setLinks l).cmem = s.cmem := rfl
@[simp] theorem State.setLinks_hmem (s : State) (l : Links) : (s.setLinks l).hmem = s.hmem := rfl
@[simp] theorem State.setLinks_poison (s : State) (l : Links) : (s.setLinks l).poison = s.poison := rfl
@[simp] theorem State.setLinks_flips (s : State) (l : Links) : (s.setLinks l).flips = s.flips := rfl
@[simp] theorem State.setLinks_chans (s : State) (l : Links) : (s.setLinks l).chans = s.chans := rfl
@[simp] theorem State.setLinks_migr (s : State) (l : Links) : (s.setLinks l).migr = s.migr := rfl
@[simp] theorem State.setLinks_ptns (s : State) (l : Links) : (s.setLinks l).ptns = s.ptns := rfl
@[simp] theorem State.setLinks_ctxs (s : State) (l : Links) : (s.setLinks l).ctxs = s.ctxs := rfl
@[simp] theorem State.setLinks_ctxGens (s : State) (l : Links) : (s.setLinks l).ctxGens = s.ctxGens := rfl
@[simp] theorem State.setLinks_cooling (s : State) (l : Links) : (s.setLinks l).cooling = s.cooling := rfl
@[simp] theorem State.setLinks_setup (s : State) (l : Links) : (s.setLinks l).setup = s.setup := rfl
@[simp] theorem State.setLinks_dealer (s : State) (l : Links) : (s.setLinks l).dealer = s.dealer := rfl
@[simp] theorem State.setLinks_dies (s : State) (l : Links) : (s.setLinks l).dies = s.dies := rfl
@[simp] theorem State.setLinks_helm (s : State) (l : Links) : (s.setLinks l).helm = s.helm := rfl
@[simp] theorem State.setLinks_meter (s : State) (l : Links) : (s.setLinks l).meter = s.meter := rfl
@[simp] theorem State.setLinks_pkg (s : State) (l : Links) : (s.setLinks l).pkg = s.pkg := rfl

/-! ### setCtx -/

@[simp] theorem State.setCtx_pending (s : State) (id : Nat) (x : Ctx) : (s.setCtx id x).pending = s.pending := rfl
@[simp] theorem State.setCtx_fresh (s : State) (id : Nat) (x : Ctx) : (s.setCtx id x).fresh = s.fresh := rfl
@[simp] theorem State.setCtx_cores (s : State) (id : Nat) (x : Ctx) : (s.setCtx id x).cores = s.cores := rfl
@[simp] theorem State.setCtx_hold (s : State) (id : Nat) (x : Ctx) : (s.setCtx id x).hold = s.hold := rfl
@[simp] theorem State.setCtx_cache (s : State) (id : Nat) (x : Ctx) : (s.setCtx id x).cache = s.cache := rfl
@[simp] theorem State.setCtx_fills (s : State) (id : Nat) (x : Ctx) : (s.setCtx id x).fills = s.fills := rfl
@[simp] theorem State.setCtx_cmem (s : State) (id : Nat) (x : Ctx) : (s.setCtx id x).cmem = s.cmem := rfl
@[simp] theorem State.setCtx_hmem (s : State) (id : Nat) (x : Ctx) : (s.setCtx id x).hmem = s.hmem := rfl
@[simp] theorem State.setCtx_poison (s : State) (id : Nat) (x : Ctx) : (s.setCtx id x).poison = s.poison := rfl
@[simp] theorem State.setCtx_flips (s : State) (id : Nat) (x : Ctx) : (s.setCtx id x).flips = s.flips := rfl
@[simp] theorem State.setCtx_chans (s : State) (id : Nat) (x : Ctx) : (s.setCtx id x).chans = s.chans := rfl
@[simp] theorem State.setCtx_migr (s : State) (id : Nat) (x : Ctx) : (s.setCtx id x).migr = s.migr := rfl
@[simp] theorem State.setCtx_ptns (s : State) (id : Nat) (x : Ctx) : (s.setCtx id x).ptns = s.ptns := rfl
@[simp] theorem State.setCtx_ctxGens (s : State) (id : Nat) (x : Ctx) : (s.setCtx id x).ctxGens = s.ctxGens := rfl
@[simp] theorem State.setCtx_cooling (s : State) (id : Nat) (x : Ctx) : (s.setCtx id x).cooling = s.cooling := rfl
@[simp] theorem State.setCtx_links (s : State) (id : Nat) (x : Ctx) : (s.setCtx id x).links = s.links := rfl
@[simp] theorem State.setCtx_setup (s : State) (id : Nat) (x : Ctx) : (s.setCtx id x).setup = s.setup := rfl
@[simp] theorem State.setCtx_dealer (s : State) (id : Nat) (x : Ctx) : (s.setCtx id x).dealer = s.dealer := rfl
@[simp] theorem State.setCtx_dies (s : State) (id : Nat) (x : Ctx) : (s.setCtx id x).dies = s.dies := rfl
@[simp] theorem State.setCtx_helm (s : State) (id : Nat) (x : Ctx) : (s.setCtx id x).helm = s.helm := rfl
@[simp] theorem State.setCtx_meter (s : State) (id : Nat) (x : Ctx) : (s.setCtx id x).meter = s.meter := rfl
@[simp] theorem State.setCtx_pkg (s : State) (id : Nat) (x : Ctx) : (s.setCtx id x).pkg = s.pkg := rfl

/-! ### setMeter -/

@[simp] theorem State.setMeter_pending (s : State) (m : Meter) : (s.setMeter m).pending = s.pending := rfl
@[simp] theorem State.setMeter_fresh (s : State) (m : Meter) : (s.setMeter m).fresh = s.fresh := rfl
@[simp] theorem State.setMeter_cores (s : State) (m : Meter) : (s.setMeter m).cores = s.cores := rfl
@[simp] theorem State.setMeter_hold (s : State) (m : Meter) : (s.setMeter m).hold = s.hold := rfl
@[simp] theorem State.setMeter_cache (s : State) (m : Meter) : (s.setMeter m).cache = s.cache := rfl
@[simp] theorem State.setMeter_fills (s : State) (m : Meter) : (s.setMeter m).fills = s.fills := rfl
@[simp] theorem State.setMeter_cmem (s : State) (m : Meter) : (s.setMeter m).cmem = s.cmem := rfl
@[simp] theorem State.setMeter_hmem (s : State) (m : Meter) : (s.setMeter m).hmem = s.hmem := rfl
@[simp] theorem State.setMeter_poison (s : State) (m : Meter) : (s.setMeter m).poison = s.poison := rfl
@[simp] theorem State.setMeter_flips (s : State) (m : Meter) : (s.setMeter m).flips = s.flips := rfl
@[simp] theorem State.setMeter_chans (s : State) (m : Meter) : (s.setMeter m).chans = s.chans := rfl
@[simp] theorem State.setMeter_migr (s : State) (m : Meter) : (s.setMeter m).migr = s.migr := rfl
@[simp] theorem State.setMeter_ptns (s : State) (m : Meter) : (s.setMeter m).ptns = s.ptns := rfl
@[simp] theorem State.setMeter_ctxs (s : State) (m : Meter) : (s.setMeter m).ctxs = s.ctxs := rfl
@[simp] theorem State.setMeter_ctxGens (s : State) (m : Meter) : (s.setMeter m).ctxGens = s.ctxGens := rfl
@[simp] theorem State.setMeter_cooling (s : State) (m : Meter) : (s.setMeter m).cooling = s.cooling := rfl
@[simp] theorem State.setMeter_links (s : State) (m : Meter) : (s.setMeter m).links = s.links := rfl
@[simp] theorem State.setMeter_setup (s : State) (m : Meter) : (s.setMeter m).setup = s.setup := rfl
@[simp] theorem State.setMeter_dealer (s : State) (m : Meter) : (s.setMeter m).dealer = s.dealer := rfl
@[simp] theorem State.setMeter_dies (s : State) (m : Meter) : (s.setMeter m).dies = s.dies := rfl
@[simp] theorem State.setMeter_helm (s : State) (m : Meter) : (s.setMeter m).helm = s.helm := rfl
@[simp] theorem State.setMeter_pkg (s : State) (m : Meter) : (s.setMeter m).pkg = s.pkg := rfl

/-! ### setDealer -/

@[simp] theorem State.setDealer_pending (s : State) (d : Dealer) : (s.setDealer d).pending = s.pending := rfl
@[simp] theorem State.setDealer_fresh (s : State) (d : Dealer) : (s.setDealer d).fresh = s.fresh := rfl
@[simp] theorem State.setDealer_cores (s : State) (d : Dealer) : (s.setDealer d).cores = s.cores := rfl
@[simp] theorem State.setDealer_hold (s : State) (d : Dealer) : (s.setDealer d).hold = s.hold := rfl
@[simp] theorem State.setDealer_cache (s : State) (d : Dealer) : (s.setDealer d).cache = s.cache := rfl
@[simp] theorem State.setDealer_fills (s : State) (d : Dealer) : (s.setDealer d).fills = s.fills := rfl
@[simp] theorem State.setDealer_cmem (s : State) (d : Dealer) : (s.setDealer d).cmem = s.cmem := rfl
@[simp] theorem State.setDealer_hmem (s : State) (d : Dealer) : (s.setDealer d).hmem = s.hmem := rfl
@[simp] theorem State.setDealer_poison (s : State) (d : Dealer) : (s.setDealer d).poison = s.poison := rfl
@[simp] theorem State.setDealer_flips (s : State) (d : Dealer) : (s.setDealer d).flips = s.flips := rfl
@[simp] theorem State.setDealer_chans (s : State) (d : Dealer) : (s.setDealer d).chans = s.chans := rfl
@[simp] theorem State.setDealer_migr (s : State) (d : Dealer) : (s.setDealer d).migr = s.migr := rfl
@[simp] theorem State.setDealer_ptns (s : State) (d : Dealer) : (s.setDealer d).ptns = s.ptns := rfl
@[simp] theorem State.setDealer_ctxs (s : State) (d : Dealer) : (s.setDealer d).ctxs = s.ctxs := rfl
@[simp] theorem State.setDealer_ctxGens (s : State) (d : Dealer) : (s.setDealer d).ctxGens = s.ctxGens := rfl
@[simp] theorem State.setDealer_cooling (s : State) (d : Dealer) : (s.setDealer d).cooling = s.cooling := rfl
@[simp] theorem State.setDealer_links (s : State) (d : Dealer) : (s.setDealer d).links = s.links := rfl
@[simp] theorem State.setDealer_setup (s : State) (d : Dealer) : (s.setDealer d).setup = s.setup := rfl
@[simp] theorem State.setDealer_dies (s : State) (d : Dealer) : (s.setDealer d).dies = s.dies := rfl
@[simp] theorem State.setDealer_helm (s : State) (d : Dealer) : (s.setDealer d).helm = s.helm := rfl
@[simp] theorem State.setDealer_meter (s : State) (d : Dealer) : (s.setDealer d).meter = s.meter := rfl
@[simp] theorem State.setDealer_pkg (s : State) (d : Dealer) : (s.setDealer d).pkg = s.pkg := rfl

/-! ### countDie -/

@[simp] theorem State.countDie_pending (s : State) (d i k : Nat) : (s.countDie d i k).pending = s.pending := rfl
@[simp] theorem State.countDie_fresh (s : State) (d i k : Nat) : (s.countDie d i k).fresh = s.fresh := rfl
@[simp] theorem State.countDie_cores (s : State) (d i k : Nat) : (s.countDie d i k).cores = s.cores := rfl
@[simp] theorem State.countDie_hold (s : State) (d i k : Nat) : (s.countDie d i k).hold = s.hold := rfl
@[simp] theorem State.countDie_cache (s : State) (d i k : Nat) : (s.countDie d i k).cache = s.cache := rfl
@[simp] theorem State.countDie_fills (s : State) (d i k : Nat) : (s.countDie d i k).fills = s.fills := rfl
@[simp] theorem State.countDie_cmem (s : State) (d i k : Nat) : (s.countDie d i k).cmem = s.cmem := rfl
@[simp] theorem State.countDie_hmem (s : State) (d i k : Nat) : (s.countDie d i k).hmem = s.hmem := rfl
@[simp] theorem State.countDie_poison (s : State) (d i k : Nat) : (s.countDie d i k).poison = s.poison := rfl
@[simp] theorem State.countDie_flips (s : State) (d i k : Nat) : (s.countDie d i k).flips = s.flips := rfl
@[simp] theorem State.countDie_chans (s : State) (d i k : Nat) : (s.countDie d i k).chans = s.chans := rfl
@[simp] theorem State.countDie_migr (s : State) (d i k : Nat) : (s.countDie d i k).migr = s.migr := rfl
@[simp] theorem State.countDie_ptns (s : State) (d i k : Nat) : (s.countDie d i k).ptns = s.ptns := rfl
@[simp] theorem State.countDie_ctxs (s : State) (d i k : Nat) : (s.countDie d i k).ctxs = s.ctxs := rfl
@[simp] theorem State.countDie_ctxGens (s : State) (d i k : Nat) : (s.countDie d i k).ctxGens = s.ctxGens := rfl
@[simp] theorem State.countDie_cooling (s : State) (d i k : Nat) : (s.countDie d i k).cooling = s.cooling := rfl
@[simp] theorem State.countDie_links (s : State) (d i k : Nat) : (s.countDie d i k).links = s.links := rfl
@[simp] theorem State.countDie_setup (s : State) (d i k : Nat) : (s.countDie d i k).setup = s.setup := rfl
@[simp] theorem State.countDie_dies (s : State) (d i k : Nat) : (s.countDie d i k).dies = s.dies := rfl
@[simp] theorem State.countDie_helm (s : State) (d i k : Nat) : (s.countDie d i k).helm = s.helm := rfl
@[simp] theorem State.countDie_meter (s : State) (d i k : Nat) : (s.countDie d i k).meter = s.meter := rfl
@[simp] theorem State.countDie_pkg (s : State) (d i k : Nat) : (s.countDie d i k).pkg = s.pkg := rfl

/-! ### raise -/

@[simp] theorem State.raise_pending (s : State) (k : EventKind) (a b : Nat) : (s.raise k a b).pending = s.pending := rfl
@[simp] theorem State.raise_fresh (s : State) (k : EventKind) (a b : Nat) : (s.raise k a b).fresh = s.fresh := rfl
@[simp] theorem State.raise_cores (s : State) (k : EventKind) (a b : Nat) : (s.raise k a b).cores = s.cores := rfl
@[simp] theorem State.raise_hold (s : State) (k : EventKind) (a b : Nat) : (s.raise k a b).hold = s.hold := rfl
@[simp] theorem State.raise_cache (s : State) (k : EventKind) (a b : Nat) : (s.raise k a b).cache = s.cache := rfl
@[simp] theorem State.raise_fills (s : State) (k : EventKind) (a b : Nat) : (s.raise k a b).fills = s.fills := rfl
@[simp] theorem State.raise_cmem (s : State) (k : EventKind) (a b : Nat) : (s.raise k a b).cmem = s.cmem := rfl
@[simp] theorem State.raise_hmem (s : State) (k : EventKind) (a b : Nat) : (s.raise k a b).hmem = s.hmem := rfl
@[simp] theorem State.raise_poison (s : State) (k : EventKind) (a b : Nat) : (s.raise k a b).poison = s.poison := rfl
@[simp] theorem State.raise_flips (s : State) (k : EventKind) (a b : Nat) : (s.raise k a b).flips = s.flips := rfl
@[simp] theorem State.raise_chans (s : State) (k : EventKind) (a b : Nat) : (s.raise k a b).chans = s.chans := rfl
@[simp] theorem State.raise_migr (s : State) (k : EventKind) (a b : Nat) : (s.raise k a b).migr = s.migr := rfl
@[simp] theorem State.raise_ptns (s : State) (k : EventKind) (a b : Nat) : (s.raise k a b).ptns = s.ptns := rfl
@[simp] theorem State.raise_ctxs (s : State) (k : EventKind) (a b : Nat) : (s.raise k a b).ctxs = s.ctxs := rfl
@[simp] theorem State.raise_ctxGens (s : State) (k : EventKind) (a b : Nat) : (s.raise k a b).ctxGens = s.ctxGens := rfl
@[simp] theorem State.raise_cooling (s : State) (k : EventKind) (a b : Nat) : (s.raise k a b).cooling = s.cooling := rfl
@[simp] theorem State.raise_links (s : State) (k : EventKind) (a b : Nat) : (s.raise k a b).links = s.links := rfl
@[simp] theorem State.raise_setup (s : State) (k : EventKind) (a b : Nat) : (s.raise k a b).setup = s.setup := rfl
@[simp] theorem State.raise_dies (s : State) (k : EventKind) (a b : Nat) : (s.raise k a b).dies = s.dies := rfl
@[simp] theorem State.raise_helm (s : State) (k : EventKind) (a b : Nat) : (s.raise k a b).helm = s.helm := rfl
@[simp] theorem State.raise_meter (s : State) (k : EventKind) (a b : Nat) : (s.raise k a b).meter = s.meter := rfl
@[simp] theorem State.raise_pkg (s : State) (k : EventKind) (a b : Nat) : (s.raise k a b).pkg = s.pkg := rfl

/-! ### tick -/

@[simp] theorem State.tick_pending (s : State) : (s.tick).pending = s.pending := rfl
@[simp] theorem State.tick_fresh (s : State) : (s.tick).fresh = s.fresh := rfl
@[simp] theorem State.tick_cores (s : State) : (s.tick).cores = s.cores := rfl
@[simp] theorem State.tick_hold (s : State) : (s.tick).hold = s.hold := rfl
@[simp] theorem State.tick_cache (s : State) : (s.tick).cache = s.cache := rfl
@[simp] theorem State.tick_fills (s : State) : (s.tick).fills = s.fills := rfl
@[simp] theorem State.tick_cmem (s : State) : (s.tick).cmem = s.cmem := rfl
@[simp] theorem State.tick_hmem (s : State) : (s.tick).hmem = s.hmem := rfl
@[simp] theorem State.tick_poison (s : State) : (s.tick).poison = s.poison := rfl
@[simp] theorem State.tick_flips (s : State) : (s.tick).flips = s.flips := rfl
@[simp] theorem State.tick_chans (s : State) : (s.tick).chans = s.chans := rfl
@[simp] theorem State.tick_migr (s : State) : (s.tick).migr = s.migr := rfl
@[simp] theorem State.tick_ptns (s : State) : (s.tick).ptns = s.ptns := rfl
@[simp] theorem State.tick_ctxs (s : State) : (s.tick).ctxs = s.ctxs := rfl
@[simp] theorem State.tick_ctxGens (s : State) : (s.tick).ctxGens = s.ctxGens := rfl
@[simp] theorem State.tick_cooling (s : State) : (s.tick).cooling = s.cooling := rfl
@[simp] theorem State.tick_links (s : State) : (s.tick).links = s.links := rfl
@[simp] theorem State.tick_setup (s : State) : (s.tick).setup = s.setup := rfl
@[simp] theorem State.tick_dies (s : State) : (s.tick).dies = s.dies := rfl
@[simp] theorem State.tick_helm (s : State) : (s.tick).helm = s.helm := rfl
@[simp] theorem State.tick_meter (s : State) : (s.tick).meter = s.meter := rfl
@[simp] theorem State.tick_pkg (s : State) : (s.tick).pkg = s.pkg := rfl

/-! ### setSetup -/

@[simp] theorem State.setSetup_pending (s : State) (u : Setup) : (s.setSetup u).pending = s.pending := rfl
@[simp] theorem State.setSetup_fresh (s : State) (u : Setup) : (s.setSetup u).fresh = s.fresh := rfl
@[simp] theorem State.setSetup_cores (s : State) (u : Setup) : (s.setSetup u).cores = s.cores := rfl
@[simp] theorem State.setSetup_hold (s : State) (u : Setup) : (s.setSetup u).hold = s.hold := rfl
@[simp] theorem State.setSetup_cache (s : State) (u : Setup) : (s.setSetup u).cache = s.cache := rfl
@[simp] theorem State.setSetup_fills (s : State) (u : Setup) : (s.setSetup u).fills = s.fills := rfl
@[simp] theorem State.setSetup_cmem (s : State) (u : Setup) : (s.setSetup u).cmem = s.cmem := rfl
@[simp] theorem State.setSetup_hmem (s : State) (u : Setup) : (s.setSetup u).hmem = s.hmem := rfl
@[simp] theorem State.setSetup_poison (s : State) (u : Setup) : (s.setSetup u).poison = s.poison := rfl
@[simp] theorem State.setSetup_flips (s : State) (u : Setup) : (s.setSetup u).flips = s.flips := rfl
@[simp] theorem State.setSetup_chans (s : State) (u : Setup) : (s.setSetup u).chans = s.chans := rfl
@[simp] theorem State.setSetup_migr (s : State) (u : Setup) : (s.setSetup u).migr = s.migr := rfl
@[simp] theorem State.setSetup_ptns (s : State) (u : Setup) : (s.setSetup u).ptns = s.ptns := rfl
@[simp] theorem State.setSetup_ctxs (s : State) (u : Setup) : (s.setSetup u).ctxs = s.ctxs := rfl
@[simp] theorem State.setSetup_ctxGens (s : State) (u : Setup) : (s.setSetup u).ctxGens = s.ctxGens := rfl
@[simp] theorem State.setSetup_cooling (s : State) (u : Setup) : (s.setSetup u).cooling = s.cooling := rfl
@[simp] theorem State.setSetup_links (s : State) (u : Setup) : (s.setSetup u).links = s.links := rfl
@[simp] theorem State.setSetup_dealer (s : State) (u : Setup) : (s.setSetup u).dealer = s.dealer := rfl
@[simp] theorem State.setSetup_dies (s : State) (u : Setup) : (s.setSetup u).dies = s.dies := rfl
@[simp] theorem State.setSetup_helm (s : State) (u : Setup) : (s.setSetup u).helm = s.helm := rfl
@[simp] theorem State.setSetup_meter (s : State) (u : Setup) : (s.setSetup u).meter = s.meter := rfl
@[simp] theorem State.setSetup_pkg (s : State) (u : Setup) : (s.setSetup u).pkg = s.pkg := rfl

/-! ### setReg -/

@[simp] theorem State.setReg_pending (s : State) (o : Nat) (v : DWord) : (s.setReg o v).pending = s.pending := rfl
@[simp] theorem State.setReg_fresh (s : State) (o : Nat) (v : DWord) : (s.setReg o v).fresh = s.fresh := rfl
@[simp] theorem State.setReg_cores (s : State) (o : Nat) (v : DWord) : (s.setReg o v).cores = s.cores := rfl
@[simp] theorem State.setReg_hold (s : State) (o : Nat) (v : DWord) : (s.setReg o v).hold = s.hold := rfl
@[simp] theorem State.setReg_cache (s : State) (o : Nat) (v : DWord) : (s.setReg o v).cache = s.cache := rfl
@[simp] theorem State.setReg_fills (s : State) (o : Nat) (v : DWord) : (s.setReg o v).fills = s.fills := rfl
@[simp] theorem State.setReg_cmem (s : State) (o : Nat) (v : DWord) : (s.setReg o v).cmem = s.cmem := rfl
@[simp] theorem State.setReg_hmem (s : State) (o : Nat) (v : DWord) : (s.setReg o v).hmem = s.hmem := rfl
@[simp] theorem State.setReg_poison (s : State) (o : Nat) (v : DWord) : (s.setReg o v).poison = s.poison := rfl
@[simp] theorem State.setReg_flips (s : State) (o : Nat) (v : DWord) : (s.setReg o v).flips = s.flips := rfl
@[simp] theorem State.setReg_chans (s : State) (o : Nat) (v : DWord) : (s.setReg o v).chans = s.chans := rfl
@[simp] theorem State.setReg_migr (s : State) (o : Nat) (v : DWord) : (s.setReg o v).migr = s.migr := rfl
@[simp] theorem State.setReg_ptns (s : State) (o : Nat) (v : DWord) : (s.setReg o v).ptns = s.ptns := rfl
@[simp] theorem State.setReg_ctxs (s : State) (o : Nat) (v : DWord) : (s.setReg o v).ctxs = s.ctxs := rfl
@[simp] theorem State.setReg_ctxGens (s : State) (o : Nat) (v : DWord) : (s.setReg o v).ctxGens = s.ctxGens := rfl
@[simp] theorem State.setReg_cooling (s : State) (o : Nat) (v : DWord) : (s.setReg o v).cooling = s.cooling := rfl
@[simp] theorem State.setReg_links (s : State) (o : Nat) (v : DWord) : (s.setReg o v).links = s.links := rfl
@[simp] theorem State.setReg_dealer (s : State) (o : Nat) (v : DWord) : (s.setReg o v).dealer = s.dealer := rfl
@[simp] theorem State.setReg_dies (s : State) (o : Nat) (v : DWord) : (s.setReg o v).dies = s.dies := rfl
@[simp] theorem State.setReg_helm (s : State) (o : Nat) (v : DWord) : (s.setReg o v).helm = s.helm := rfl
@[simp] theorem State.setReg_meter (s : State) (o : Nat) (v : DWord) : (s.setReg o v).meter = s.meter := rfl
@[simp] theorem State.setReg_pkg (s : State) (o : Nat) (v : DWord) : (s.setReg o v).pkg = s.pkg := rfl

/-! ### setField -/

@[simp] theorem State.setField_pending (s : State) (o hi lo x : Nat) : (s.setField o hi lo x).pending = s.pending := rfl
@[simp] theorem State.setField_fresh (s : State) (o hi lo x : Nat) : (s.setField o hi lo x).fresh = s.fresh := rfl
@[simp] theorem State.setField_cores (s : State) (o hi lo x : Nat) : (s.setField o hi lo x).cores = s.cores := rfl
@[simp] theorem State.setField_hold (s : State) (o hi lo x : Nat) : (s.setField o hi lo x).hold = s.hold := rfl
@[simp] theorem State.setField_cache (s : State) (o hi lo x : Nat) : (s.setField o hi lo x).cache = s.cache := rfl
@[simp] theorem State.setField_fills (s : State) (o hi lo x : Nat) : (s.setField o hi lo x).fills = s.fills := rfl
@[simp] theorem State.setField_cmem (s : State) (o hi lo x : Nat) : (s.setField o hi lo x).cmem = s.cmem := rfl
@[simp] theorem State.setField_hmem (s : State) (o hi lo x : Nat) : (s.setField o hi lo x).hmem = s.hmem := rfl
@[simp] theorem State.setField_poison (s : State) (o hi lo x : Nat) : (s.setField o hi lo x).poison = s.poison := rfl
@[simp] theorem State.setField_flips (s : State) (o hi lo x : Nat) : (s.setField o hi lo x).flips = s.flips := rfl
@[simp] theorem State.setField_chans (s : State) (o hi lo x : Nat) : (s.setField o hi lo x).chans = s.chans := rfl
@[simp] theorem State.setField_migr (s : State) (o hi lo x : Nat) : (s.setField o hi lo x).migr = s.migr := rfl
@[simp] theorem State.setField_ptns (s : State) (o hi lo x : Nat) : (s.setField o hi lo x).ptns = s.ptns := rfl
@[simp] theorem State.setField_ctxs (s : State) (o hi lo x : Nat) : (s.setField o hi lo x).ctxs = s.ctxs := rfl
@[simp] theorem State.setField_ctxGens (s : State) (o hi lo x : Nat) : (s.setField o hi lo x).ctxGens = s.ctxGens := rfl
@[simp] theorem State.setField_cooling (s : State) (o hi lo x : Nat) : (s.setField o hi lo x).cooling = s.cooling := rfl
@[simp] theorem State.setField_links (s : State) (o hi lo x : Nat) : (s.setField o hi lo x).links = s.links := rfl
@[simp] theorem State.setField_dealer (s : State) (o hi lo x : Nat) : (s.setField o hi lo x).dealer = s.dealer := rfl
@[simp] theorem State.setField_dies (s : State) (o hi lo x : Nat) : (s.setField o hi lo x).dies = s.dies := rfl
@[simp] theorem State.setField_helm (s : State) (o hi lo x : Nat) : (s.setField o hi lo x).helm = s.helm := rfl
@[simp] theorem State.setField_meter (s : State) (o hi lo x : Nat) : (s.setField o hi lo x).meter = s.meter := rfl
@[simp] theorem State.setField_pkg (s : State) (o hi lo x : Nat) : (s.setField o hi lo x).pkg = s.pkg := rfl

/-! ### pend -/

@[simp] theorem State.pend_pending (s : State) (p : Pending) : (s.pend p).pending = s.pending := rfl
@[simp] theorem State.pend_fresh (s : State) (p : Pending) : (s.pend p).fresh = s.fresh := rfl
@[simp] theorem State.pend_cores (s : State) (p : Pending) : (s.pend p).cores = s.cores := rfl
@[simp] theorem State.pend_hold (s : State) (p : Pending) : (s.pend p).hold = s.hold := rfl
@[simp] theorem State.pend_cache (s : State) (p : Pending) : (s.pend p).cache = s.cache := rfl
@[simp] theorem State.pend_fills (s : State) (p : Pending) : (s.pend p).fills = s.fills := rfl
@[simp] theorem State.pend_cmem (s : State) (p : Pending) : (s.pend p).cmem = s.cmem := rfl
@[simp] theorem State.pend_hmem (s : State) (p : Pending) : (s.pend p).hmem = s.hmem := rfl
@[simp] theorem State.pend_poison (s : State) (p : Pending) : (s.pend p).poison = s.poison := rfl
@[simp] theorem State.pend_flips (s : State) (p : Pending) : (s.pend p).flips = s.flips := rfl
@[simp] theorem State.pend_chans (s : State) (p : Pending) : (s.pend p).chans = s.chans := rfl
@[simp] theorem State.pend_migr (s : State) (p : Pending) : (s.pend p).migr = s.migr := rfl
@[simp] theorem State.pend_ptns (s : State) (p : Pending) : (s.pend p).ptns = s.ptns := rfl
@[simp] theorem State.pend_ctxs (s : State) (p : Pending) : (s.pend p).ctxs = s.ctxs := rfl
@[simp] theorem State.pend_ctxGens (s : State) (p : Pending) : (s.pend p).ctxGens = s.ctxGens := rfl
@[simp] theorem State.pend_cooling (s : State) (p : Pending) : (s.pend p).cooling = s.cooling := rfl
@[simp] theorem State.pend_links (s : State) (p : Pending) : (s.pend p).links = s.links := rfl
@[simp] theorem State.pend_dealer (s : State) (p : Pending) : (s.pend p).dealer = s.dealer := rfl
@[simp] theorem State.pend_dies (s : State) (p : Pending) : (s.pend p).dies = s.dies := rfl
@[simp] theorem State.pend_helm (s : State) (p : Pending) : (s.pend p).helm = s.helm := rfl
@[simp] theorem State.pend_meter (s : State) (p : Pending) : (s.pend p).meter = s.meter := rfl
@[simp] theorem State.pend_pkg (s : State) (p : Pending) : (s.pend p).pkg = s.pkg := rfl

/-! ### setPkg -/

@[simp] theorem State.setPkg_pending (s : State) (p : Pkg) : (s.setPkg p).pending = s.pending := rfl
@[simp] theorem State.setPkg_fresh (s : State) (p : Pkg) : (s.setPkg p).fresh = s.fresh := rfl
@[simp] theorem State.setPkg_cores (s : State) (p : Pkg) : (s.setPkg p).cores = s.cores := rfl
@[simp] theorem State.setPkg_hold (s : State) (p : Pkg) : (s.setPkg p).hold = s.hold := rfl
@[simp] theorem State.setPkg_cache (s : State) (p : Pkg) : (s.setPkg p).cache = s.cache := rfl
@[simp] theorem State.setPkg_fills (s : State) (p : Pkg) : (s.setPkg p).fills = s.fills := rfl
@[simp] theorem State.setPkg_cmem (s : State) (p : Pkg) : (s.setPkg p).cmem = s.cmem := rfl
@[simp] theorem State.setPkg_hmem (s : State) (p : Pkg) : (s.setPkg p).hmem = s.hmem := rfl
@[simp] theorem State.setPkg_poison (s : State) (p : Pkg) : (s.setPkg p).poison = s.poison := rfl
@[simp] theorem State.setPkg_flips (s : State) (p : Pkg) : (s.setPkg p).flips = s.flips := rfl
@[simp] theorem State.setPkg_chans (s : State) (p : Pkg) : (s.setPkg p).chans = s.chans := rfl
@[simp] theorem State.setPkg_migr (s : State) (p : Pkg) : (s.setPkg p).migr = s.migr := rfl
@[simp] theorem State.setPkg_ptns (s : State) (p : Pkg) : (s.setPkg p).ptns = s.ptns := rfl
@[simp] theorem State.setPkg_ctxs (s : State) (p : Pkg) : (s.setPkg p).ctxs = s.ctxs := rfl
@[simp] theorem State.setPkg_ctxGens (s : State) (p : Pkg) : (s.setPkg p).ctxGens = s.ctxGens := rfl
@[simp] theorem State.setPkg_cooling (s : State) (p : Pkg) : (s.setPkg p).cooling = s.cooling := rfl
@[simp] theorem State.setPkg_links (s : State) (p : Pkg) : (s.setPkg p).links = s.links := rfl
@[simp] theorem State.setPkg_setup (s : State) (p : Pkg) : (s.setPkg p).setup = s.setup := rfl
@[simp] theorem State.setPkg_dealer (s : State) (p : Pkg) : (s.setPkg p).dealer = s.dealer := rfl
@[simp] theorem State.setPkg_dies (s : State) (p : Pkg) : (s.setPkg p).dies = s.dies := rfl
@[simp] theorem State.setPkg_helm (s : State) (p : Pkg) : (s.setPkg p).helm = s.helm := rfl
@[simp] theorem State.setPkg_meter (s : State) (p : Pkg) : (s.setPkg p).meter = s.meter := rfl

/-! ### drawn -/

@[simp] theorem State.drawn_pending (s : State) : (s.drawn).pending = s.pending := rfl
@[simp] theorem State.drawn_cores (s : State) : (s.drawn).cores = s.cores := rfl
@[simp] theorem State.drawn_hold (s : State) : (s.drawn).hold = s.hold := rfl
@[simp] theorem State.drawn_cache (s : State) : (s.drawn).cache = s.cache := rfl
@[simp] theorem State.drawn_fills (s : State) : (s.drawn).fills = s.fills := rfl
@[simp] theorem State.drawn_cmem (s : State) : (s.drawn).cmem = s.cmem := rfl
@[simp] theorem State.drawn_hmem (s : State) : (s.drawn).hmem = s.hmem := rfl
@[simp] theorem State.drawn_poison (s : State) : (s.drawn).poison = s.poison := rfl
@[simp] theorem State.drawn_flips (s : State) : (s.drawn).flips = s.flips := rfl
@[simp] theorem State.drawn_chans (s : State) : (s.drawn).chans = s.chans := rfl
@[simp] theorem State.drawn_migr (s : State) : (s.drawn).migr = s.migr := rfl
@[simp] theorem State.drawn_ptns (s : State) : (s.drawn).ptns = s.ptns := rfl
@[simp] theorem State.drawn_ctxs (s : State) : (s.drawn).ctxs = s.ctxs := rfl
@[simp] theorem State.drawn_ctxGens (s : State) : (s.drawn).ctxGens = s.ctxGens := rfl
@[simp] theorem State.drawn_cooling (s : State) : (s.drawn).cooling = s.cooling := rfl
@[simp] theorem State.drawn_links (s : State) : (s.drawn).links = s.links := rfl
@[simp] theorem State.drawn_setup (s : State) : (s.drawn).setup = s.setup := rfl
@[simp] theorem State.drawn_dealer (s : State) : (s.drawn).dealer = s.dealer := rfl
@[simp] theorem State.drawn_dies (s : State) : (s.drawn).dies = s.dies := rfl
@[simp] theorem State.drawn_helm (s : State) : (s.drawn).helm = s.helm := rfl
@[simp] theorem State.drawn_meter (s : State) : (s.drawn).meter = s.meter := rfl
@[simp] theorem State.drawn_pkg (s : State) : (s.drawn).pkg = s.pkg := rfl

/-! ### The queue of commands -/

@[simp] theorem State.withPending_fresh (s : State) (l : List Instr) : (s.withPending l).fresh = s.fresh := rfl
@[simp] theorem State.withPending_cores (s : State) (l : List Instr) : (s.withPending l).cores = s.cores := rfl
@[simp] theorem State.withPending_hold (s : State) (l : List Instr) : (s.withPending l).hold = s.hold := rfl
@[simp] theorem State.withPending_cache (s : State) (l : List Instr) : (s.withPending l).cache = s.cache := rfl
@[simp] theorem State.withPending_fills (s : State) (l : List Instr) : (s.withPending l).fills = s.fills := rfl
@[simp] theorem State.withPending_cmem (s : State) (l : List Instr) : (s.withPending l).cmem = s.cmem := rfl
@[simp] theorem State.withPending_hmem (s : State) (l : List Instr) : (s.withPending l).hmem = s.hmem := rfl
@[simp] theorem State.withPending_poison (s : State) (l : List Instr) : (s.withPending l).poison = s.poison := rfl
@[simp] theorem State.withPending_flips (s : State) (l : List Instr) : (s.withPending l).flips = s.flips := rfl
@[simp] theorem State.withPending_chans (s : State) (l : List Instr) : (s.withPending l).chans = s.chans := rfl
@[simp] theorem State.withPending_migr (s : State) (l : List Instr) : (s.withPending l).migr = s.migr := rfl
@[simp] theorem State.withPending_ptns (s : State) (l : List Instr) : (s.withPending l).ptns = s.ptns := rfl
@[simp] theorem State.withPending_ctxs (s : State) (l : List Instr) : (s.withPending l).ctxs = s.ctxs := rfl
@[simp] theorem State.withPending_ctxGens (s : State) (l : List Instr) : (s.withPending l).ctxGens = s.ctxGens := rfl
@[simp] theorem State.withPending_cooling (s : State) (l : List Instr) : (s.withPending l).cooling = s.cooling := rfl
@[simp] theorem State.withPending_links (s : State) (l : List Instr) : (s.withPending l).links = s.links := rfl
@[simp] theorem State.withPending_setup (s : State) (l : List Instr) : (s.withPending l).setup = s.setup := rfl
@[simp] theorem State.withPending_dealer (s : State) (l : List Instr) : (s.withPending l).dealer = s.dealer := rfl
@[simp] theorem State.withPending_dies (s : State) (l : List Instr) : (s.withPending l).dies = s.dies := rfl
@[simp] theorem State.withPending_helm (s : State) (l : List Instr) : (s.withPending l).helm = s.helm := rfl
@[simp] theorem State.withPending_meter (s : State) (l : List Instr) : (s.withPending l).meter = s.meter := rfl
@[simp] theorem State.withPending_pkg (s : State) (l : List Instr) : (s.withPending l).pkg = s.pkg := rfl
@[simp] theorem State.withPending_pending (s : State) (l : List Instr) : (s.withPending l).pending = l := rfl

/-! ### Units read back -/

theorem State.core_setCore (s : State) (p q : Nat) (c : Core) : (s.setCore p c).core q = if q = p then c else s.core q :=
  Tab.get_set _ _ _ _ _

@[simp] theorem State.core_setCore_same (s : State) (p : Nat) (c : Core) : (s.setCore p c).core p = c := by
  simp [State.core_setCore]

theorem State.core_setWork (s : State) (p q : Nat) (w : Work) :
    (s.setWork p w).core q = if q = p then (s.core p).setWork w else s.core q := Tab.get_set _ _ _ _ _

@[simp] theorem State.work_setWork_same (s : State) (p : Nat) (w : Work) : (s.setWork p w).work p = w := by
  simp [State.work, State.core_setWork, Core.setWork]

theorem State.work_setWork_other {s : State} {p q : Nat} (w : Work) (h : q ≠ p) : (s.setWork p w).work q = s.work q := by
  simp [State.work, State.core_setWork, h]

/-- Counting changes no core's work. -/
@[simp] theorem State.work_count (s : State) (p q i k : Nat) : (s.count p i k).work q = s.work q := by
  unfold State.work State.count
  rw [State.core_setCore]
  split
  · next h => subst h; rfl
  · rfl

theorem State.ptn_setPtn (s : State) (n m : Nat) (x : Ptn) : (s.setPtn n x).ptn m = if m = n then x else s.ptn m :=
  Tab.get_set _ _ _ _ _

@[simp] theorem State.ptn_setPtn_same (s : State) (n : Nat) (x : Ptn) : (s.setPtn n x).ptn n = x := by
  simp [State.ptn_setPtn]

theorem State.die_setDie (s : State) (d e : Nat) (x : Die) : (s.setDie d x).die e = if e = d then x else s.die e :=
  Tab.get_set _ _ _ _ _

@[simp] theorem State.die_setDie_same (s : State) (d : Nat) (x : Die) : (s.setDie d x).die d = x := by
  simp [State.die_setDie]

theorem State.chan_setChan (s : State) (c e : Nat) (x : Chan) : (s.setChan c x).chan e = if e = c then x else s.chan e :=
  Tab.get_set _ _ _ _ _

@[simp] theorem State.chan_setChan_same (s : State) (c : Nat) (x : Chan) : (s.setChan c x).chan c = x := by
  simp [State.chan_setChan]

theorem State.port_setPort (s : State) (k j : Nat) (x : Port) : (s.setPort k x).port j = if j = k then x else s.port j :=
  Tab.get_set _ _ _ _ _

@[simp] theorem State.port_setPort_same (s : State) (k : Nat) (x : Port) : (s.setPort k x).port k = x := by
  simp [State.port_setPort]

/-- Reading a register after storing one. -/
theorem State.reg_setReg (s : State) (o i : Nat) (v : DWord) : (s.setReg o v).reg i = if i = o then v else s.reg i := by
  simp only [State.reg, State.setReg, State.setSetup, Tab.get?_set]
  split <;> rfl

@[simp] theorem State.reg_setReg_same (s : State) (o : Nat) (v : DWord) : (s.setReg o v).reg o = v := by
  simp [State.reg_setReg]

end Sys2Proof.Machine
end

