-- ==== Sys2Proof/Laws/Issue.lean ====
section
/-! SUPPORT. Laws of issue: what an issue row does once its instruction's group is chosen, and what writing a group back
does to the state. -/

namespace Sys2Proof.Machine

/-- A seat names the core and slot it was asked for. -/
theorem State.seat_names {s : State} {p slot : Nat} {t : Seat} (h : s.seat p slot = some t) : t.p = p ∧ t.slot = slot := by
  unfold State.seat at h
  repeat' split at h
  all_goals first | contradiction | skip
  all_goals
    simp only [Option.map_eq_some_iff] at h
    obtain ⟨a, -, rfl⟩ := h
    exact ⟨rfl, rfl⟩

/-- An issue row whose conditions hold does what its instruction does at issue. -/
theorem State.issue_done {s : State} {p slot op : Nat} {w : DWord} {t : Seat} {s2 : State}
    {run : State → Seat → Issued} (h : s.issues p slot w op t) (hop : opReserved op = false)
    (hr : run (s.atIssue t) (s.seatAt t) = .done s2) : s.issue p slot w op run = s2 := by
  obtain ⟨-, -, hs, hf, rfl, hst, hc, hi⟩ := h
  have hp := (State.seat_names hs).1
  simp only [State.atIssue, State.seatAt, hp] at hr
  simp [State.issue, hs, hf, hop, hst, hc, hi, hr]

/-- An issue row whose conditions hold and whose instruction faults. -/
theorem State.issue_fault {s : State} {p slot op st : Nat} {w : DWord} {t : Seat}
    {run : State → Seat → Issued} (h : s.issues p slot w op t) (hop : opReserved op = false)
    (hr : run (s.atIssue t) (s.seatAt t) = .fault st) :
    s.issue p slot w op run = (s.atIssue t).groupFault (s.seatAt t) st false := by
  obtain ⟨-, -, hs, hf, rfl, hst, hc, hi⟩ := h
  have hp := (State.seat_names hs).1
  simp only [State.atIssue, State.seatAt, hp] at hr
  simp [State.issue, hs, hf, hop, hst, hc, hi, hr, State.atIssue, State.seatAt, hp]

/-- A command that names units that exist answers a next state. -/
theorem onWf_next {i : Instr} {s : State} (h : i.wf = true) : onWf i s = .next s := by simp [onWf, h]

theorem issues_bounds {s : State} {p slot op : Nat} {w : DWord} {t : Seat} (h : s.issues p slot w op t) :
    Operand.ok (.core p) = true ∧ Operand.ok (.groupSlot slot) = true := by simp [Operand.ok, h.1, h.2.1]

/-- The same over exec: an issue row's command does what its instruction does at issue. -/
theorem State.row_done {i : Instr} {s s2 : State} {p slot op : Nat} {w : DWord} {t : Seat} {run : State → Seat → Issued}
    (hx : exec i s = onWf i (s.issue p slot w op run)) (ho : i.operands = [.core p, .groupSlot slot])
    (h : s.issues p slot w op t) (hop : opReserved op = false) (hr : run (s.atIssue t) (s.seatAt t) = .done s2) :
    exec i s = .next s2 := by
  rw [hx, onWf_next (by simp [Instr.wf, ho, issues_bounds h]), State.issue_done h hop hr]

/-- The same for an instruction that faults. -/
theorem State.row_fault {i : Instr} {s : State} {p slot op st : Nat} {w : DWord} {t : Seat} {run : State → Seat → Issued}
    (hx : exec i s = onWf i (s.issue p slot w op run)) (ho : i.operands = [.core p, .groupSlot slot])
    (h : s.issues p slot w op t) (hop : opReserved op = false) (hr : run (s.atIssue t) (s.seatAt t) = .fault st) :
    exec i s = .next ((s.atIssue t).groupFault (s.seatAt t) st false) := by
  rw [hx, onWf_next (by simp [Instr.wf, ho, issues_bounds h]), State.issue_fault h hop hr]

/-! ### Registers of a group -/

@[simp] theorem Group.setT_s (g : Group) (r l k : Nat) (v : Word) : (g.setT r l v).s k = g.s k := by
  unfold Group.setT Group.s; split <;> rfl

theorem Group.t_setT (g : Group) (r l k j : Nat) (v : Word) (hl : l < 32) (hj : j < 32) :
    (g.setT r l v).t k j = if k = r ∧ j = l ∧ r ≠ 255 then v else g.t k j := by
  by_cases hr : r = 255
  · rw [if_neg (fun x => x.2.2 hr)]; simp [Group.setT, hr]
  · simp only [Group.setT, if_neg hr, Group.t]
    by_cases hk : k = 255
    · have hn : ¬(k = r ∧ j = l ∧ r ≠ 255) := by omega
      rw [if_neg hn, if_pos hk, if_pos hk]
    · rw [if_neg hk, if_neg hk, Tab.get_set]
      by_cases h : k = r ∧ j = l
      · obtain ⟨rfl, rfl⟩ := h; simp [hr]
      · rw [if_neg (by omega), if_neg (fun x => h ⟨x.1, x.2.1⟩)]

/-- Writing a register of a list of lanes. -/
theorem Group.t_setLanes (g : Group) (r : Nat) (f : Nat → Word) (ls : List Nat) (hls : ∀ l ∈ ls, l < 32) (k j : Nat)
    (hj : j < 32) : (g.setLanes r f ls).t k j = if k = r ∧ r ≠ 255 ∧ j ∈ ls then f j else g.t k j := by
  unfold Group.setLanes
  induction ls generalizing g with
  | nil => simp
  | cons l ls ih =>
    rw [List.foldl_cons, ih _ (fun x hx => hls x (by simp [hx])), Group.t_setT _ _ _ _ _ _ (hls l (by simp)) hj]
    by_cases h1 : k = r ∧ r ≠ 255
    · obtain ⟨rfl, h1⟩ := h1
      by_cases h2 : j ∈ ls
      · simp [h1, h2]
      · by_cases h3 : j = l
        · subst h3; simp [h1, h2]
        · simp [h1, h2, h3]
    · rw [if_neg (fun x => h1 ⟨x.1, x.2.1⟩), if_neg (fun x => h1 ⟨x.1, x.2.2⟩), if_neg (fun x => h1 ⟨x.1, x.2.1⟩)]

/-- Writing thread registers changes nothing else of the group. -/
theorem Group.setLanes_rest (g : Group) (r : Nat) (f : Nat → Word) (ls : List Nat) :
    { g.setLanes r f ls with tregs := g.tregs } = g := by
  unfold Group.setLanes
  induction ls generalizing g with
  | nil => rfl
  | cons l ls ih =>
    rw [List.foldl_cons]
    have h := ih (g.setT r l (f l))
    have e : { g.setT r l (f l) with tregs := g.tregs } = g := by unfold Group.setT; split <;> rfl
    calc _ = { { List.foldl (fun h l => h.setT r l (f l)) (g.setT r l (f l)) ls with
                  tregs := (g.setT r l (f l)).tregs } with tregs := g.tregs } := rfl
      _ = { g.setT r l (f l) with tregs := g.tregs } := by rw [h]
      _ = g := e

theorem Group.mem_lanes (g : Group) (l : Nat) : l ∈ g.lanes ↔ l < 32 ∧ g.active.getLsbD l = true := by
  simp [Group.lanes]

/-- The stack rules touch the pc, the active lanes and the stack alone (R224). -/
theorem Group.settle_rest (n : Nat) (g : Group) :
    { Group.settle n g with pc := g.pc, active := g.active, stack := g.stack } = g := by
  induction n generalizing g with
  | zero => rfl
  | succ n ih =>
    unfold Group.settle
    split
    · split
      · rfl
      · exact congrArg (fun h : Group => { h with pc := g.pc, active := g.active, stack := g.stack }) (ih _)
      · exact congrArg (fun h : Group => { h with pc := g.pc, active := g.active, stack := g.stack }) (ih _)
    · rfl

/-- Going on at the next instruction touches the pc, the active lanes and the stack alone. -/
theorem Group.advance_rest (g : Group) : { g.advance with pc := g.pc, active := g.active, stack := g.stack } = g := by
  have h := Group.settle_rest 34 { g with pc := (g.pc + 8) % 2 ^ 32 }
  exact congrArg (fun h : Group => { h with pc := g.pc, active := g.active, stack := g.stack }) h

@[simp] theorem Group.advance_t (g : Group) (r l : Nat) : g.advance.t r l = g.t r l := by
  have h := congrArg Group.tregs (Group.advance_rest g)
  simp only at h
  simp [Group.t, h]

@[simp] theorem Group.advance_s (g : Group) (r : Nat) : g.advance.s r = g.s r := by
  have h := congrArg Group.sregs (Group.advance_rest g)
  simp only at h
  simp [Group.s, h]

/-- A group with running lanes that reaches no reconvergence address goes on at the next instruction (R224). -/
theorem Group.advance_goesOn {g : Group} (ha : g.active ≠ 0) (hj : joinAddr g.stack ≠ some ((g.pc + 8) % 2 ^ 32)) :
    g.advance.pc = (g.pc + 8) % 2 ^ 32 ∧ g.advance.active = g.active ∧ g.advance.stack = g.stack := by
  have h : g.advance = { g with pc := (g.pc + 8) % 2 ^ 32 } := by
    unfold Group.advance Group.goto Group.settle
    have hn : ¬({ g with pc := (g.pc + 8) % 2 ^ 32 }.active = 0 ∨
        joinAddr { g with pc := (g.pc + 8) % 2 ^ 32 }.stack = some { g with pc := (g.pc + 8) % 2 ^ 32 }.pc) :=
      fun h => h.elim ha hj
    rw [if_neg hn]
  rw [h]
  exact ⟨rfl, rfl, rfl⟩

end Sys2Proof.Machine
end

