-- ==== Sys2Proof/Laws/Memory.lean ====
section
/-! SUPPORT. Laws of byte memories: a read after a write, and that every operation keeps the canonical form. -/

namespace Sys2Proof.Machine

/-! ### Reads after writes -/

theorem Mem.read_put (m : Memory) (a b : Nat) (x : Byte) :
    Mem.read (Mem.put m a x) b = if b = a then x else Mem.read m b := by
  induction m with
  | nil => simp [Mem.put, Mem.read, eq_comm]
  | cons e m ih =>
    obtain ⟨c, y⟩ := e
    simp only [Mem.put]
    split
    · simp [Mem.read, eq_comm]
    · split
      · next h => subst h; simp only [Mem.read, eq_comm (a := b)]; split <;> simp_all
      · simp only [Mem.read, ih]
        split
        · next h1 h2 h3 => subst h3; simp [Ne.symm h2]
        · rfl

/-- Below every listed address a memory reads zero. -/
theorem Mem.read_below {m : Memory} {a : Nat} (h : ∀ c ∈ m, a < c.1) : Mem.read m a = 0 := by
  induction m with
  | nil => rfl
  | cons e m ih =>
    have h1 := h e (by simp)
    simp only [Mem.read]
    rw [if_neg (by omega)]
    exact ih (fun c hc => h c (by simp [hc]))

theorem Mem.read_drop {m : Memory} (hm : m.Pairwise (fun c d => c.1 < d.1)) (a b : Nat) :
    Mem.read (Mem.drop m a) b = if b = a then 0 else Mem.read m b := by
  induction m with
  | nil => simp [Mem.drop, Mem.read]
  | cons e m ih =>
    obtain ⟨c, y⟩ := e
    rw [List.pairwise_cons] at hm
    simp only [Mem.drop]
    split
    · next h =>
      subst h
      simp only [Mem.read]
      split
      · next hb => subst hb; exact Mem.read_below hm.1
      · next hb => simp [Ne.symm hb]
    · split
      · next h1 h2 =>
        split
        · next hb =>
          subst hb
          exact Mem.read_below (by
            intro d hd
            rcases List.mem_cons.mp hd with rfl | hd
            · exact h2
            · have := hm.1 d hd; omega)
        · rfl
      · simp only [Mem.read, ih hm.2]
        split
        · next h1 h2 h3 => subst h3; simp [h1]
        · rfl

/-- A read after a write of a byte: the byte written there, every other byte as before. -/
theorem Mem.read_write {m : Memory} (hm : Mem.wf m) (a b : Nat) (x : Byte) :
    Mem.read (Mem.write m a x) b = if b = a then x else Mem.read m b := by
  unfold Mem.write
  split
  · next h => rw [Mem.read_drop hm.1, h]
  · exact Mem.read_put m a b x

/-! ### The canonical form -/

theorem Mem.mem_drop {m : Memory} {a : Nat} {c : Host.Cell} (h : c ∈ Mem.drop m a) : c ∈ m := by
  induction m with
  | nil => simp [Mem.drop] at h
  | cons e m ih =>
    obtain ⟨b, x⟩ := e
    simp only [Mem.drop] at h
    split at h
    · exact List.mem_cons_of_mem _ h
    · split at h
      · exact h
      · rcases List.mem_cons.mp h with rfl | h
        · simp
        · exact List.mem_cons_of_mem _ (ih h)

theorem Mem.mem_put {m : Memory} {a : Nat} {x : Byte} {c : Host.Cell} (h : c ∈ Mem.put m a x) : c = (a, x) ∨ c ∈ m := by
  induction m with
  | nil => simp [Mem.put] at h; exact .inl h
  | cons e m ih =>
    obtain ⟨b, y⟩ := e
    simp only [Mem.put] at h
    split at h
    · rcases List.mem_cons.mp h with h | h
      · exact .inl h
      · exact .inr h
    · split at h
      · rcases List.mem_cons.mp h with h | h
        · exact .inl h
        · exact .inr (List.mem_cons_of_mem _ h)
      · rcases List.mem_cons.mp h with rfl | h
        · exact .inr (by simp)
        · exact (ih h).imp id (List.mem_cons_of_mem _)

theorem Mem.drop_wf {m : Memory} (hm : Mem.wf m) (a : Nat) : Mem.wf (Mem.drop m a) := by
  refine ⟨?_, fun c hc => hm.2 c (Mem.mem_drop hc)⟩
  obtain ⟨h, -⟩ := hm
  induction m with
  | nil => simp [Mem.drop]
  | cons e m ih =>
    obtain ⟨b, x⟩ := e
    rw [List.pairwise_cons] at h
    simp only [Mem.drop]
    split
    · exact h.2
    · split
      · exact List.pairwise_cons.mpr h
      · exact List.pairwise_cons.mpr ⟨fun c hc => h.1 c (Mem.mem_drop hc), ih h.2⟩

theorem Mem.put_wf {m : Memory} (hm : Mem.wf m) (a : Nat) {x : Byte} (hx : x ≠ 0) : Mem.wf (Mem.put m a x) := by
  refine ⟨?_, fun c hc => (Mem.mem_put hc).elim (fun h => h ▸ hx) (hm.2 c)⟩
  obtain ⟨h, -⟩ := hm
  induction m with
  | nil => simp [Mem.put]
  | cons e m ih =>
    obtain ⟨b, y⟩ := e
    rw [List.pairwise_cons] at h
    simp only [Mem.put]
    split
    · next hlt =>
      refine List.pairwise_cons.mpr ⟨fun c hc => ?_, List.pairwise_cons.mpr h⟩
      rcases List.mem_cons.mp hc with rfl | hc
      · exact hlt
      · exact Nat.lt_trans hlt (h.1 c hc)
    · split
      · next heq => subst heq; exact List.pairwise_cons.mpr ⟨fun c hc => h.1 c hc, h.2⟩
      · next h1 h2 =>
        refine List.pairwise_cons.mpr ⟨fun c hc => ?_, ih h.2⟩
        rcases Mem.mem_put hc with rfl | hc
        · show b < a; omega
        · exact h.1 c hc

/-- A write of a byte keeps the canonical form. -/
theorem Mem.write_wf {m : Memory} (hm : Mem.wf m) (a : Nat) (x : Byte) : Mem.wf (Mem.write m a x) := by
  unfold Mem.write
  split
  · exact Mem.drop_wf hm a
  · next h => exact Mem.put_wf hm a h

/-- A write of bytes keeps the canonical form. -/
theorem Mem.writeBytes_wf {m : Memory} (hm : Mem.wf m) (a : Nat) (xs : List Byte) : Mem.wf (Mem.writeBytes m a xs) := by
  induction xs generalizing m a with
  | nil => exact hm
  | cons x xs ih => exact ih (Mem.write_wf hm a x) (a + 1)

/-- Dropping bytes keeps the canonical form. -/
theorem Mem.filter_wf {m : Memory} (hm : Mem.wf m) (f : Host.Cell → Bool) : Mem.wf (m.filter f) :=
  ⟨hm.1.filter f, fun c hc => hm.2 c ((List.mem_filter.mp hc).1)⟩

/-- Clearing a range keeps the canonical form. -/
theorem Mem.clear_wf {m : Memory} (hm : Mem.wf m) (lo hi : Nat) : Mem.wf (Mem.clear m lo hi) := Mem.filter_wf hm _

/-- Reset memory has the canonical form. -/
theorem Mem.nil_wf : Mem.wf [] := ⟨List.Pairwise.nil, by simp⟩

/-- A read after a write of bytes: the bytes written, every other byte as before. -/
theorem Mem.read_writeBytes {m : Memory} (hm : Mem.wf m) (a b : Nat) (xs : List Byte) :
    Mem.read (Mem.writeBytes m a xs) b = if a ≤ b ∧ b < a + xs.length then (xs[b - a]?).getD 0 else Mem.read m b := by
  induction xs generalizing m a with
  | nil => rw [if_neg (by simp only [List.length_nil]; omega)]; rfl
  | cons x xs ih =>
    simp only [Mem.writeBytes, ih (Mem.write_wf hm a x), Mem.read_write hm, List.length_cons]
    by_cases h : b = a
    · subst h; rw [if_neg (by omega), if_pos rfl, if_pos (by omega)]; simp
    · by_cases h2 : a + 1 ≤ b ∧ b < a + 1 + xs.length
      · rw [if_pos h2, if_pos (by omega)]
        obtain ⟨k, rfl⟩ : ∃ k, b = a + 1 + k := ⟨b - (a + 1), by omega⟩
        have e1 : a + 1 + k - (a + 1) = k := by omega
        have e2 : a + 1 + k - a = k + 1 := by omega
        rw [e1, e2, List.getElem?_cons_succ]
      · rw [if_neg h2, if_neg h, if_neg (by omega)]

end Sys2Proof.Machine
end

