-- ==== Sys2Proof/Laws/PerInstr.lean ====
section
/-! SUPPORT. A command is well formed exactly where every unit that it names exists, constructor by constructor. -/

namespace Sys2Proof.Laws.WellFormedShape

/-- The check of a command refuses it exactly where one of the units it names does not exist. -/
def Statement (i : Instr) : Prop := i.wf = true ↔ ∀ o ∈ i.operands, o.ok = true

/-- The check is over all operands. -/
theorem of_wf (i : Instr) : Statement i := List.all_eq_true

theorem iadd (p slot : Nat) (w : DWord) : Statement (.iadd p slot w) := of_wf _
theorem isub (p slot : Nat) (w : DWord) : Statement (.isub p slot w) := of_wf _
theorem imul (p slot : Nat) (w : DWord) : Statement (.imul p slot w) := of_wf _
theorem imulh (p slot : Nat) (w : DWord) : Statement (.imulh p slot w) := of_wf _
theorem and (p slot : Nat) (w : DWord) : Statement (.and p slot w) := of_wf _
theorem or (p slot : Nat) (w : DWord) : Statement (.or p slot w) := of_wf _
theorem xor (p slot : Nat) (w : DWord) : Statement (.xor p slot w) := of_wf _
theorem shl (p slot : Nat) (w : DWord) : Statement (.shl p slot w) := of_wf _
theorem shr (p slot : Nat) (w : DWord) : Statement (.shr p slot w) := of_wf _
theorem icmp (p slot : Nat) (w : DWord) : Statement (.icmp p slot w) := of_wf _
theorem sel (p slot : Nat) (w : DWord) : Statement (.sel p slot w) := of_wf _
theorem iminmax (p slot : Nat) (w : DWord) : Statement (.iminmax p slot w) := of_wf _
theorem fadd (p slot : Nat) (w : DWord) : Statement (.fadd p slot w) := of_wf _
theorem fmul (p slot : Nat) (w : DWord) : Statement (.fmul p slot w) := of_wf _
theorem ffma (p slot : Nat) (w : DWord) : Statement (.ffma p slot w) := of_wf _
theorem fcmp (p slot : Nat) (w : DWord) : Statement (.fcmp p slot w) := of_wf _
theorem fminmax (p slot : Nat) (w : DWord) : Statement (.fminmax p slot w) := of_wf _
theorem fcvt (p slot : Nat) (w : DWord) : Statement (.fcvt p slot w) := of_wf _
theorem fsqrt (p slot : Nat) (w : DWord) : Statement (.fsqrt p slot w) := of_wf _
theorem frcp (p slot : Nat) (w : DWord) : Statement (.frcp p slot w) := of_wf _
theorem ldd (p slot : Nat) (w : DWord) : Statement (.ldd p slot w) := of_wf _
theorem std (p slot : Nat) (w : DWord) : Statement (.std p slot w) := of_wf _
theorem ldf (p slot : Nat) (w : DWord) : Statement (.ldf p slot w) := of_wf _
theorem stf (p slot : Nat) (w : DWord) : Statement (.stf p slot w) := of_wf _
theorem atomf (p slot : Nat) (w : DWord) : Statement (.atomf p slot w) := of_wf _
theorem lockg (p slot : Nat) (w : DWord) : Statement (.lockg p slot w) := of_wf _
theorem unlockg (p slot : Nat) (w : DWord) : Statement (.unlockg p slot w) := of_wf _
theorem br (p slot : Nat) (w : DWord) : Statement (.br p slot w) := of_wf _
theorem jmp (p slot : Nat) (w : DWord) : Statement (.jmp p slot w) := of_wf _
theorem joinpt (p slot : Nat) (w : DWord) : Statement (.joinpt p slot w) := of_wf _
theorem exit (p slot : Nat) (w : DWord) : Statement (.exit p slot w) := of_wf _
theorem barb (p slot : Nat) (w : DWord) : Statement (.barb p slot w) := of_wf _
theorem nop (p slot : Nat) (w : DWord) : Statement (.nop p slot w) := of_wf _
theorem shfl (p slot : Nat) (w : DWord) : Statement (.shfl p slot w) := of_wf _
theorem vote (p slot : Nat) (w : DWord) : Statement (.vote p slot w) := of_wf _
theorem movs (p slot : Nat) (w : DWord) : Statement (.movs p slot w) := of_wf _
theorem movt (p slot : Nat) (w : DWord) : Statement (.movt p slot w) := of_wf _
theorem rdsp (p slot : Nat) (w : DWord) : Statement (.rdsp p slot w) := of_wf _
theorem sadd (p slot : Nat) (w : DWord) : Statement (.sadd p slot w) := of_wf _
theorem ssub (p slot : Nat) (w : DWord) : Statement (.ssub p slot w) := of_wf _
theorem sand (p slot : Nat) (w : DWord) : Statement (.sand p slot w) := of_wf _
theorem sor (p slot : Nat) (w : DWord) : Statement (.sor p slot w) := of_wf _
theorem sxor (p slot : Nat) (w : DWord) : Statement (.sxor p slot w) := of_wf _
theorem sshl (p slot : Nat) (w : DWord) : Statement (.sshl p slot w) := of_wf _
theorem sshr (p slot : Nat) (w : DWord) : Statement (.sshr p slot w) := of_wf _
theorem sli (p slot : Nat) (w : DWord) : Statement (.sli p slot w) := of_wf _
theorem smov (p slot : Nat) (w : DWord) : Statement (.smov p slot w) := of_wf _
theorem mpass (p slot : Nat) (w : DWord) : Statement (.mpass p slot w) := of_wf _
theorem malt (p slot : Nat) (w : DWord) : Statement (.malt p slot w) := of_wf _
theorem mdrain (p slot : Nat) (w : DWord) : Statement (.mdrain p slot w) := of_wf _
theorem mzero (p slot : Nat) (w : DWord) : Statement (.mzero p slot w) := of_wf _
theorem msync (p slot : Nat) (w : DWord) : Statement (.msync p slot w) := of_wf _
theorem vld (p slot : Nat) (w : DWord) : Statement (.vld p slot w) := of_wf _
theorem vst (p slot : Nat) (w : DWord) : Statement (.vst p slot w) := of_wf _
theorem vgath (p slot : Nat) (w : DWord) : Statement (.vgath p slot w) := of_wf _
theorem vscat (p slot : Nat) (w : DWord) : Statement (.vscat p slot w) := of_wf _
theorem vbcast (p slot : Nat) (w : DWord) : Statement (.vbcast p slot w) := of_wf _
theorem vperm (p slot : Nat) (w : DWord) : Statement (.vperm p slot w) := of_wf _
theorem vadd (p slot : Nat) (w : DWord) : Statement (.vadd p slot w) := of_wf _
theorem vsub (p slot : Nat) (w : DWord) : Statement (.vsub p slot w) := of_wf _
theorem vmul (p slot : Nat) (w : DWord) : Statement (.vmul p slot w) := of_wf _
theorem vfma (p slot : Nat) (w : DWord) : Statement (.vfma p slot w) := of_wf _
theorem vminmax (p slot : Nat) (w : DWord) : Statement (.vminmax p slot w) := of_wf _
theorem vcmp (p slot : Nat) (w : DWord) : Statement (.vcmp p slot w) := of_wf _
theorem vsel (p slot : Nat) (w : DWord) : Statement (.vsel p slot w) := of_wf _
theorem vdiv (p slot : Nat) (w : DWord) : Statement (.vdiv p slot w) := of_wf _
theorem vsqrt (p slot : Nat) (w : DWord) : Statement (.vsqrt p slot w) := of_wf _
theorem vbit (p slot : Nat) (w : DWord) : Statement (.vbit p slot w) := of_wf _
theorem vmask (p slot : Nat) (w : DWord) : Statement (.vmask p slot w) := of_wf _
theorem vcvt (p slot : Nat) (w : DWord) : Statement (.vcvt p slot w) := of_wf _
theorem vcvtl (p slot : Nat) (w : DWord) : Statement (.vcvtl p slot w) := of_wf _
theorem vdecl (p slot : Nat) (w : DWord) : Statement (.vdecl p slot w) := of_wf _
theorem vreblk (p slot : Nat) (w : DWord) : Statement (.vreblk p slot w) := of_wf _
theorem vseed (p slot : Nat) (w : DWord) : Statement (.vseed p slot w) := of_wf _
theorem red (p slot : Nat) (w : DWord) : Statement (.red p slot w) := of_wf _
theorem rget (p slot : Nat) (w : DWord) : Statement (.rget p slot w) := of_wf _
theorem vown (p slot : Nat) (w : DWord) : Statement (.vown p slot w) := of_wf _
theorem tcopy (p slot : Nat) (w : DWord) : Statement (.tcopy p slot w) := of_wf _
theorem twait (p slot : Nat) (w : DWord) : Statement (.twait p slot w) := of_wf _
theorem takeDecision (p a : Nat) : Statement (.takeDecision p a) := of_wf _
theorem fold (p a : Nat) : Statement (.fold p a) := of_wf _
theorem passComplete (p a : Nat) : Statement (.passComplete p a) := of_wf _
theorem veInstructionStart (p : Nat) : Statement (.veInstructionStart p) := of_wf _
theorem reductionTake (p : Nat) : Statement (.reductionTake p) := of_wf _
theorem veOwnerPass (p : Nat) : Statement (.veOwnerPass p) := of_wf _
theorem copyTake (p ch : Nat) : Statement (.copyTake p ch) := of_wf _
theorem copyComplete (p ch k : Nat) : Statement (.copyComplete p ch k) := of_wf _
theorem farResponse (p slot : Nat) : Statement (.farResponse p slot) := of_wf _
theorem blockPlace (n : Nat) : Statement (.blockPlace n) := of_wf _
theorem blockEnd (p b : Nat) : Statement (.blockEnd p b) := of_wf _
theorem stashReservationGrant (n q e : Nat) : Statement (.stashReservationGrant n q e) := of_wf _
theorem preempt (n q e : Nat) : Statement (.preempt n q e) := of_wf _
theorem preemptedWorkResume (n : Nat) : Statement (.preemptedWorkResume n) := of_wf _
theorem doorbellWrite (wr : List HostWrite) (line : Nat) (sqTail cqHead : Word) : Statement (.doorbellWrite wr line sqTail cqHead) := of_wf _
theorem entryRead (n q : Nat) : Statement (.entryRead n q) := of_wf _
theorem headerCheck (n q e : Nat) : Statement (.headerCheck n q e) := of_wf _
theorem bodyCheck (n q e : Nat) : Statement (.bodyCheck n q e) := of_wf _
theorem progLoad (n q e : Nat) : Statement (.progLoad n q e) := of_wf _
theorem dispatch (n q e : Nat) : Statement (.dispatch n q e) := of_wf _
theorem copy (n q e : Nat) : Statement (.copy n q e) := of_wf _
theorem fill (n q e : Nat) : Statement (.fill n q e) := of_wf _
theorem accumulate (n q e : Nat) : Statement (.accumulate n q e) := of_wf _
theorem update (n q e : Nat) : Statement (.update n q e) := of_wf _
theorem precondRoot (n q e : Nat) : Statement (.precondRoot n q e) := of_wf _
theorem fix (n q e : Nat) : Statement (.fix n q e) := of_wf _
theorem barrier (n q e : Nat) : Statement (.barrier n q e) := of_wf _
theorem map (n q e : Nat) : Statement (.map n q e) := of_wf _
theorem unmap (n q e : Nat) : Statement (.unmap n q e) := of_wf _
theorem ctxCreate (n e : Nat) : Statement (.ctxCreate n e) := of_wf _
theorem ctxDestroy (n e : Nat) : Statement (.ctxDestroy n e) := of_wf _
theorem queueCreate (n e : Nat) : Statement (.queueCreate n e) := of_wf _
theorem queueDestroy (n e : Nat) : Statement (.queueDestroy n e) := of_wf _
theorem queueResume (n e : Nat) : Statement (.queueResume n e) := of_wf _
theorem fenceCreate (n e : Nat) : Statement (.fenceCreate n e) := of_wf _
theorem fenceDestroy (n e : Nat) : Statement (.fenceDestroy n e) := of_wf _
theorem fenceReset (n e : Nat) : Statement (.fenceReset n e) := of_wf _
theorem memCreate (n e : Nat) : Statement (.memCreate n e) := of_wf _
theorem memDestroy (n e : Nat) : Statement (.memDestroy n e) := of_wf _
theorem memSettle (n e : Nat) : Statement (.memSettle n e) := of_wf _
theorem revokeOwner (n e : Nat) : Statement (.revokeOwner n e) := of_wf _
theorem teardownTimeout (c : Nat) : Statement (.teardownTimeout c) := of_wf _
theorem ctxIdFree (c : Nat) : Statement (.ctxIdFree c) := of_wf _
theorem commandRetire (n q e : Nat) : Statement (.commandRetire n q e) := of_wf _
theorem slotDrained (n q e : Nat) : Statement (.slotDrained n q e) := of_wf _
theorem publish (n q e : Nat) : Statement (.publish n q e) := of_wf _
theorem updatePeerTimeout (n q e : Nat) : Statement (.updatePeerTimeout n q e) := of_wf _
theorem trainingExchange (port : Nat) (near far : BitVec 8) (nb : NeighbourReport) : Statement (.trainingExchange port near far nb) := of_wf _
theorem trainingRetry (port : Nat) : Statement (.trainingRetry port) := of_wf _
theorem frameReceived (port : Nat) (f : Frame) : Statement (.frameReceived port f) := of_wf _
theorem laneLossOfLock (port lane : Nat) : Statement (.laneLossOfLock port lane) := of_wf _
theorem retrainComplete (port : Nat) (near far : BitVec 8) : Statement (.retrainComplete port near far) := of_wf _
theorem retrainTimeout (port : Nat) : Statement (.retrainTimeout port) := of_wf _
theorem readRequest (k : Nat) : Statement (.readRequest k) := of_wf _
theorem readResponse (k : Nat) : Statement (.readResponse k) := of_wf _
theorem write (k : Nat) : Statement (.write k) := of_wf _
theorem acknowledgement (k : Nat) : Statement (.acknowledgement k) := of_wf _
theorem atomic (k : Nat) : Statement (.atomic k) := of_wf _
theorem atomicResponse (k : Nat) : Statement (.atomicResponse k) := of_wf _
theorem fenceNotice (k : Nat) : Statement (.fenceNotice k) := of_wf _
theorem openNotice (k : Nat) : Statement (.openNotice k) := of_wf _
theorem packetForward (k : Nat) : Statement (.packetForward k) := of_wf _
theorem fenceNoticeResend (k : Nat) : Statement (.fenceNoticeResend k) := of_wf _
theorem remoteTimeout (t : TimeoutOf) : Statement (.remoteTimeout t) := of_wf _
theorem channelTrained (c : Nat) : Statement (.channelTrained c) := of_wf _
theorem rateStepDown (c : Nat) : Statement (.rateStepDown c) := of_wf _
theorem perBankRefresh (c bank : Nat) : Statement (.perBankRefresh c bank) := of_wf _
theorem refreshRateCheck (c rate : Nat) : Statement (.refreshRateCheck c rate) := of_wf _
theorem patrolScrub (c unit : Nat) : Statement (.patrolScrub c unit) := of_wf _
theorem frameMigrated : Statement (.frameMigrated) := of_wf _
theorem channelRetrainDone (c : Nat) : Statement (.channelRetrainDone c) := of_wf _
theorem deviceCorrectionRead (c count : Nat) : Statement (.deviceCorrectionRead c count) := of_wf _
theorem helmLimitWrite (w : RegWrite) : Statement (.helmLimitWrite w) := of_wf _
theorem passSchedWrite (n : Nat) (w : RegWrite) : Statement (.passSchedWrite n w) := of_wf _
theorem stashCfgWrite (n : Nat) (w : RegWrite) : Statement (.stashCfgWrite n w) := of_wf _
theorem holdModeWrite (n : Nat) (w : RegWrite) : Statement (.holdModeWrite n w) := of_wf _
theorem holdOwnerWrite (n : Nat) (w : RegWrite) : Statement (.holdOwnerWrite n w) := of_wf _
theorem nvBearingWrite (w : RegWrite) : Statement (.nvBearingWrite w) := of_wf _
theorem nvPortCtlDown (port : Nat) (w : RegWrite) : Statement (.nvPortCtlDown port w) := of_wf _
theorem nvPortCtlRetrain (port : Nat) (w : RegWrite) : Statement (.nvPortCtlRetrain port w) := of_wf _
theorem nvDetourCommit (w : RegWrite) : Statement (.nvDetourCommit w) := of_wf _
theorem nvDetourLoad (w : RegWrite) : Statement (.nvDetourLoad w) := of_wf _
theorem nvPeerCommit (w : RegWrite) : Statement (.nvPeerCommit w) := of_wf _
theorem nvPeerLoad (w : RegWrite) : Statement (.nvPeerLoad w) := of_wf _
theorem memChanCtlRetire (c : Nat) (w : RegWrite) : Statement (.memChanCtlRetire c w) := of_wf _
theorem memChanCtlRetrain (c : Nat) (w : RegWrite) : Statement (.memChanCtlRetrain c w) := of_wf _
theorem memChanCtlClearRetired (c : Nat) (w : RegWrite) : Statement (.memChanCtlClearRetired c w) := of_wf _
theorem ptnLayoutWrite (w : RegWrite) : Statement (.ptnLayoutWrite w) := of_wf _
theorem ptnOpen (n : Nat) (w : RegWrite) : Statement (.ptnOpen n w) := of_wf _
theorem ptnClose (n : Nat) (w : RegWrite) : Statement (.ptnClose n w) := of_wf _
theorem ptnSealWrite (n : Nat) (w : RegWrite) : Statement (.ptnSealWrite n w) := of_wf _
theorem fltRingWrite (w : RegWrite) : Statement (.fltRingWrite w) := of_wf _
theorem fltInjectArm (w : RegWrite) : Statement (.fltInjectArm w) := of_wf _
theorem fixRestoreGo (n : Nat) (w : RegWrite) : Statement (.fixRestoreGo n w) := of_wf _
theorem fwCtlGo (w : RegWrite) : Statement (.fwCtlGo w) := of_wf _
theorem imageRunning (target unit : Nat) : Statement (.imageRunning target unit) := of_wf _
theorem imageTimeout (target : Nat) : Statement (.imageTimeout target) := of_wf _
theorem pkgPowerOff (w : RegWrite) : Statement (.pkgPowerOff w) := of_wf _
theorem pkgPowerOn (w : RegWrite) (straps : BitVec 22) : Statement (.pkgPowerOn w straps) := of_wf _
theorem setupErrClear (w : RegWrite) : Statement (.setupErrClear w) := of_wf _
theorem counterDataRead (agent width : Nat) : Statement (.counterDataRead agent width) := of_wf _
theorem adminqCtlWrite (n : Nat) (w : RegWrite) : Statement (.adminqCtlWrite n w) := of_wf _
theorem fenceMirrorWrite (n : Nat) (w : RegWrite) : Statement (.fenceMirrorWrite n w) := of_wf _
theorem hostPoolWrite (w : RegWrite) : Statement (.hostPoolWrite w) := of_wf _
theorem mbxLockRead (agent ch : Nat) : Statement (.mbxLockRead agent ch) := of_wf _
theorem mbxMsgWrite (agent ch : Nat) (value : DWord) : Statement (.mbxMsgWrite agent ch value) := of_wf _
theorem mbxMsgRead (agent ch : Nat) : Statement (.mbxMsgRead agent ch) := of_wf _
theorem mbxPostDest (wr : List HostWrite) (agent ch : Nat) (dest : BitVec 8) : Statement (.mbxPostDest wr agent ch dest) := of_wf _
theorem mbxPostUnlock (agent ch : Nat) : Statement (.mbxPostUnlock agent ch) := of_wf _
theorem registerWrite (offset : Nat) (w : RegWrite) : Statement (.registerWrite offset w) := of_wf _
theorem logbookEntry : Statement (.logbookEntry) := of_wf _
theorem openSession : Statement (.openSession) := of_wf _
theorem prove : Statement (.prove) := of_wf _
theorem closeSession : Statement (.closeSession) := of_wf _
theorem attest : Statement (.attest) := of_wf _
theorem sink : Statement (.sink) := of_wf _
theorem revoke : Statement (.revoke) := of_wf _
theorem readLogbook : Statement (.readLogbook) := of_wf _
theorem selfRecalibrate : Statement (.selfRecalibrate) := of_wf _
theorem installMeterImage : Statement (.installMeterImage) := of_wf _
theorem sessionProveTimeout (agent : Nat) : Statement (.sessionProveTimeout agent) := of_wf _
theorem meterSample (samples : List Sample) : Statement (.meterSample samples) := of_wf _
theorem referenceStrobe (periods : List Nat) : Statement (.referenceStrobe periods) := of_wf _
theorem countFrame (die : Nat) (intact : Bool) : Statement (.countFrame die intact) := of_wf _
theorem meterFrame : Statement (.meterFrame) := of_wf _
theorem channelCompare : Statement (.channelCompare) := of_wf _
theorem intervalEnd : Statement (.intervalEnd) := of_wf _
theorem periodicRecalibration (ch : Nat) : Statement (.periodicRecalibration ch) := of_wf _
theorem recalibrationDone (ch : Nat) : Statement (.recalibrationDone ch) := of_wf _
theorem wearBucket : Statement (.wearBucket) := of_wf _
theorem helmControlStep (die : Nat) (readings : List Nat) : Statement (.helmControlStep die readings) := of_wf _
theorem regulatorSettled (die : Nat) : Statement (.regulatorSettled die) := of_wf _
theorem helmStep (die : Nat) : Statement (.helmStep die) := of_wf _
theorem meterFrames : Statement (.meterFrames) := of_wf _
theorem paceStrobe (die : Nat) : Statement (.paceStrobe die) := of_wf _
theorem thermalTrip (die reading : Nat) : Statement (.thermalTrip die reading) := of_wf _
theorem supplyLow (rail : Nat) : Statement (.supplyLow rail) := of_wf _
theorem regulatorFault (rail : Nat) : Statement (.regulatorFault rail) := of_wf _
theorem hang (n q e : Nat) : Statement (.hang n q e) := of_wf _
theorem handshake (p : Nat) : Statement (.handshake p) := of_wf _
theorem qmStall (n : Nat) : Statement (.qmStall n) := of_wf _
theorem keeperWatchdog : Statement (.keeperWatchdog) := of_wf _
theorem resetEntered (k : Nat) : Statement (.resetEntered k) := of_wf _
theorem resetHang (k : Nat) : Statement (.resetHang k) := of_wf _
theorem errorRecordClose (k : Nat) : Statement (.errorRecordClose k) := of_wf _
theorem irqGapEnd (vector : Nat) : Statement (.irqGapEnd vector) := of_wf _
theorem jointDown (j : Nat) : Statement (.jointDown j) := of_wf _
theorem pcieError (port : Nat) : Statement (.pcieError port) := of_wf _
theorem powerOn (straps : BitVec 22) : Statement (.powerOn straps) := of_wf _
theorem railCheck (inRange : Bool) : Statement (.railCheck inRange) := of_wf _
theorem railRetry : Statement (.railRetry) := of_wf _
theorem powerLoss : Statement (.powerLoss) := of_wf _
theorem bootWindowLoad (image : List Byte) : Statement (.bootWindowLoad image) := of_wf _
theorem hostSoftwareRestart (agent : Nat) : Statement (.hostSoftwareRestart agent) := of_wf _
theorem hostBootImageLoaded (flash : List Byte) : Statement (.hostBootImageLoaded flash) := of_wf _

end Sys2Proof.Laws.WellFormedShape
end

