-- ==== Sys2Proof/Tests/Slice0.lean ====
section
/-! SUPPORT. The author's tests. First, for every obligation with conditions, states and operands that meet them; then operands
out of range, instructions against hand calculation, and the worked examples of the spec. -/

open Sys2Proof Sys2Proof.Machine
namespace Sys2Proof.Tests

/-! ### States built for the tests -/

/-- A word of a format from its fields: (value, low bit) pairs. -/
def word (l : List (Nat × Nat)) : DWord := BitVec.ofNat 64 ((l.map (fun e => e.1 * 2 ^ e.2)).sum)

/-- A program of some words, for groups of 8 registers in blocks of one group and 16 KiB of deck. -/
def prog (l : List DWord) : Prog :=
  ⟨⟨1, 0⟩, List.replicate 64 0 ++ l.flatMap (fun w => natLe 8 w.toNat), 8, 1, 16384, 0, 8 * l.length, 0, 0, [], 0⟩

/-- A dispatch of 4 blocks, one of them placed. -/
def disp : Disp := ⟨⟨0, 1, 0⟩, ⟨1, 0⟩, 0, 4, 1, 0, [], [], [], true, 0, 0⟩

/-- A converged group at the start of its code. -/
def group : Group := ⟨0, 0, 0, BitVec.allOnes 32, 0, [], [], [], .no, 0, 0, false⟩

/-- The command of the dispatch: its entry bytes from an opcode and its body, (value, offset, bytes) each. -/
def entry (op : Nat) (body : List (Nat × Nat × Nat)) : List Byte :=
  body.foldl (fun l e => l.take e.2.1 ++ natLe e.2.2 e.1 ++ l.drop (e.2.1 + e.2.2)) (natLe 64 op)

/-- A command of queue q. -/
def cmd (q : Nat) (stage : Stage) (raw : List Byte) : Cmd :=
  ⟨q, 0, 1, raw, stage, 0, 0, 0, [], [], [], 0, [], []⟩

/-- A queue of the context ⟨1, 0⟩, rings of 16 at 4096 and 8192, doorbell at 64. -/
def queue : Queue :=
  ⟨⟨1, 0⟩, 1, false, 0, 0, 4, 4, 4096, 8192, 64, true, 0, 0, 0, 0, [], false, false, 0, false, 0⟩

/-- The context 1, its addresses 0 to 65,535 being the one page of host object 0. -/
def ctx : Ctx := ⟨0, 0, 0, [], [(0, pteOf true true true 256 0)], [], [], [], [], 0, [], []⟩

/-- Host object 0: one page at 1 MiB, settled. -/
def obj : MemObj := ⟨⟨1, 0⟩, false, true, 1, [256], [⟨.settled, 0, false, 0⟩], 0, false, 0⟩

/-- Partition 0 open, with context 1 and its queue 1. -/
def host : State :=
  { State.reset with
    ctxs := [(1, ctx)]
    chans := (List.range 200).map (fun c => (c, { Chan.reset with state := 2 }))
    ptns := [(0, { Ptn.reset with ready := true, queues := [(0, queue), (1, queue)], objs := [(0, obj)] })]
    pkg := { State.reset.pkg with start := .complete } }

/-- Core 0 running group g of the dispatch at word w, with work beside it. -/
def coreWith (w : DWord) (g : Group) (f : Work → Work) : State :=
  { host with
    cores := [(0, { Core.reset with
      running := true, lastCtx := [⟨1, 0⟩]
      work := f { Work.reset with
        ctx := [⟨1, 0⟩], groups := [(0, g)], blocks := [(0, ⟨⟨0, 1, 0⟩, 0, 0, 1, [0]⟩)], granuleOwner := [(0, ⟨1, 0⟩)] } })]
    ptns := [(0, { Ptn.reset with
      ready := true, queues := [(0, queue), (1, queue)], objs := [(0, obj)], progs := [(0, prog [w])], disps := [disp]
      cmds := [cmd 1 .running (entry 2 [])] })] }

/-- The same with nothing beside. -/
def core (w : DWord) (g : Group) : State := coreWith w g (fun k => k)

/-- The conditions of issue on core 0, slot 0, as a Bool. -/
def issuesAt (s : State) (w : DWord) (op : Nat) (f : Seat → Bool) : Bool :=
  match s.seat 0 0 with
  | none => false
  | some t => t.fetch == some w && wOp w == op && s.stallNext t == none && s.chosen t && (s.core 0).faultNext == 0 && f t

theorem issuesAt_spec {s : State} {w : DWord} {op : Nat} {f : Seat → Bool} (h : issuesAt s w op f = true) :
    ∃ t, s.issues 0 0 w op t ∧ f t = true := by
  unfold issuesAt at h
  split at h
  · cases h
  · rename_i t ht
    simp only [Bool.and_eq_true, beq_iff_eq] at h
    exact ⟨t, ⟨by decide, by decide, ht, h.1.1.1.1.1, h.1.1.1.1.2, h.1.1.1.2, h.1.1.2, h.1.2⟩, h.2⟩

/-! ### Witnesses: the conditions of each statement hold together somewhere -/

/-- The canonical form of every memory, as a Bool. -/
def sound (s : State) : Bool :=
  decide (Mem.wf s.cmem) && decide (Mem.wf s.hmem) && s.hold.all (fun e => decide (Mem.wf e.2)) &&
    s.cores.all (fun e => decide (Mem.wf e.2.work.deck) && e.2.work.head.all (fun h => decide (h.bytes.Pairwise (fun c d => c.1 < d.1)))) &&
    s.ptns.all (fun e => e.2.saved.all (fun v => decide (Mem.wf v.work.deck) && v.work.head.all (fun h => decide (h.bytes.Pairwise (fun c d => c.1 < d.1)))))

theorem sound_memWf {s : State} (h : sound s = true) : s.memWf := by
  simp only [sound, Bool.and_eq_true, decide_eq_true_eq, List.all_eq_true] at h
  exact ⟨h.1.1.1.1, h.1.1.1.2, h.1.1.2, h.1.2, h.2⟩

theorem witness_CommandsAlwaysAnswer : (Instr.iadd 0 0 0).wf = true ∧ (Instr.iadd 192 0 0).wf = false ∧
    ∃ t, exec .railRetry State.reset = .next t := ⟨by decide, by decide, _, rfl⟩

theorem witness_MemoriesStayCanonical : State.reset.memWf ∧ ∃ t, step State.reset = .next t :=
  by
  refine ⟨⟨by decide, by decide, by decide, ?_, ?_⟩, _, rfl⟩ <;> (intro e h; cases h)

/-- Conditions of issue for the row of an opcode from group g, f being asked of the seat besides. -/
def can (op : Nat) (w : DWord) (g : Group) (f : Seat → Bool) : Bool := issuesAt (core w g) w op f

theorem can_spec {op : Nat} {w : DWord} {g : Group} {f : Seat → Bool} (h : can op w g f = true) :
    ∃ (s : State) (t : Seat), s.issues 0 0 w op t ∧ f t = true := ⟨_, issuesAt_spec h⟩

/-- A thread word: opcode, SUB, DST 3, SRCA 1, SRCB 2. -/
def tw (op sub : Nat) : DWord := word [(op, 0), (3, 8), (1, 16), (2, 24), (sub, 42)]

/-- Legality of the thread format. -/
def legal (w : DWord) (t : Seat) : Bool := threadLegal t.pr.nreg w

theorem witness_ThreadArithmetic : ∀ op ∈ [0x00, 0x01, 0x02, 0x03, 0x04, 0x05, 0x06, 0x07, 0x08, 0x09, 0x0A, 0x0B, 0x10, 0x11,
    0x12, 0x13, 0x14, 0x15, 0x16, 0x17], can op (tw op 0) group (legal (tw op 0)) = true := by decide

theorem witness_ScalarArithmetic : ∀ op ∈ [0xD0, 0xD1, 0xD2, 0xD3, 0xD4, 0xD5, 0xD6, 0xD7, 0xD8],
    can op (tw op 0) group (fun _ => scalarLegal (tw op 0)) = true := by decide

/-- A group whose lane 0 holds 1 in t1. -/
def split : Group := group.setT 1 0 1
/-- The same with a full stack. -/
def deep : Group := { split with stack := List.replicate 32 (.reconv 64 1) }

theorem witness_ControlFlow :
    (∀ op ∈ [0x60, 0x61, 0x62, 0x65], can op (tw op 0) split (legal (tw op 0)) = true) ∧
    (∀ op ∈ [0x60, 0x62], can op (tw op 0) deep (fun t => legal (tw op 0) t && 32 ≤ t.g.stack.length) = true) ∧
    can 0x60 (tw 0x60 0) group (fun t => legal (tw 0x60 0) t && t.g.lanes.all (fun l => t.g.t 1 l == 0)) = true := by decide

theorem witness_ExitAndBarrier : (∀ op ∈ [0x63, 0x64], can op (tw op 0) group
      (fun t => legal (tw op 0) t && t.g.active == ~~~ t.g.exited) = true) ∧
    can 0x64 (tw 0x64 0) { group with active := 1 } (fun t => legal (tw 0x64 0) t && t.g.active != ~~~ t.g.exited) = true := by
  decide

theorem witness_GroupCooperation :
    (∀ op ∈ [0x70, 0x71, 0x72, 0x73, 0x74], can op (tw op 0) group (legal (tw op 0)) = true) ∧
    (∀ sub ∈ [1, 2, 3, 4], can 0x70 (tw 0x70 sub) group (legal (tw 0x70 sub)) = true) ∧
    (∀ sub ∈ [1, 2, 3, 4, 5, 6, 8], can 0x71 (tw 0x71 sub) group (legal (tw 0x71 sub)) = true) ∧
    can 0x72 (tw 0x72 2) group (legal (tw 0x72 2)) = true ∧ can 0x73 (tw 0x73 2) group (legal (tw 0x73 2)) = true := by decide

theorem witness_DeckAccess :
    (∀ op ∈ [0x40, 0x41], can op (tw op 0) group (fun t => legal (tw op 0) t && t.g.lanes.all (fun l =>
      t.g.deckAddr (tw op 0) l + 1 ≤ 16384)) = true) ∧
    (∀ op ∈ [0x40, 0x41], can op (tw op 2) split (fun t => legal (tw op 2) t && t.g.lanes.any (fun l =>
      t.g.deckAddr (tw op 2) l % 4 != 0)) = true) ∧
    (∀ op ∈ [0x40, 0x41], can op (tw op 2) (group.setT 1 0 16384) (fun t => legal (tw op 2) t && t.g.lanes.any (fun l =>
      16384 < t.g.deckAddr (tw op 2) l + 4)) = true) := by decide

theorem witness_DeckLocks : ∀ op ∈ [0x50, 0x51], can op (tw op 0) { group with active := 1 } (fun t =>
    legal (tw op 0) t && t.g.lanes == [0] && t.g.deckAddr (tw op 0) 0 % 4 == 0) = true := by decide

/-- A request of a far slot of core 0. -/
def farReq (pl : Place) (a : FarAct) : FarReq := ⟨1, 0, 0, ⟨1, 0⟩, 0, pl, a, 0, 1, []⟩

theorem witness_FarRequests :
    (∀ op ∈ [0x42, 0x43, 0x44], can op (tw op 0) group (fun t => legal (tw op 0) t && t.g.lanes.all (fun l =>
      (core (tw op 0) group).laneXl t (tw op 0) l == .ok (.host 1048576))) = true) ∧
    (∀ op ∈ [0x50, 0x51], can op (tw op 1) group (fun t => legal (tw op 1) t && t.g.lanes.all (fun l =>
      (core (tw op 1) group).laneXl t (tw op 1) l == .ok (.host 1048576))) = true) ∧
    (∀ op ∈ [0x44, 0x50], can op (tw op 1) split (fun t => legal (tw op 1) t && t.g.farAddr (tw op 1) 0 % 4 != 0) = true) ∧
    (∀ op ∈ [0x44, 0x50], can op (tw op 1) (group.setT 2 0 1) (fun t => legal (tw op 1) t &&
      (core (tw op 1) group).laneXl t (tw op 1) 0 == .no 0x0402) = true) := by decide

/-- Core 0 with one far request in slot 0. -/
def asking (a : FarAct) : State :=
  coreWith (tw 0x65 0) group (fun k => { k with slots := [(0, farReq (.host 1048576) a)] })

theorem witness_FarResponses : ∀ a ∈ ([.load 3 0 4 false false [], .store 4 1 false, .atom 0 1 0 3 0 false,
    .lock 3 0 (lockWord 0 0 0), .unlock 3 0 (lockWord 0 0 0)] : List FarAct),
    let s := asking a
    Tab.get? (s.work 0).slots 0 = some (farReq (.host 1048576) a) ∧ (s.chan (chanOf (.host 1048576))).state = 2 ∧
      (s.work 0).laneFirst (farReq (.host 1048576) a) = true ∧ s.flips = [] ∧ s.poison = [] := by decide

/-- A group waiting at a barrier. -/
def held : Group := { group with held := .barrier 0 }

theorem witness_IssueFaults :
    (∀ op ∈ [0x64, 0xA0, 0xC0, 0x80], can op (tw op 0) split.advance (fun _ => true) = false ∧
      can op (tw op 0) { group with active := 1 } (fun t => t.g.active != ~~~ t.g.exited) = true) ∧
    (∀ op ∈ [0x00, 0x60], can op (tw op 15 + word [(3, 46)]) group (fun t => !legal (tw op 15 + word [(3, 46)]) t) = true) ∧
    can 0xD0 (tw 0xD0 15) group (fun _ => !scalarLegal (tw 0xD0 15)) = true ∧
    (let w := word [(0x80, 0), (15, 41)]
     can 0x80 w group (fun t => t.g.active == ~~~ t.g.exited && !vectorLegal w) = true) ∧
    (∀ op ∈ [0x00, 0x64], ((core (tw op 0) held).seat 0 0).any (fun t => t.fetch == some (tw op 0) &&
      (core (tw op 0) held).stallNext t == some 45) = true) := by decide

theorem witness_RegisterInstructionFrame : ∀ op ∈ [0x00, 0x17, 0x61, 0x65, 0x70, 0x74],
    can op (tw op 0) group (legal (tw op 0)) = true := by decide

/-- A group whose s1 is an extents word of one row and column, s2 an operand word in the block's deck. -/
def mxGroup : Group :=
  (group.setS 1 (word [(1, 0), (1, 10), (1, 17)])).setS 2 (word [(0, 0), (4, 22), (8192, 33), (1, 55)])

/-- An MPASS, MALT, MDRAIN and MZERO on array 0. -/
def mpassWord (q : Nat) : DWord :=
  word [(0xA0, 0), (4, 10), (1, 14), (1, 16), (1, 19), (q, 26), (2, 28), (2, 34), (1, 40)]
def maltWord : DWord := word [(0xA1, 0), (5, 10), (2, 19), (2, 25), (2, 31)]
def mdrainWord : DWord := word [(0xA2, 0), (4, 24), (2, 28), (1, 40)]
def mzeroWord : DWord := word [(0xA3, 0), (4, 24), (1, 40)]

theorem witness_MatrixQueues :
    (∀ q ∈ [0, 1], can 0xA0 (mpassWord q) mxGroup (fun t =>
      mpassFault (mpassWord q) t (t.g.s 2) (t.g.s 2) (t.g.s 1) (t.g.s 0) == none) = true) ∧
    can 0xA1 maltWord mxGroup (fun t => maltFault maltWord t (t.g.s 2) (t.g.s 2) (t.g.s 2) (t.g.s 0) (t.g.s 0) == none) = true ∧
    can 0xA2 mdrainWord mxGroup (fun t => accFault mdrainWord t (t.g.s 2) (t.g.s 1) == none) = true ∧
    can 0xA3 mzeroWord mxGroup (fun t => accFault mzeroWord t (t.g.s 0) (t.g.s 1) == none) = true ∧
    (∀ op ∈ [0xA4, 0xC1], can op (word [(op, 0)]) group (fun t => t.g.active == ~~~ t.g.exited) = true ∧
      can op (word [(op, 0), (1, 11)]) group (fun t => t.g.active == ~~~ t.g.exited) = true) := by decide

/-- A TCOPY on channel 0 from the descriptor at s1 to the one at s2. -/
def tcopyWord : DWord := word [(0xC0, 0), (1, 10), (2, 16)]
/-- A group with descriptors at two deck addresses. -/
def copyGroup (a b : Nat) : Group := (group.setS 1 (BitVec.ofNat 64 a)).setS 2 (BitVec.ofNat 64 b)
/-- A copy that waits in its channel. -/
def copyEntry : CopyEntry := ⟨1, 0, 0, 0, 128, 0, false, 0, 1⟩
/-- Core 0 with channel 0 as given, its deck as given. -/
def chanState (k : Channel) (deck : Memory) : State :=
  coreWith (tw 0x65 0) group (fun w => { w with chans := [(0, k)], deck := deck })
/-- The bytes of a deck tensor descriptor of one byte at a deck address: dense, one dimension. -/
def emptyTensor : Tensor := ⟨0, 0, 0, 1, 0, 0, 1, 0, 0, false, false, false, false, [⟨1, 1, 1, 0⟩]⟩
/-- A copy in progress that has begun its writes. -/
def copyRun : CopyRun := ⟨copyEntry, emptyTensor, emptyTensor, true, [], []⟩

theorem witness_Copies :
    can 0xC0 tcopyWord (copyGroup 0 128) (fun t => t.g.active == ~~~ t.g.exited && fld tcopyWord 63 29 == 0) = true ∧
    can 0xC0 tcopyWord (copyGroup 0 16384) (fun t => t.g.active == ~~~ t.g.exited) = true ∧
    can 0xC0 tcopyWord (copyGroup 0 64) (fun t => t.g.active == ~~~ t.g.exited) = true ∧
    (let s := chanState ⟨[copyEntry], []⟩ []
     s.generating 0 0 = false ∧ (s.work 0).blocked 1 (copyEnvs (s.work 0).deck ⟨0, 1, 0⟩ copyEntry) = false ∧ s.flips = [] ∧
      (s.disp? ⟨0, 1, 0⟩).isSome = true ∧
      (s.setWork 0 ((s.work 0).setChan 0 ⟨[], []⟩)).copyRefused 0 ⟨⟨0, 1, 0⟩, 0, 0, 1, [0]⟩ disp (prog [tw 0x65 0]) copyEntry ≠ none) ∧
    (let s := chanState ⟨[], [copyRun]⟩ []
     ((s.work 0).chan 0).runs[0]? = some copyRun ∧ s.copyBusy 0 0 1 = false) := by decide

/-- A VADD of v1 and v2 into v3 in i32, an access of the deck and a VOWN. -/
def vw (op sub ty : Nat) : DWord := word [(op, 0), (3, 8), (1, 13), (2, 18), (1, 35), (ty, 33), (sub, 41)]

theorem witness_VectorQueues :
    (∀ op ∈ [0x88, 0x89, 0x8A], let w := word [(op, 0), (3, 8), (1, 13), (2, 18), (3, 33)]
     can op w group (fun t => t.g.active == ~~~ t.g.exited && vectorLegal w) = true) ∧
    (let w := word [(0x80, 0), (3, 8), (1, 35)]
     can 0x80 w group (fun t => t.g.active == ~~~ t.g.exited && vectorLegal w && t.b.holds (vRange w (t.g.s (vSs w)))) = true) ∧
    (let w := word [(0x82, 0), (3, 8), (2, 18), (1, 35)]
     can 0x82 w (group.setS 1 (BitVec.ofNat 64 (64 * 2 ^ 22))) (fun t => t.g.active == ~~~ t.g.exited && vectorLegal w &&
       t.b.holds (vRange w (t.g.s (vSs w))) && 4 ≤ vBound (t.g.s (vSs w))) = true) ∧
    can 0x9C (word [(0x9C, 0)]) group (fun t => t.g.active == ~~~ t.g.exited && vectorLegal (word [(0x9C, 0)])) = true ∧
    (∀ l ∈ [[], [(1, 0)], [(2, 0)]],
      let s := coreWith (tw 0x65 0) group (fun k => { k with engine := { Engine.reset with waiters := [0], last := l } })
      (s.work 0).engine.waiters = 0 :: [] ∧ (s.work 0).engine.holder = .nobody ∧ (s.disp? ((s.work 0).cidOf 0)).isSome = true) := by
  decide

/-- A matrix entry of the demonstration group. -/
def mxEntry (w : DWord) : MxEntry := ⟨1, 0, 0, w, word [(4, 22), (8192, 33), (1, 55)], word [(1, 0), (1, 10), (1, 17)], 0, 0, 0⟩
/-- Core 0 with array 0 as given. -/
def arrayState (x : MxArray) : State := coreWith (tw 0x65 0) group (fun k => { k with arrays := [(0, x)] })

theorem witness_TakeDecisions :
    (let s := arrayState { MxArray.reset with fwd := [mxEntry (mpassWord 0)], bwd := [mxEntry (mpassWord 1)] }
     (s.core 0).running = true ∧ (s.work 0).headReady ((s.work 0).array 0) ((s.work 0).array 0).fwd = true ∧
      (s.work 0).headReady ((s.work 0).array 0) ((s.work 0).array 0).bwd = true ∧ ((s.work 0).array 0).entryFree = true) ∧
    (let s := arrayState MxArray.reset
     (s.core 0).running = true ∧ (s.work 0).headReady ((s.work 0).array 0) ((s.work 0).array 0).fwd = false ∧
       ((s.work 0).array 0).entryFree = true) := by decide

/-- A pass with one stream row of code 127 and one column of the same, both at scale 0. -/
def subPass : SubPass := ⟨5, 0, false, 128, 1, [⟨0, [127], 0, 0⟩], [⟨[127], 0, 0⟩], true⟩

theorem witness_Folds :
    (∀ b ∈ [true, false],
     let u := { subPass with entered := b }
     let s := arrayState { MxArray.reset with
       taken := [⟨mxEntry (mpassWord 0), [u]⟩], active := if b then u.cols else [], shadow := if b then [] else u.cols }
     ((s.work 0).array 0).taken = [⟨mxEntry (mpassWord 0), [u]⟩] ∧ (nextRow [u]).map (·.1) = some u ∧
      (if u.entered then ((s.work 0).array 0).active else ((s.work 0).array 0).shadow) = u.cols ∧ u.cols.length ≤ u.width) ∧
    0 < (lfmt 5).k ∧ 127 % ((lfmt 5).cmax + 1) ≠ 0 ∧ 0 % ((lfmt 5).cmax + 1) = 0 := by
  decide +kernel

/-- Conditions for an MDRAIN or MZERO at the head of the accumulator queue. -/
def drains (w : DWord) : Bool :=
  let m := mxEntry w
  let s := arrayState { MxArray.reset with accq := [m] }
  let x := (s.work 0).array 0
  (s.core 0).running && x.taken == [] && x.accq == [m] && !(s.work 0).blocked m.stamp m.envs && !x.waits m &&
    exNv m.opB ≤ 64 * prodP (dFmt m.w) && 4 * exNv m.opB ≤ opPitch m.opA

theorem witness_PassesAndDrains :
    (let s := arrayState { MxArray.reset with taken := [⟨mxEntry (mpassWord 0), []⟩] }
     ((s.work 0).array 0).taken = [⟨mxEntry (mpassWord 0), []⟩] ∧ (nextRow []).isNone = true) ∧
    drains mdrainWord = true ∧ drains mzeroWord = true := by decide

/-- Core 0 with one instruction in the vector engine. -/
def veState (w : DWord) (sval : DWord) (e : Engine) : State :=
  coreWith (tw 0x65 0) group (fun k => { k with engine := { e with queue := [⟨1, 0, 0, w, sval⟩], holder := .block 0 } })
/-- The conditions of VE_INSTRUCTION_START in that state. -/
def veReady (w sval : DWord) (e : Engine) : Bool :=
  let s := veState w sval e
  (s.core 0).running && (s.work 0).engine.queue == [⟨1, 0, 0, w, sval⟩] && !(s.work 0).blocked 1 (VeEntry.envs ⟨1, 0, 0, w, sval⟩) &&
    !(s.work 0).engine.awaits w && (s.disp? ((s.work 0).cidOf 0)).isSome

theorem witness_VectorLanes : (∀ op ∈ [0x84, 0x85, 0x88, 0x8A, 0x8B, 0x8C, 0x8D, 0x8E, 0x8F, 0x90, 0x91],
    veReady (vw op 0 0) 0 Engine.reset = true) ∧ (∀ sub ∈ [0, 1, 2, 3, 4, 5, 6, 7], veReady (vw 0x92 sub 0) 0 Engine.reset = true) := by
  decide

theorem witness_VectorDeck : ∀ op ∈ [0x80, 0x81, 0x82, 0x83], veReady (vw op 0 0) (BitVec.ofNat 64 (64 * 2 ^ 22)) Engine.reset = true := by
  decide

/-- Eight entries of the reduction unit. -/
def eight : List RuEntry := List.replicate 8 (.get 1 0 0 (vw 0x9B 0 0) 0)

theorem witness_SeedsAndDraws : (∀ op ∈ [0x98, 0x9A, 0x9B], veReady (vw op 0 0) 5 Engine.reset = true) ∧
    (∀ op ∈ [0x9A, 0x9B], veReady (vw op 0 0) 5 { Engine.reset with ruq := eight } = true) ∧
    ctlStoch 0 = false ∧ ctlStoch 1 = true ∧ genGet 0 [] 0 ≠ 0 := by decide +kernel

theorem witness_LConversions : ∀ op ∈ [0x95, 0x96], ∀ ctl ∈ [0, 64], let w := vw op 0 0 + word [(5, 48), (ctl, 54)]
    veReady w 0 Engine.reset = true ∧ ctlStoch (vCtl w) = false ∧ vPart w < 32 / (lfmt (vFmt w)).width := by decide

theorem witness_LCodesRoundTrip : 5 ∈ [4, 5, 6] ∧ 127 < 2 ^ (lfmt 5).width ∧ 127 ≠ 2 ^ ((lfmt 5).width - 1) ∧
    (toF32 ((lfmt 5).decode 0 127)).toNat / 2 ^ 23 % 2 ^ 8 = 127 := by decide +kernel

/-- Core 0 with one entry in the reduction unit. -/
def ruState (r : RuEntry) : State :=
  coreWith (tw 0x65 0) group (fun k => { k with engine := { Engine.reset with ruq := [r] } })

theorem witness_Reductions :
    (∀ sub ∈ [8, 9], let w := vw 0x9A sub 0
      let s := ruState (.red 1 0 0 w [] 1)
      (s.core 0).running = true ∧ (s.work 0).engine.ruq = [.red 1 0 0 w [] 1] ∧ vSub w = sub) ∧
    (∀ sub ∈ [0, 4], let w := vw 0x9B sub 0
      let s := ruState (.get 1 0 0 w 1)
      (s.core 0).running = true ∧ (s.work 0).engine.ruq = [.get 1 0 0 w 1] ∧ vSub w = sub ∧ (s.work 0).group? 0 = some group) := by
  decide

/-- A host with one command of queue 1, its arguments and stage. -/
def run (k : Cmd) : State :=
  { host with ptns := [(0, { Ptn.reset with
      ready := true, queues := [(0, queue), (1, queue)], objs := [(0, obj)], cmds := [k] })] }
/-- The same with more of the partition. -/
def runWith (k : Cmd) (f : Ptn → Ptn) : State := { run k with ptns := Tab.mapVals f (run k).ptns }

/-- A dispatch with a block to place, for a program. -/
def placing (pr : Prog) : State := runWith (cmd 1 .running (entry 2 [])) (fun x => { x with disps := [disp], progs := [(0, pr)] })

/-- Whether the dispatch may place a block, and whether its program's block fits on a core at a granule. -/
def placesNow (s : State) (e : Disp) : Bool :=
  e.status == 0 && e.granted && e.next < e.blocks && ((s.ptn 0).saved.isEmpty || s.classOf e.cid == 0)
def fitsAt (s : State) (d : Disp) (pr : Prog) (p g : Nat) : Bool :=
  let w := s.work p
  let a := (pr.deckBytes + 16383) / 16384
  (s.core p).running && w.ctx == [d.ctx] && w.blocks.length < 16 &&
    pr.gpb ≤ ((List.range 64).filter (fun k => (w.group? k).isNone)).length &&
    s.regsUsed w + 8 * ((pr.nreg + 7) / 8) * pr.gpb ≤ 4096 && g + a ≤ s.blockGranules 0 &&
    w.blocks.all (fun x => a == 0 || x.2.granules == 0 || g + a ≤ x.2.deckLo / 16384 || x.2.deckLo / 16384 + x.2.granules ≤ g)

theorem witness_BlocksOnCores :
    (let s := core (tw 0x65 0) group
     !(s.ptn 0).halted && sound s && (s.ptn 0).disps == [disp] && placesNow s disp &&
       Tab.get? (s.ptn 0).progs disp.prog == some (prog [tw 0x65 0]) && (s.coresOf 0).contains 0 &&
       fitsAt s disp (prog [tw 0x65 0]) 0 1) = true ∧
    (let s := placing (prog [])
     sound s && (s.ptn 0).disps == [disp] && placesNow s disp && (s.coresOf 0).all (fun p => !(s.core p).running)) = true ∧
    (sound host && (host.ptn 0).disps.isEmpty) = true ∧
    (let s := coreWith (tw 0x65 0) group (fun k => { k with groups := [] })
     (s.work 0).groups == [] && !(s.work 0).blockBusy 0 && (Tab.get? (s.work 0).blocks 0).isSome && s.disp? ⟨0, 1, 0⟩ == some disp) = true ∧
    ([0, 4096].all (fun peak =>
     let s := runWith (cmd 1 .running (entry 2 [])) (fun x => { x with
       disps := [disp], progs := [(0, { prog [] with stashPeak := peak })], waitResv := [⟨0, 1, 0⟩] })
     let need := (peak * 4096 + 2097151) / 2097152
     (s.ptn 0).waitResv.contains ⟨0, 1, 0⟩ && (s.progOf ⟨0, 1, 0⟩).any (fun pr => pr.stashPeak == peak) &&
       s.disp? ⟨0, 1, 0⟩ == some disp && disp.status == 0 && !(s.ptn 0).halted && (decide (s.stashSize 0 < need) == (peak != 0)) &&
       ((s.ptn 0).cmds.filter (fun c => c.queue == 1 && (s.ptn 0).started 0 c)).length < 64 &&
       !(Tab.get? (s.ptn 0).queues 1).all (fun x => !x.held.isEmpty))) = true := by
  refine ⟨by decide +kernel, by decide +kernel, by decide +kernel, by decide, by decide +kernel⟩

/-- A trump queue. -/
def trump : Queue := { queue with cls := 0 }

theorem witness_PreemptionAndResume :
    (let s := coreWith (tw 0x65 0) group (fun k => { k with blocks := [(0, ⟨⟨0, 2, 0⟩, 0, 0, 1, [0]⟩)] })
     let k := cmd 1 .running (entry 2 [])
     let t := { s with ptns := [(0, { s.ptn 0 with
       queues := [(1, trump), (2, queue)], cmds := [k, cmd 2 .running (entry 2 [])], progs := [(0, { prog [] with gpb := 64 })]
       disps := [{ disp with cid := ⟨0, 2, 0⟩ }, disp] })] }
     t.starved ⟨0, 1, 0⟩ k && t.classOf ⟨0, 1, 0⟩ == 0 && t.cmd? ⟨0, 1, 0⟩ == some k && !(t.ptn 0).halted &&
       (t.ptn 0).saved.isEmpty && (t.coresOf 0).all (fun p => (t.work p).atBoundary) && !t.trumpBlock (t.work 0) 0) = true ∧
    (run (cmd 1 .ready (entry 6 []))).classOf ⟨0, 1, 0⟩ ≠ 0 ∧
    (let s := runWith (cmd 1 .read (entry 6 [])) (fun x => { x with saved := [⟨0, { Work.reset with ctx := [⟨1, 0⟩] }⟩] })
     (s.ptn 0).saved.all (fun z => (s.work z.core).blocks.isEmpty && (s.work z.core).engine.holder == .nobody && !z.work.ctx.isEmpty) &&
       (s.ptn 0).save.isEmpty && (s.ptn 0).cmds.all (fun k => s.classOf ⟨0, k.queue, k.entry⟩ != 0)) = true := by decide

theorem witness_RingsRead :
    (host.touched ⟨64 * 5, List.replicate 8 0⟩ == [] && 64 * 5 + 64 ≤ hostMemoryBytes) = true ∧
    (let s := runWith (cmd 1 .read (entry 6 [])) (fun x => { x with queues := [(1, queue)] })
     s.touched ⟨64, List.replicate 8 0⟩ == [(0, 1)] && s.queue? 0 1 == some queue && queue.doorbell == 64 * 1 && sound s &&
       queue.held.isEmpty && queue.dying == 0) = true ∧
    (host.queue? 0 1 == some queue && queue.sqHead == queue.sqTail && queue.seen.toNat == leAt (host.hostRead queue.doorbell 8) 0 8) = true ∧
    (let x := { queue with sqTail := 1 }
     let s := runWith (cmd 2 .read []) (fun y => { y with queues := [(1, x)] })
     x.seen.toNat == leAt (s.hostRead x.doorbell 8) 0 8 && s.mayRead 0 1 x && s.signalOf 0 1 x 1 (s.hostRead 4096 64) == [] && !eRemote (s.hostRead 4096 64) 0) = true := by decide

/-- A command that waits for a fence. -/
def waits (h : Nat) : List Byte := entry 9 [(h, 8, 4)]

theorem witness_CommandChecks :
    (∀ raw ∈ [entry 9 [], entry 9 [(2 ^ 13, 0, 4)], entry 0x20 []],
      let k := cmd 1 .read raw
      ((run k).cmd? ⟨0, 1, 0⟩ == some k && ((run k).ptn 0).turnOf 0 k && !((run k).ptn 0).halted) = true) ∧
    (let k := cmd 1 .waiting (entry 9 [])
     (run k).waitStatus 0 k == some 0 && ((run k).checkBody 0 queue.ctx k).status == 0 &&
      ((run k).checkBody 0 queue.ctx k).s.cmd? ⟨0, 1, 0⟩ == some k) = true ∧
    (let k := cmd 1 .waiting (entry 9 [(1, 32, 4)])
     (run k).waitStatus 0 k == some 0 && ((run k).checkBody 0 queue.ctx k).status != 0) = true ∧
    (let k := { cmd 1 .waiting (entry 9 []) with status := 0x0801 }
     (run k).waitStatus 0 k == some 0x0801) = true ∧
    (let k := cmd 1 .waiting (waits (5 * 2 ^ 28))
     let f : Fence := ⟨⟨1, 0⟩, 0, false, false, 0, [], 0, false⟩
     (runWith k (fun x => { x with fences := [(0, f)] })).waitStatus 0 k == none) = true := by decide

/-- Whether a row for an opcode starts the command that stands ready with that opcode, and under another does not. -/
def starts (op : Nat) (body : List (Nat × Nat × Nat)) : Bool :=
  let k := cmd 1 .ready (entry op body)
  (run k).starting 0 1 0 op == some (k, queue) && ((run k).starting 0 1 0 12).isNone

theorem witness_Mappings : (∀ op ∈ [1, 2, 3, 4, 5, 8, 9, 10, 11], starts op [] = true) ∧
    (let body := [(65536, 24, 8), (3 * 2 ^ 28, 32, 4), (1, 40, 4), (1, 44, 4)]
     let k := cmd 1 .ready (entry 10 body)
     starts 10 body && (run k).obj? 0 (eBody k.raw 8 4) == some obj && eBody k.raw 0 8 % 65536 == 0 &&
      !obj.big && Tab.get? (run k).ctxs queue.ctx.id == some ctx && !ctx.mapped 65536 65536 && ctx.mapped 0 65536) = true ∧
    (let c : Ctx := { ctx with l3 := [(1, pteOf true true true 1024 0)] }
     c.l3.any (fun e => pteValid e.2 && 2097152 * e.1 < 2097152 + 65536 && 2097152 < 2097152 * e.1 + 2097152)) = true := by decide

/-- A structure of n bytes: (value, offset, bytes) each. -/
def blob (n : Nat) (l : List (Nat × Nat × Nat)) : List Byte :=
  l.foldl (fun r e => r.take e.2.1 ++ natLe e.2.2 e.1 ++ r.drop (e.2.1 + e.2.2)) (List.replicate n 0)

/-- The descriptor of two binary32 elements at an address of the context. -/
def pair (a : Nat) : List Byte :=
  blob 128 [(a, 0, 8), (2 ^ 8, 0x14, 4), (4 + 2 * 2 ^ 40, 0x20, 8), (2, 0x28, 8)]

/-- A command of the queue ready to start, with its structures. -/
def ready (op : Nat) (body : List (Nat × Nat × Nat)) (args : List Byte) : Cmd :=
  { cmd 1 .ready (entry op body) with args := args }

theorem witness_ProgramsAndDispatches :
    (let k := ready 1 [] (blob 20 [])
     let s := run k
     let f := (s.began 0 k).readVa 0 queue.ctx 0 0
     s.starting 0 1 0 1 == some (k, queue) && s.flips.isEmpty && s.poison.isEmpty && f.status == 0 && (s.ptn 0).progs.isEmpty &&
       ((s.began 0 k).computePages 0 65536 0).isSome) = true ∧
    (let k := ready 1 [(65536, 24, 8), (1, 32, 4)] (blob 20 [])
     let s := run k
     let f := (s.began 0 k).readVa 0 queue.ctx (eBody k.raw 0 8) (eBody k.raw 8 4)
     s.starting 0 1 0 1 == some (k, queue) && f.status != 0) = true ∧
    (let k := ready 1 [(1, 32, 4)] (blob 20 [])
     let s := run k
     let f := (s.began 0 k).readVa 0 queue.ctx 0 1
     s.starting 0 1 0 1 == some (k, queue) && eBody k.raw 8 4 == 1 && f.status == 0 &&
       ((s.began 0 k).computePages 0 65536 1).isNone) = true ∧
    ([(0, 0), (4096, 8), (4096, 7)].all (fun e =>
     let k := ready 2 [] (blob 192 [(7, 0, 4), (4, 4, 4)])
     let r := runWith k (fun x => { x with progs := [(7, { prog [] with stashPeak := e.1 })], deal := [0, 1] })
     let s := r.setReg (Reg.stashCfg 0) (BitVec.ofNat 64 (e.2 * 2 ^ 20))
     s.starting 0 1 0 2 == some (k, queue) && (s.ptn 0).disps.isEmpty && ((s.began 0 k).bindAll 0 queue.ctx queue.owner []).isSome &&
       (Tab.get? (s.ptn 0).progs (leAt k.args 0 4 % 2 ^ 20)).any (fun pr => pr.stashPeak == e.1) && (s.ptn 0).resv.isEmpty &&
       s.stashSize 0 == e.2)) = true ∧
    (let k := ready 2 [] (blob 192 [(7, 0, 4), (4 + 2 ^ 24, 4, 4)])
     ((run k).starting 0 1 0 2).isSome && (((run k).began 0 k).bindAll 0 queue.ctx queue.owner [leAt k.args 64 8]).isNone) = true := by
  refine ⟨by decide +kernel, by decide +kernel, by decide +kernel, by decide +kernel, by decide +kernel⟩

/-- The conditions of MemoryMoves on a command of the queue, one place of far requests apart. -/
def moves (op : Nat) (k : Cmd) : Bool :=
  let s := run k
  let job := moveJob k
  let s1 := (s.began 0 k).noteView ⟨0, 1, 0⟩ queue.ctx job.dst
  let who := whoOf 0 queue.ctx
  let reads := job.srcs ++ (if job.old then [job.dst] else [])
  let at_ (a : Nat) : Option Place := s1.placeOf who a
  s.starting 0 1 0 op == some (k, queue) && s.flips.isEmpty && s.poison.isEmpty && (s.ptn 0).moves.isEmpty && k.status == 0 &&
    (job.dst :: reads).all (fun t => t.space == 0 && t.addrs.all (fun a => (at_ a).any (fun pl => !pl.isRemote))) &&
    job.srcs.all (fun t => s1.xlFails who ⟨true, false⟩ t.addrs == none) &&
    s1.xlFails who ⟨job.dst.acc, true⟩ job.dst.addrs == none && job.dst.addrs.length == 8 &&
    job.dst.addrs.all (fun a => job.dst.addrs.all (fun b => at_ a != at_ b || a == b)) && s.cores.isEmpty

theorem witness_MemoryMoves : moves 3 (ready 3 [] (pair 64 ++ pair 128)) = true ∧ moves 4 (ready 4 [] (pair 64)) = true ∧
    moves 5 (ready 5 [(2, 16, 4)] (pair 64 ++ pair 128 ++ pair 192)) = true := by
  refine ⟨by decide +kernel, by decide +kernel, by decide +kernel⟩

/-- A weight object of two slots of one page of host memory, at generation 0. -/
def weight : MemObj := { obj with bases := [512, 528], slots := [⟨.settled, 0, false, 0⟩, ⟨.settled, 0, false, 0⟩] }

/-- An optimizer table with no state object whose step is its selector. -/
def table : List Byte := blob 256 [(7 * 2 ^ 3, 0, 4)]

/-- A command beside a weight object 1 at addresses 65,536 to 131,071, and bytes at address 0. -/
def onWeight (k : Cmd) (o : MemObj) (us : List Upd) (l : List Byte) : State :=
  let s := runWith k (fun x => { x with objs := [(0, obj), (1, o)], updates := us })
  { s with
    cores := [(0, { Core.reset with running := true })]
    ctxs := [(1, { ctx with l4 := [(0, pteOf true true true 256 0), (1, pteOf true true true 512 1)] })]
    hmem := (s.hostWrite 1048576 l).hmem }

/-- An UPDATE of that object and its arguments in memory. -/
def update : Cmd := ready 6 [(0, 24, 8), (128, 32, 8), (256, 40, 8)] (natLe 8 1)

/-- An update of that object as it runs, with units of its peers or none. -/
def running (st : UpdStage) (nu first last : Nat) : Upd :=
  ⟨⟨0, 1, 0⟩, ⟨1, 0⟩, 1, 0, st, nu, first, last, 0, [], [], [], false⟩

/-- The whole arguments of that UPDATE. -/
def updating (st : Stage) : Cmd := { cmd 1 st (entry 6 [(256, 40, 8)]) with args := natLe 8 1 ++ pair 65536 ++ pair 1024 ++ table }

/-- Whether the units of the peers have arrived. -/
def allIn (u : Upd) (k : Cmd) : Bool :=
  (List.range u.first ++ (List.range (u.nu - u.last)).map (u.last + ·)).all (u.has (updArgs k.args))

theorem witness_Updates :
    (let s := onWeight update weight [] (pair 65536 ++ pair 1024 ++ table)
     let f := (s.began 0 update).checkUpdate 0 queue.ctx update
     s.starting 0 1 0 6 == some (update, queue) && (s.ptn 0).updates.isEmpty && s.flips.isEmpty && s.poison.isEmpty && f.status == 0 &&
       leAt f.bytes 0 8 == 1 && Tab.get? (s.ptn 0).objs 1 == some weight && (weight.slot 0).readers != 65535) = true ∧
    (let s := onWeight update weight [] []
     s.starting 0 1 0 6 == some (update, queue) && ((s.began 0 update).checkUpdate 0 queue.ctx update).status != 0) = true ∧
    ([0, 3].all (fun n =>
     let o : MemObj := { weight with slots := [⟨.settled, 0, false, 0⟩, ⟨.settled, 0, false, n⟩] }
     let u := running .draining 1 0 1
     let s := onWeight (updating .running) o [u] []
     s.upd? ⟨0, 1, 0⟩ == some u && s.cmd? ⟨0, 1, 0⟩ == some (updating .running) && Tab.get? (s.ptn 0).objs 1 == some o &&
       !(s.ptn 0).halted && s.ptns.all (fun p => p.2.updates.all (fun z => z.cid.ptn == p.1)) &&
       s.coresFree 0 1 u.ctx 1 (tbSide (updArgs (updating .running).args).table != 0))) = true ∧
    (let k := updating .running
     let u := running .computed 1 0 1
     let s := onWeight k weight [u] []
     s.upd? ⟨0, 1, 0⟩ == some u && s.cmd? ⟨0, 1, 0⟩ == some k && allIn u k && sound s &&
       match s.translate (whoOf 0 u.ctx) (eBody k.raw 16 8 + 0x18) ⟨false, true⟩ with
       | .ok pl => !pl.isRemote
       | .no _ => false) = true ∧
    (let k := { updating .running with raw := entry 6 [(131072, 40, 8)] }
     let u := running .computed 1 0 1
     let s := onWeight k weight [u] []
     s.upd? ⟨0, 1, 0⟩ == some u && s.cmd? ⟨0, 1, 0⟩ == some k && allIn u k &&
       s.translate (whoOf 0 u.ctx) (eBody k.raw 16 8 + 0x18) ⟨false, true⟩ matches .no _) = true ∧
    (let k := updating .running
     let u := running .open_ 2 1 2
     let s := onWeight k weight [u] []
     s.upd? ⟨0, 1, 0⟩ == some u && s.cmd? ⟨0, 1, 0⟩ == some k && !allIn u k) = true := by
  refine ⟨by decide +kernel, by decide +kernel, by decide +kernel, by decide +kernel, by decide +kernel, by decide +kernel⟩

/-- A table of two state objects with V 1. -/
def table2 : List Byte := blob 256 [(2 + 1 * 2 ^ 3, 0, 4), (1, 0x5C, 4)]

/-- A PRECOND_ROOT of two blocks, and partition 0 with it, its engines held by it or not. -/
def rooting (st : Stage) : Cmd := { ready 7 [(2, 44, 4)] [] with stage := st }
def roots (st : Stage) (rs : List RootJob) : State :=
  { runWith (rooting st) (fun x => { x with roots := rs }) with
    cores := (List.range 2).map (fun p => (p, { Core.reset with
      running := true, work := { Work.reset with engine := { Engine.reset with holder := if rs = [] then .nobody else .command ⟨0, 1, 0⟩ } } })) }

theorem witness_UpdateArithmetic :
    (tbF table2 0 == 0 && tbF table2 1 == 1 && tbf table2 6 6 == 0 && tbV table2 == 1) = true ∧ (0 : Nat) < 3 ∧
    (let s := roots .ready []
     s.starting 0 1 0 7 == some (rooting .ready, queue) && (s.ptn 0).roots.isEmpty && !(s.ptn 0).halted && rootBlocks (rooting .ready).raw == 2) = true ∧
    (let r : RootJob := ⟨⟨0, 1, 0⟩, ⟨1, 0⟩, 1, 1, 0⟩
     let s := roots .running [r]
     s.starting 0 1 0 7 == none && s.cmd? ⟨0, 1, 0⟩ == some (rooting .running) && s.root? ⟨0, 1, 0⟩ == some r && r.failed ≤ r.next &&
       ((s.coresOf 0).take 2).all (fun p => (s.work p).engine.holder == .command ⟨0, 1, 0⟩)) = true ∧
    (∀ r ∈ ([[0, 0], [0, 0]] : Mat), ∀ v ∈ r, v = 0) := by
  refine ⟨by decide +kernel, by decide, by decide +kernel, by decide +kernel, by decide⟩

/-- A FIX of no objects: to host memory at 4,096, or to the partner. -/
def fix (host : Nat) : Cmd := ready 8 [(host * 2 ^ 8, 32, 4), (4096, 40, 8)] []

/-- The same where partition 0's partner is another package of the torus. -/
def fixing (host : Nat) (bearing : DWord) : State :=
  let s := run (fix host)
  (s.setReg Reg.nvBearing bearing).setReg (Reg.fixPartner 0) (1 + 2 ^ 16)

theorem witness_Fixes :
    ([(0, 0), (1, 0), (0, 2 ^ 24 + 2 ^ 12)].all (fun e =>
      let k := fix e.1
      let s := fixing e.1 (BitVec.ofNat 64 e.2)
      let f := (s.began 0 k).fixStream 0 queue.ctx { k with stage := .running, startSeq := s.dealer.seq + 1 }
      s.starting 0 1 0 8 == some (k, queue) && s.flips.isEmpty && s.poison.isEmpty && sound s && f.s.cmd? ⟨0, 1, 0⟩ == (s.began 0 k).cmd? ⟨0, 1, 0⟩ &&
        sound f.s && (f.s.ptn 0).fixRuns.isEmpty && f.status == 0 && fixHost k.raw == (e.1 == 1) &&
        f.s.namesPkg (f.s.partner 0).1 == (e.2 != 0))) = true ∧
    (let k := { fix 1 with args := natLe 4 (3 * 2 ^ 28), raw := entry 8 [(2 ^ 8 + 1, 32, 4), (4096, 40, 8)] }
     let s := runWith k (fun x => { x with objs := [(0, { obj with slots := [⟨.unsettled, 0, false, 0⟩] })] })
     let f := (s.began 0 k).fixStream 0 queue.ctx { k with stage := .running, startSeq := s.dealer.seq + 1 }
     s.starting 0 1 0 8 == some (k, queue) && s.flips.isEmpty && s.poison.isEmpty && sound s && f.status != 0) = true ∧
    (let s := onWeight (ready 6 [] []) weight [] []
     Tab.get? (s.ptn 0).objs (hIndex (3 * 2 ^ 28 + 1)) = some weight ∧ 0 < weight.slots.length) := by
  refine ⟨by decide +kernel, by decide +kernel, by decide⟩

theorem witness_CommandsRetire :
    (let k := cmd 1 .running (entry 9 [])
     let s := run k
     s.cmd? ⟨0, 1, 0⟩ == some k && s.queue? 0 1 == some queue && !s.mayRetire 0 queue k && sound s) = true ∧
    (let k := { cmd 1 .ended (entry 9 []) with status := 0x0107, sig := [0] }
     let f : Fence := ⟨⟨1, 0⟩, 0, false, false, 1, [], 0, false⟩
     let s := runWith k (fun x => { x with fences := [(0, f)] })
     s.cmd? ⟨0, 1, 0⟩ == some k && s.queue? 0 1 == some queue && s.mayRetire 0 queue k && sound s && (s.disp? ⟨0, 1, 0⟩).isNone &&
       (s.move? ⟨0, 1, 0⟩).isNone && s.cores.isEmpty && (s.results 0 k).1 < 2 ^ 16 && queue.held.isEmpty && queue.hasRoom &&
       !queue.revoked && queue.dying == 0 && s.ctxs.all (fun c => c.2.torn == 0) && Tab.get? (s.ptn 0).fences 0 == some f &&
       s.ptns.all (fun p => p.2.objs.all (fun o => o.2.dying == 0))) = true ∧
    (let k := cmd 1 .running (entry 2 [])
     let d := { disp with ended := 4 }
     let s := runWith k (fun x => { x with disps := [d] })
     s.cmd? ⟨0, 1, 0⟩ == some k && leAt k.raw 0 1 == 2 && s.disp? ⟨0, 1, 0⟩ == some d && d.ended == d.blocks) = true := by
  refine ⟨by decide +kernel, by decide +kernel, by decide +kernel⟩

/-- A request of the admin queue, of opcode op, ready to start. -/
def request (op : Nat) (body : List (Nat × Nat × Nat)) : Cmd := cmd 0 .ready (entry op body)

/-- Partition 0 with that request, queue 1 stopped, fence 0 and a weight object 1. -/
def admin (op : Nat) (body : List (Nat × Nat × Nat)) : State :=
  let s := runWith (request op body) (fun x => { x with
    queues := [(0, queue), (1, { queue with stopped := true })], objs := [(0, obj), (1, weight)], progs := [(0, prog [])]
    fences := [(0, ⟨⟨1, 0⟩, 0, false, false, 0, [], 0, false⟩)] })
  s

/-- Whether it starts, and is refused by the present state or not. -/
def asks (op : Nat) (body : List (Nat × Nat × Nat)) (refused : Bool) : Bool :=
  let s := admin op body
  s.starting 0 0 0 op == some (request op body, queue) && ((s.requestState 0 (request op body).raw == 0) != refused)

theorem witness_CreationRequests :
    (asks 0xE2 [(64, 48, 8)] true && asks 0xE3 [] true && asks 0xE4 [] true && asks 0xEA [(3 * 2 ^ 28 + 9, 24, 4)] true &&
      asks 0xEA [(3 * 2 ^ 28 + 1, 24, 4), (2, 28, 4)] true) = true ∧
    (asks 0xE0 [] false && asks 0xE2 [(128, 48, 8)] false && asks 0xE5 [] false && asks 0xE8 [] false) = true := by
  refine ⟨by decide +kernel, by decide +kernel⟩

theorem witness_EndingRequests :
    (asks 0xE1 [(1 + 2 ^ 28, 24, 4)] false && asks 0xE3 [(1 + 2 * 2 ^ 28, 24, 4)] false && asks 0xE4 [(1, 24, 4)] false &&
      asks 0xE6 [(5 * 2 ^ 28, 24, 4)] false && asks 0xE7 [(5 * 2 ^ 28, 24, 4)] false && asks 0xE9 [(3 * 2 ^ 28, 24, 4)] false && asks 0xE9 [(4 * 2 ^ 28, 24, 4)] false &&
      asks 0xEA [(3 * 2 ^ 28 + 1, 24, 4), (1, 28, 4)] false && asks 0xEB [(1 + 2 ^ 28, 24, 4)] false) = true ∧
    (let r := (request 0xE1 [(1 + 2 ^ 28, 24, 4)]).raw
     ((admin 0xE1 [(1 + 2 ^ 28, 24, 4)]).ctx? (ctxNamed r)).isSome) = true ∧
    (∀ t ∈ [0, 1], ∀ q ∈ [0, 1],
      let s := { run (cmd q .running (entry 9 [])) with ctxs := [(1, { ctx with torn := t })] }
      (Tab.get? s.ctxs 1 == some { ctx with torn := t } && s.queue? 0 1 == some queue) = true) := by
  refine ⟨by decide +kernel, by decide +kernel, by decide +kernel⟩

/-- Port 0 of package 0 of a torus of 2 x 1 x 1 packages, in a state. -/
def porting (x : Port) : State := (host.setReg Reg.nvBearing (BitVec.ofNat 64 (2 ^ 24 + 2 ^ 12))).setPort 0 x

/-- A port that is up over 8 lanes with credit. -/
def up : Port := { State.reset.port 0 with state := 2, width := 3, credits := [(0, 192), (1, 192), (2, 192), (3, 192)] }

theorem witness_PortTraining :
    (let s := porting { up with state := 1 }
     s.portMayTrain 0 && (s.port 0).state == 1 && s.ext 0 == 1 && s.ext 1 == 0 && s.ext 2 == 0 && s.pkgNo == 0 && s.maxw 0 == 3 &&
       (coord 0 0 + 1) % 2 == 1 && coord 0 1 == 0 && coord 0 2 == 0) = true ∧
    ((porting { up with state := 0 }).portMayTrain 0 && ((porting { up with state := 0 }).port 0).state == 0) = true ∧
    ([2, 3].all (fun st => [0, 0xFE].all (fun (x : BitVec 8) => let p := { up with state := st, excluded := x }
      (porting p).port 0 == p && ((List.range 8).any (fun i => i != 0 && !x.getLsbD i)) == (x == 0)))) = true := by
  refine ⟨by decide +kernel, by decide +kernel, by decide +kernel⟩

/-- A packet of package 1 for package 0, its context 1 and job 7, of a type, at an address. -/
def packet (type addr : Nat) (payload : List Byte) : Packet :=
  ⟨type, 0, false, 0, 1, 7, 0, 0, 0, 1, 0, 1, 0, 200, 0, 0, addr, 3, 0, 0, payload⟩

/-- Package 0 of that torus with job 7 for its context, having received packets, sealed, on port 0. -/
def served (l : List Packet) : State :=
  let s := porting up
  { s with
    ctxs := [(1, { ctx with job := 7 })]
    links := { s.links with inbox := l.map (fun p => ⟨0, pktSeal p⟩) } }

/-- A frame with one packet, its fields read as R411 says. -/
def frame (crcOk : Bool) (seq : Nat) : Frame := ⟨0, 0, crcOk, seq, 0, false, 0, 1, false, [packet 1 0 []]⟩

theorem witness_FramesReceived :
    ([(0, 0, 0, 0), (2, 7, 0, 0), (0, 0, 7, 1), (64, 0, 0, 0)].all (fun (e : Nat × Nat × Nat × Nat) =>
      let x : Port := { up with
        replay := (List.range e.1).map (fun i => ⟨i, 0, false, 0, 0, 0, false, []⟩), naks := e.2.1, rxNaks := e.2.2.1, rxNakSeq := e.2.2.2 }
      let s := porting x
      (s.port 0).state == 2 && s.dealer.armed.isEmpty && !(s.port 0).draining && (s.waitingFor 0).isEmpty && (s.port 0).rxSeq == 0 &&
        (s.port 0).nakSeq == 0 && ((frame true 0).ack + 1) % 65536 == 1)) = true ∧
    ((frame true 0).seq = 0 ∧ (frame true 0).crcOk = true ∧ (frame true 0).undecoded = 0 ∧ (frame true 0).down = false ∧
      (frame true 0).nak = false) ∧ { frame true 0 with nak := true }.nak = true ∧ (frame true 5).seq ≠ 0 ∧ (frame false 0).crcOk = false := by
  refine ⟨by decide +kernel, by decide, by decide, by decide, by decide⟩

theorem witness_PacketRouting :
    (let s := served []
     let p := { packet 1 0 [] with dest := 1 }
     (List.range 3).all (fun j => coord p.dest j ≤ s.ext j && coord s.pkgNo j ≤ s.ext j) && coord p.dest 0 != coord s.pkgNo 0 &&
       (List.range 16).all (fun m => s.field (Reg.ptnSeal m) 0 0 == 0) && s.portUp (6 * (p.die % 4) + 0)) = true ∧
    ([0, 31].all (fun h =>
      let s := served [{ packet 1 0 [] with dest := 1, hops := h }]
      (s.links.inbox[0]?).any (fun r => r.packet.dest != s.pkgNo && r.packet.hops == h))) = true ∧
    ([1, 5].all (fun d =>
      let s := served []
      let t := { s with links := { s.links with notices := [{ packet 7 0 [] with dest := d }] } }
      (t.links.notices[0]?).any (fun p => t.namesPkg p.dest == (d == 1) &&
        (d != 1 || (t.direction p.dest).any (fun e => (t.portFor p.die e p.srcPtn).isSome))))) = true := by
  refine ⟨by decide +kernel, by decide +kernel, by decide +kernel⟩

/-- Whether a packet received translates, or does not. -/
def lands (p : Packet) (a : Acc) (ok : Bool) : Bool :=
  let s := served [p]
  let q := pktSeal p
  (s.links.inbox[0]?) == some ⟨0, q⟩ && q.dest == s.pkgNo && q.e2eCrc == crc32 (pktCrcBytes q) && s.accepts q && s.flips.isEmpty &&
    s.poison.isEmpty && sound s && (s.ptn 0).opened.isEmpty &&
    match s.translateLocal (whoOf q.destPtn ⟨q.destCtx, q.destGen⟩) q.addr a with
      | .ok pl => ok && !pl.isRemote
      | .no st => !ok && st != 0

/-- A push of 4 bytes into the slot of the weight object at address 65,536 told to package 1, its update at a stage. -/
def pushed (stage : UpdStage) : State :=
  let s := onWeight (updating .running) weight [{ running stage 2 1 2 with gen := 4 }] []
  let p := packet 3 65536 [1, 2, 3, 4]
  { (s.setReg Reg.nvBearing (BitVec.ofNat 64 (2 ^ 24 + 2 ^ 12))) with
    ctxs := Tab.mapVals (fun (c : Ctx) => { c with job := 7 }) s.ctxs
    ptns := Tab.mapVals (fun (x : Ptn) => { x with opened := [⟨1, 5, 1, 0⟩] }) s.ptns
    links := { s.links with inbox := [⟨0, pktSeal p⟩] } }

theorem witness_RequestsServed :
    (lands (packet 1 0 []) ⟨true, false⟩ true && lands (packet 1 65536 []) ⟨true, false⟩ false &&
      lands (packet 3 8 [1, 2, 3, 4]) ⟨false, true⟩ true && lands (packet 3 65536 [1, 2, 3, 4]) ⟨false, true⟩ false &&
      lands { packet 5 8 [1, 2, 3, 4, 0, 0, 0, 0] with op := 0 } ⟨true, true⟩ true) = true ∧
    ([UpdStage.open_, .draining].all (fun st =>
      let s := pushed st
      let q := pktSeal (packet 3 65536 [1, 2, 3, 4])
      let c : CtxId := ⟨q.destCtx, q.destGen⟩
      s.links.inbox[0]? == some ⟨0, q⟩ && q.dest == s.pkgNo && q.e2eCrc == crc32 (pktCrcBytes q) && s.accepts q && s.flips.isEmpty &&
        s.poison.isEmpty && sound s && s.vaObj c (s.pkgNo * 2 ^ 52 + q.addr) == some 1 && (s.ptn 0).opened == [⟨1, 5, q.src, q.srcPtn⟩] &&
        (s.ptn 0).updates.all (fun u => u.obj == 1 && u.ctx == c && u.gen + 1 == 5 && u.cid.ptn == 0 && (u.stage == .open_) == (st == .open_)))) = true ∧
    ((served []).links.inbox[0]? = none) ∧
    (let s := served []
     let t := { s with links := { s.links with inbox := [⟨0, { packet 1 0 [] with e2eCrc := 1 }⟩] } }
     (t.links.inbox[0]?).any (fun r => r.packet.e2eCrc != crc32 (pktCrcBytes r.packet))) = true ∧
    (pktSeal (packet 1 0 [])).e2eCrc = crc32 (pktCrcBytes (pktSeal (packet 1 0 []))) ∧
    (let p := pktSeal { packet 1 0 [] with destCtx := 2 }
     (p.job != 0 && (Tab.get? (served [p]).ctxs p.destCtx).isNone) = true) ∧
    (let p := pktSeal { packet 1 0 [] with job := 0 }
     (p.job == 0 && !(served [p]).servesFix p) = true) := by
  refine ⟨by decide +kernel, by decide +kernel, by decide, by decide +kernel, by decide +kernel, by decide +kernel, by decide +kernel⟩

/-- Core 0 waiting for package 1's answer to a load of a group of the dispatch, with epoch 0. -/
def awaiting (act : FarAct) : State :=
  let s := coreWith (tw 0x65 0) group (fun k => { k with slots := [(0, ⟨0, 0, 0, ⟨1, 0⟩, 2 ^ 52, .remote 1 0, act, 0, 1, []⟩)] })
  s

/-- A response of package 1 for that slot. -/
def response (type epoch : Nat) (payload : List Byte) : Packet :=
  { packet type 0 payload with tag := epoch * 2 ^ 14 }

/-- The same with a response received. -/
def answered (act : FarAct) (p : Packet) : State :=
  let s := awaiting act
  { s with links := { s.links with inbox := [⟨0, pktSeal p⟩] } }

/-- Whether the slot awaits that response. -/
def reaches (act : FarAct) (p : Packet) (late : Bool) : Bool :=
  let s := answered act p
  let q := pktSeal p
  let epoch : Nat := Tab.get (s.core 0).epochs 0 0
  (s.links.inbox[0]?) == some ⟨0, q⟩ && q.dest == s.pkgNo && q.e2eCrc == crc32 (pktCrcBytes q) && q.job != 0 && s.fills.isEmpty &&
    s.links.notices.isEmpty && q.tag % 256 == 0 && q.tag < 65536 && (Tab.get? (s.work 0).slots 0).any (fun f =>
      f.place == .remote q.src 0 && !f.act.isMover && (late || f.act.answerType == q.type)) && (q.tag / 2 ^ 14 != epoch) == late

/-- Package 0 with a fence of its context 1, in a state, having received packets. -/
def fenced (signalled : Bool) (l : List Packet) : State :=
  let s := served l
  { s with ptns := [(0, { s.ptn 0 with fences := [(0, ⟨⟨1, 0⟩, 0, signalled, false, 0, [], 0, false⟩)] })] }

/-- Core 0 with a copy in progress whose line a hold fetches. -/
def filling : State := { chanState ⟨[], [copyRun]⟩ [] with fills := [⟨0, 0, 1, 0, ⟨1, 0⟩, 4096, false, false, []⟩] }

theorem witness_ResponsesAndTimeouts :
    (reaches (.load 1 0 4 false false []) (response 2 0 [1, 2, 3, 4]) false &&
      reaches (.load 1 0 4 false false []) { response 2 0 [] with status := 2 } false &&
      reaches (.load 1 0 4 false false []) (response 2 1 [1, 2, 3, 4]) true &&
      reaches (.store 4 7 false) (response 4 0 []) false && reaches (.atom 0 1 0 2 0 false) (response 6 0 [1, 2, 3, 4]) false) = true ∧
    ([(5 * 2 ^ 28, false), (5 * 2 ^ 28, true), (5 * 2 ^ 28 + 3, false)].all (fun e =>
      let p := packet 7 0 (natLe 4 e.1 ++ natLe 4 0 ++ natLe 4 9)
      let s := fenced e.2 [p]
      let q := pktSeal p
      (s.links.inbox[0]?) == some ⟨0, q⟩ && s.accepts q && (s.fenceState 0 e.1).1 == (e.2 || e.1 != 5 * 2 ^ 28) &&
        (fenceKind e.1 && s.validHandle 0 s.dealer.seq e.1 && (s.fenceCtx 0 e.1).any (fun c => s.jobOf c == q.job)) ==
          (e.1 == 5 * 2 ^ 28))) = true ∧
    ([{ packet 7 0 (natLe 12 0) with op := 1 }, packet 8 0 (natLe 20 0)].all (fun p =>
      let s := fenced false [p]
      (s.links.inbox[0]?) == some ⟨0, pktSeal p⟩ && s.accepts (pktSeal p))) = true ∧ (∀ m, ((fenced false []).ptn m).updates = []) ∧
    (let s := awaiting (.load 1 0 4 false false [])
     (Tab.get? (s.work 0).slots 0).any (fun f => f.place == .remote 1 0 && !f.act.isMover) && (s.work 0).farWait.isEmpty &&
       (Tab.get? (s.work 0).blocks 0).any (fun b => s.disp? b.cid == some disp) && disp.status == 0) = true ∧
    (let k := cmd 1 .waiting (waits (5 * 2 ^ 28))
     let w : RemoteWait := ⟨⟨0, 1, 0⟩, 0, 1, 0, 5, 3, false, false, false, false⟩
     let s := runWith k (fun x => { x with remoteWaits := [w] })
     !w.acked && !w.signalled && s.cmd? ⟨0, 1, 0⟩ == some k && (s.ptn 0).remoteWaits.contains w) = true ∧
    (let s := filling
     let f : Fill := ⟨0, 0, 1, 0, ⟨1, 0⟩, 4096, false, false, []⟩
     s.fills == [f] && (((s.work 0).chan f.ch).runs.find? (fun x => x.entry.stamp == f.copy)).any (fun r =>
       (Tab.get? (s.work 0).blocks r.entry.block).any (fun b => s.disp? b.cid == some disp)) && disp.status == 0) = true ∧
    (let s := runWith (cmd 1 .read (entry 9 [])) (fun x => { x with restores := [⟨⟨1, 0⟩, 0, [], ⟨1, 0⟩, []⟩] })
     (s.ptn 0).fixRuns.isEmpty && !(s.ptn 0).restores.isEmpty) = true ∧
    (let k := cmd 1 .running (entry 8 [])
     let f : FixRun := ⟨⟨0, 1, 0⟩, ⟨1, 0⟩, 0, 4096, 16, 0⟩
     let s := runWith k (fun x => { x with fixRuns := [f] })
     s.cmd? ⟨0, 1, 0⟩ == some k && (s.ptn 0).fixRuns.contains f) = true := by
  refine ⟨by decide +kernel, by decide +kernel, by decide +kernel, ?_, by decide +kernel, by decide +kernel, by decide +kernel,
    by decide +kernel, by decide +kernel⟩
  intro m
  rcases m with _ | m
  · rfl
  · simp [fenced, State.ptn, Tab.get, Tab.get?, Ptn.reset]

/-- Channel 0 in a state, at trial rate 4. -/
def channel (st trial : Nat) : State := host.setChan 0 { Chan.reset with state := st, trial := trial }

theorem witness_MemoryChannels :
    ([(1, 4), (1, 0), (3, 4), (3, 0), (2, 4), (0, 4), (5, 4)].all (fun e =>
      ((channel e.1 e.2).chan 0).state == e.1 && ((channel e.1 e.2).chan 0).trial == e.2)) = true ∧
    (let u := unitOf (unitPlace 0 5)
     [([], [], 0, false), ([], [(u, 1)], 1, false), ([], [(u, 2)], 2, true), ([u], [], 0, true)].all
      (fun (e : List Nat × Table Nat × Nat × Bool) =>
       let s := { channel 2 4 with poison := e.1, flips := e.2.1 }
       (s.chan 0).state == 2 && Tab.get s.flips u 0 == e.2.2.1 && (s.poison.contains u || Tab.get s.flips u 0 == 2) == e.2.2.2)) = true ∧
    State.reset.migr = [] ∧
    ([[0], [0, 8]].all (fun fs =>
      let s := { host with
        migr := [⟨0, 0, fs, 2, 1, 5⟩]
        ptns := [(0, { Ptn.reset with ready := true, deal := [0, 1], objs := [(0, { obj with host := false, bases := [0] })] })] }
      let x := s.ptn 0
      let used := rangeFrames (s.usedRanges 0)
      sound s && x.frame? 0 == some (0, 0) && used.contains 0 && 1 < x.frameCount && s.frameFree 0 0 used 1 &&
        s.ptnOfChan 0 == some 0)) = true := by
  refine ⟨by decide +kernel, by decide +kernel, by decide, by decide +kernel⟩

/-- The same with partition 0's PTN_CTL.OPEN set, and agent 1 in a role session, 0 for none. -/
def sitting (s : State) (role : Nat) : State :=
  let t := s.setReg (Reg.ptnCtl 0) 1
  { t with meter := { t.meter with sessions := if role = 0 then [] else [(1, ⟨role, [5]⟩)] } }

/-- A write by agent 1 in a role, at work on a register, with a condition on what it comes to. -/
def acting (s : State) (role o v : Nat) (f : Judged → Bool) : Bool :=
  let t := sitting s role
  match regForm o with
  | none => false
  | some g =>
    let j := judge g (t.roleOf 1) (t.reg o) (if g.wide then BitVec.ofNat 64 v else BitVec.ofNat 64 ((BitVec.ofNat 64 v).toNat % 2 ^ 32))
    t.reaches 1 && o % 8 == 0 && !t.regWaits o && (match ptnOfOffset o with | none => true | some n => o == Reg.ptnCtl n || t.isOpen n) &&
      !j.denied && f j

theorem acting_spec {s : State} {role o v : Nat} {f : Judged → Bool} (h : acting s role o v f = true) :
    ∃ j, (sitting s role).performs o ⟨1, 8, 0, BitVec.ofNat 64 v⟩ j ∧ f j = true := by
  unfold acting at h
  simp only at h
  split at h
  · cases h
  · rename_i g hg
    simp only [Bool.and_eq_true, beq_iff_eq, Bool.not_eq_true'] at h
    refine ⟨_, ⟨.inl rfl, h.1.1.1.1.1, rfl, rfl, h.1.1.1.1.2, h.1.1.1.2, ?_, h.1.2, g, hg, rfl⟩, h.2⟩
    intro n hn
    have h2 := h.1.1.2
    rw [hn] at h2
    simpa using h2

theorem witness_WritesJudged :
    (regForm Reg.helmLimit).isSome = true ∧
    (let s := sitting { host with setup := { host.setup with behind := [⟨Reg.helmLimit, ⟨1, 8, 0, 0⟩, 0⟩] } } 1
     s.reaches 1 && s.regWaits Reg.helmLimit) = true ∧
    (let s := sitting host 1
     s.reaches 1 && (regForm 0x500).isNone && !s.regWaits 0x500 && (regForm Reg.memCfg).isSome && !s.regWaits Reg.memCfg &&
       ptnOfOffset (Reg.passSched 3) == some 3 && Reg.passSched 3 != Reg.ptnCtl 3 && !s.isOpen 3 && (regForm (Reg.passSched 3)).isSome) = true ∧
    ([0, 2].all (fun role =>
      let s := sitting host role
      s.isOpen 0 && (regForm (Reg.passSched 0)).any (fun f => (judge f (s.roleOf 1) (s.reg (Reg.passSched 0)) 2).denied) &&
        s.roleOf 1 == role)) = true := by
  refine ⟨by decide, by decide +kernel, by decide +kernel, by decide +kernel⟩

/-- The same with no context. -/
def bare : State := { host with ctxs := [], ptns := [(0, { Ptn.reset with ready := true })] }

theorem witness_LoggedWrites :
    acting host 2 Reg.helmLimit (500 + 2 ^ 12) (fun j => j.rw && fld j.new_ 11 0 == 500) = true ∧
    acting host 2 Reg.helmLimit 100 (fun j => j.rw && fld j.new_ 11 0 != fld j.old 11 0 && fld j.new_ 11 0 < 400) = true ∧
    acting { host with links := { host.links with ports := [(0, up)] } } 2 (Reg.holdMode 0) 3 (fun j => j.rw) = true ∧
    acting host 2 (Reg.holdMode 0) 2 (fun j => j.rw && fld j.new_ 0 0 == 0 && fld j.new_ 3 1 != 0) = true ∧
    acting host 2 Reg.nvBearing (2 ^ 24 + 2 ^ 12) (fun j => j.rw && (List.range 24).all (fun m => ((sitting host 2).port m).state < 2)) = true ∧
    acting host 2 Reg.nvBearing (2 ^ 24 + 1) (fun j => j.rw) = true ∧
    acting host 1 Reg.ptnLayout 1 (fun j => j.rw && (sitting host 1).isOpen 0) = true ∧
    acting { host with ptns := [] } 1 Reg.ptnLayout 1 (fun j => j.rw && (List.range 16).all (fun m => !(sitting { host with ptns := [] } 1).isOpen m)) = true ∧
    acting (bare.setReg (Reg.ptnCtl 0) 0) 1 (Reg.ptnCtl 1) 1 (fun j => j.rw && (sitting bare 1).ptnCount ≤ 1) = true ∧
    acting (bare.setReg Reg.ptnLayout 1) 1 (Reg.ptnCtl 1) 1 (fun j => j.rw && fld j.new_ 0 0 == 1 &&
      !((sitting (bare.setReg Reg.ptnLayout 1) 1).chansOf 1).isEmpty) = true ∧
    acting bare 1 (Reg.ptnCtl 0) 0 (fun j => j.rw && fld j.new_ 0 0 == 0) = true ∧
    acting host 1 (Reg.ptnCtl 0) 0 (fun j => j.rw && fld j.new_ 0 0 == 0 && (sitting host 1).ctxs.any (fun e => e.2.ptn == 0)) = true ∧
    acting host 1 (Reg.ptnSeal 0) (1 + 2 * 3 + 32 * 3 + 512 * 600 + 2 ^ 19 * 50 + 2 ^ 27 * 3) (fun j => j.rw && !(sitting host 1).sealBad 0 j.new_) = true ∧
    acting host 1 (Reg.ptnSeal 0) 1 (fun j => j.rw && (sitting host 1).sealBad 0 j.new_) = true ∧
    acting host 1 (Reg.nvPortCtl 3) 13 (fun j => fld j.new_ 0 0 != fld j.old 0 0) = true ∧
    acting host 1 (Reg.nvPortCtl 3) 14 (fun j => j.acts 1 && fld j.new_ 0 0 == 0 && fld j.old 0 0 == 0) = true ∧
    acting host 1 Reg.nvDetour (3 + 2 ^ 12 + 2 ^ 15 + 2 ^ 16) (fun j => j.acts 16) = true ∧
    acting host 1 Reg.nvDetour 3 (fun j => (sitting host 1).roleOf 1 == 1 && !(BitVec.ofNat 64 3).getLsbD 16 && j.new_ != j.old) = true ∧
    acting host 2 Reg.nvDetour 0 (fun _ => (sitting host 2).roleOf 1 != 1) = true ∧
    acting host 3 (Reg.mtrCal 2) (5 + 7 * 2 ^ 32) (fun j => fld j.new_ 15 0 != fld j.old 15 0 && fld j.new_ 31 16 == fld j.old 31 16) = true ∧
    (let s := coreWith (tw 0x65 0) group (fun k => k)
     acting s 2 (Reg.holdMode 0) 3 (fun j => j.rw && ((sitting s 2).ptn 0).disps.any (·.granted))) = true ∧
    acting host 2 Reg.fltInject (0x16 * 256 + coreUnit 0 * 2 ^ 16 + 2 ^ 48 + 2 ^ 56) (fun j => j.acts 56 &&
      (sitting host 2).mayInject 2 (fld j.new_ 15 0) (fld j.new_ 47 16) (fld j.new_ 55 48)) = true ∧
    acting host 2 Reg.fltInject (2 ^ 56) (fun j => j.acts 56 && !(sitting host 2).mayInject 2 (fld j.new_ 15 0) (fld j.new_ 47 16) (fld j.new_ 55 48)) = true ∧
    acting host 2 Reg.fwCtl 64 (fun j => j.acts 6 && (sitting host 2).pkg.fw.isEmpty) = true ∧
    acting bare 2 Reg.pkgPower 1 (fun j => j.acts 0 && !j.acts 1) = true ∧
    acting host 2 Reg.pkgPower 1 (fun j => j.acts 0 && !j.acts 1 && !(sitting host 2).ctxs.isEmpty) = true ∧
    acting { bare with pkg := { bare.pkg with start := .off } } 2 Reg.pkgPower 2 (fun j => j.acts 1) = true := by
  refine ⟨?_, ?_, ?_, ?_, ?_, ?_, ?_, ?_, ?_, ?_, ?_, ?_, ?_, ?_, ?_, ?_, ?_, ?_, ?_, ?_, ?_, ?_, ?_, ?_, ?_, ?_, ?_⟩ <;> decide +kernel

theorem witness_PartitionWrites :
    acting host 1 (Reg.passSched 0) 3 (fun j => fld j.new_ 1 0 == 3) = true ∧
    acting host 1 (Reg.passSched 0) 1 (fun j => fld j.new_ 1 0 != 3) = true ∧
    acting host 1 (Reg.stashCfg 0) (2 ^ 20) (fun j => (sitting host 1).stashBad 0 j.new_) = true ∧
    acting { host with ptns := [(0, { Ptn.reset with ready := true, deal := [0, 1] })] } 1 (Reg.stashCfg 0) (1 + 2 ^ 20)
      (fun j => !(sitting { host with ptns := [(0, { Ptn.reset with ready := true, deal := [0, 1] })] } 1).stashBad 0 j.new_) = true ∧
    acting host 1 (Reg.holdOwner 0) (2 + 2 ^ 20) (fun j => j.rw && (sitting host 1).ownerBad 0 j.old j.new_) = true ∧
    acting host 1 (Reg.holdOwner 0) (1 + 2 ^ 20) (fun j => j.rw && !(sitting host 1).ownerBad 0 j.old j.new_) = true ∧
    (acting host 1 (Reg.fenceMirror 0) (2 ^ 51) (fun j => j.rw && 76101451776 < fld j.new_ 51 12 * 4096 + 131072) = true ∧
      sound (sitting host 1) = true) ∧
    (let s := { host with ptns := [(0, { Ptn.reset with ready := true, fences := [(3, ⟨⟨1, 0⟩, 0, false, false, 0, [], 0, false⟩)] })] }
     acting s 1 (Reg.fenceMirror 0) (1 + 2 ^ 20) (fun j => j.rw && fld j.new_ 51 12 * 4096 + 131072 ≤ 76101451776 && fld j.new_ 0 0 == 1 &&
       fld j.old 0 0 == 0) = true ∧ sound (sitting s 1) = true) ∧
    acting host 1 (Reg.fixRestore 0) (7 + 2 ^ 13) (fun j => j.acts 13 && (Tab.get? host.ctxs (fld j.new_ 11 0)).isNone) = true ∧
    (let s := run (cmd 1 .running (entry 2 []))
     acting s 1 (Reg.fixRestore 0) (1 + 2 ^ 13) (fun j => j.acts 13 && fld j.new_ 11 0 == 1 && (sitting s 1).ctxRuns 0 ⟨1, 0⟩)) = true ∧
    ([0, 2 ^ 24 + 2 ^ 12].all (fun b =>
      let s := (host.setReg Reg.nvBearing (BitVec.ofNat 64 b)).setReg (Reg.fixPartner 0) (1 + 2 ^ 16)
      acting s 1 (Reg.fixRestore 0) (1 + 2 ^ 13) (fun j => j.acts 13 && !(sitting s 1).ctxRuns 0 ⟨1, 0⟩ && fld j.new_ 12 12 == 0 &&
        fld ((sitting s 1).reg (Reg.fixPartner 0)) 16 16 == 1 &&
        (sitting s 1).namesPkg ((sitting s 1).partner 0).1 == (b != 0)))) = true ∧
    (let s := host.setReg (Reg.adminqCtl 0) (1 + 6 * 2 + 6 * 64)
     acting s 1 (Reg.adminqCtl 0) (1 + 7 * 2 + 6 * 64) (fun j => fld j.old 0 0 == 1 && fld j.new_ 10 1 != fld j.old 10 1)) = true ∧
    (let s := ((bare.setReg (Reg.adminqSq 0) 4096).setReg (Reg.adminqCq 0) 8192).setReg (Reg.adminqDoorbell 0) 128
     acting s 1 (Reg.adminqCtl 0) (1 + 6 * 2 + 6 * 64) (fun j => fld j.old 0 0 == 0 && fld j.new_ 0 0 == 1 && !(s.ptn 0).draining &&
       !(sitting s 1).adminBad 0 j.new_)) = true ∧
    acting bare 1 (Reg.adminqCtl 0) 1 (fun j => fld j.old 0 0 == 0 && fld j.new_ 0 0 == 1 && (sitting bare 1).adminBad 0 j.new_) = true ∧
    (let s := (run (request 0xE0 [])).setReg (Reg.adminqCtl 0) (1 + 6 * 2 + 6 * 64)
     acting s 1 (Reg.adminqCtl 0) (6 * 2 + 6 * 64) (fun j => fld j.old 0 0 == 1 && fld j.new_ 0 0 == 0 && fld j.new_ 10 1 == fld j.old 10 1 &&
       (s.ptn 0).cmds.any (fun k => k.queue == 0))) = true := by
  refine ⟨?_, ?_, ?_, ?_, ?_, ?_, ⟨?_, ?_⟩, ⟨?_, ?_⟩, ?_, ?_, ?_, ?_, ?_, ?_, ?_⟩ <;> decide +kernel

theorem witness_PackageWrites :
    acting host 2 Reg.nvPeer 0 (fun _ => (sitting host 2).roleOf 1 != 1) = true ∧
    acting host 1 Reg.nvPeer (7 + 2 ^ 49) (fun j => (Tab.get? (sitting host 1).ctxs (fld j.new_ 11 0)).isNone) = true ∧
    ([0, 2 ^ 49].all (fun b =>
      let s := { host with ctxs := [(1, { ctx with job := 7, peers := [(2, ⟨3, 4, 5⟩)] })] }
      acting s 1 Reg.nvPeer (1 + 2 * 2 ^ 12 + 2 ^ 48 + b) (fun j => (sitting s 1).roleOf 1 == 1 && (((Tab.get? (sitting s 1).ctxs (fld j.new_ 11 0)).filter
        (fun t => t.torn == 0 && t.job != 0)).bind (fun t => Tab.get? t.peers (fld j.new_ 23 12))).isSome))) = true ∧
    acting host 2 (Reg.memChanCtl 199) 1 (fun j => j.acts 0 && !j.acts 1 && !j.acts 2 && (sitting host 2).retireRefused 199) = true ∧
    ([[], [(0, { obj with host := false, bases := [0] })]].all (fun os =>
      let s := { host with ptns := [(0, { Ptn.reset with ready := true, deal := [0, 1], objs := os })] }
      acting s 2 (Reg.memChanCtl 0) 1 (fun j => j.acts 0 && !j.acts 1 && !j.acts 2 && !(sitting s 2).retireRefused 0 &&
        (sitting s 2).field Reg.mtrStatus 8 8 == 0 && ((sitting s 2).framesUsed 0 0).isEmpty == os.isEmpty))) = true ∧
    ([2, 4, 5].all (fun st => acting (channel st 4) 2 (Reg.memChanCtl 0) 2 (fun j => !j.acts 0 && j.acts 1 && !j.acts 2 &&
      ((sitting (channel st 4) 2).chan 0).state == st))) = true ∧
    acting host 2 (Reg.memChanCtl 0) 4 (fun j => !j.acts 0 && !j.acts 1 && j.acts 2) = true ∧
    acting host 1 Reg.fltRing 3 (fun j => fld j.new_ 4 0 != 0 && fld j.new_ 4 0 < 6) = true ∧
    ([0, 5].all (fun p => acting (host.setReg Reg.fltRingPtr p) 1 Reg.fltRing 6 (fun j => fld j.new_ 4 0 == 6 &&
      host.dealer.kept.isEmpty))) = true ∧
    acting (host.setReg Reg.setupErr (2 ^ 63 + 5)) 1 Reg.setupErr (2 ^ 63) (fun j => fld j.old 63 63 == 1) = true ∧
    acting host 1 Reg.hostPool 9 (fun j => j.rw && host.ptns.any (fun p => p.2.objs.any (fun o => o.2.host))) = true ∧
    acting bare 1 Reg.hostPool (36288 + 2 ^ 20) (fun j => j.rw && 36288 < fld j.new_ 19 0 + fld j.new_ 39 20) = true ∧
    acting bare 1 Reg.hostPool (36287 + 2 ^ 20) (fun j => j.rw && fld j.new_ 19 0 + fld j.new_ 39 20 ≤ 36288) = true ∧
    acting host 2 Reg.memCfg (5 + 8 * 24) (fun j => j.rw && 4 < fld j.new_ 2 0) = true ∧
    acting host 2 Reg.memCfg 4 (fun j => j.rw && fld j.new_ 10 3 == 0) = true ∧
    acting host 2 Reg.memCfg (4 + 8 * 48) (fun j => j.rw && fld j.new_ 2 0 ≤ 4 && fld j.new_ 10 3 != 0) = true := by
  refine ⟨?_, ?_, ?_, ?_, ?_, ?_, ?_, ?_, ?_, ?_, ?_, ?_, ?_, ?_, ?_, ?_⟩ <;> decide +kernel

theorem witness_MailboxesAndCounters :
    ([(0, false, 0), (1, false, 0), (2, false, 0), (3, true, 1), (3, true, 5)].all (fun (e : Nat × Bool × Nat) =>
      let s := host.setMbox 9 ⟨e.1, 5, e.2.1, e.2.2⟩
      s.reaches 1 && s.reaches 3 && !s.reaches 99 && (s.mbox 9).owner == e.1 && (s.mbox 9).full == e.2.1 && (s.mbox 9).dest == e.2.2 &&
        e.1 < 256 && e.2.2 < 256)) = true ∧
    ([(1, 1, 0, 5, 3), (1, 1, 1, 0, 6), (1, 1, 2, 23, 4), (1, 1, 3, 0, 4), (1, 1, 5, 3, 2), (1, 1, 4, 199, 2), (1, 1, 6, 0, 0), (0, 3, 0, 191, 1), (0, 3, 0, 191, 5), (2, 1, 0, 5, 3), (0, 1, 0, 5, 3)].all
      (fun (e : Nat × Nat × Nat × Nat × Nat) =>
        let t := sitting host e.1
        let sel : DWord := BitVec.ofNat 64 (e.2.2.1 + 2 ^ 8 * e.2.2.2.1 + 2 ^ 16 * e.2.2.2.2)
        let s := t.setSetup { t.setup with sel := [(e.2.1, sel)] }
        s.reaches e.2.1 && s.roleOf 1 == e.1 && 0 < s.ptnCount && fld (Tab.get s.setup.sel e.2.1 0) 2 0 == e.2.2.1 &&
          fld (Tab.get s.setup.sel e.2.1 0) 15 8 == e.2.2.2.1 && fld (Tab.get s.setup.sel e.2.1 0) 21 16 == e.2.2.2.2)) = true := by
  refine ⟨by decide +kernel, by decide +kernel⟩

/-- A meter request of agent 1 in a role, its block at 64 with an OP and arguments, with an opening kept. -/
def request_ (role op : Nat) (args : List Nat) : State :=
  let t := sitting host role
  let block := BitVec.ofNat 8 op :: (List.replicate 7 0 ++ args.flatMap (natLe 8))
  { t with
    hmem := (t.hostWrite 64 block).hmem
    meter := { t.meter with requests := [⟨1, 0, 64⟩], openings := [(1, ⟨List.replicate 32 1, 1, 5, [5]⟩)] } }

/-- Whether that request is asked, with a condition on its arguments. -/
def asked (role op : Nat) (args : List Nat) (f : State → Bool) : Bool :=
  let s := request_ role op args
  let m : MtrReq := ⟨1, 0, 64⟩
  sound s && s.meter.requests == [m] && s.hostRead 64 8 == BitVec.ofNat 8 op :: List.replicate 7 0 && op < 256 &&
    !s.setup.waiting.any (fun p => p.change.ofRequest) && s.roleOf 1 == role && f s &&
    (args.zipIdx.all (fun e => s.arg m e.2 == e.1))

theorem asked_asks {role op : Nat} {args : List Nat} {f : State → Bool} (h : asked role op args f = true) :
    (request_ role op args).asks op ⟨1, 0, 64⟩ [] ∧ (request_ role op args).memWf ∧ f (request_ role op args) = true := by
  simp only [asked, Bool.and_eq_true, beq_iff_eq, decide_eq_true_eq, Bool.not_eq_true'] at h
  obtain ⟨⟨⟨⟨⟨⟨⟨h1, h2⟩, h3⟩, h4⟩, h5⟩, h6⟩, h7⟩, h8⟩ := h
  exact ⟨⟨h2, by decide, h3, h4, h5⟩, sound_memWf h1, h7⟩

/-- A good chain, signature or image depends on keys that have no value in Lean: the statements say what follows from each
outcome of the check, and the conditions before it are shown here. -/
theorem witness_RoleSessions :
    (asked 0 1 [4096, 2] (fun _ => true) && asked 1 2 [4096] (fun s => (Tab.get? s.meter.openings 1).isSome) &&
      [1, 2, 3].all (fun r => asked r 3 [] (fun _ => true))) = true ∧
    (let s := request_ 1 2 []
     let t := { s with meter := { s.meter with openings := [] } }
     (Tab.get? t.meter.openings 1).isNone && t.meter.requests == [⟨1, 0, 64⟩]) = true ∧
    State.reset.meter.requests = [] ∧
    ([0, 10, 3, 5, 6, 7, 8, 9].all (fun op => asked 0 op [] (fun _ => true))) = true ∧
    (asked 2 5 [] (fun _ => true) && asked 1 6 [] (fun _ => true) && asked 3 8 [] (fun _ => true) && asked 1 9 [] (fun _ => true)) = true := by
  refine ⟨by decide +kernel, by decide +kernel, by decide, by decide +kernel, by decide +kernel⟩

theorem witness_MeterRequests :
    (asked 0 4 [4096, 8192] (fun _ => true) && asked 1 5 [2 ^ 28 + 1, 0] (fun s => (Tab.get? s.ctxs 1).any (fun c => c.gen == 0 && c.torn == 0)) &&
      asked 1 5 [2 ^ 28 + 1, 3 * 2 ^ 28] (fun s => s.validHandle 0 (s.dealer.seq + 1) (3 * 2 ^ 28) &&
        (s.obj? 0 (3 * 2 ^ 28)).any (fun o => o.host && o.ctx == ⟨1, 0⟩)) &&
      asked 1 5 [2 ^ 28 + 1, 5 * 2 ^ 28] (fun _ => true)) = true ∧
    (asked 3 6 [77, 9] (fun s => !s.meter.revoked.contains 77 && s.meter.revoked.length < 256) &&
      asked 2 6 [77, 5] (fun s => s.credOf 1 == 5) && asked 2 6 [77, 6] (fun s => s.credOf 1 != 6)) = true ∧
    (let s := request_ 3 6 [77]
     let t := { s with meter := { s.meter with revoked := List.range 77 ++ (List.range 179).map (· + 78) } }
     !t.meter.revoked.contains 77 && t.meter.revoked.length == 256) = true ∧
    (asked 1 7 [1, 4096, 2] (fun s => (s.meter.lrLog ++ s.meter.genLog).all (fun e => e.bytes.length == 1024)) &&
      asked 1 8 [0] (fun s => s.meterChan 0 == 0 && s.meterChan 1 == 0) && asked 3 9 [4096] (fun s => s.meter.sealNo == 0)) = true ∧
    (let s := (request_ 1 8 [1]).setField Reg.mtrStatus 1 0 1
     s.meterChan 0 != 0 && s.meter.requests == [⟨1, 0, 64⟩]) = true := by
  refine ⟨by decide +kernel, by decide +kernel, by decide +kernel, by decide +kernel, by decide +kernel⟩

/-- A change of a register waiting for the logbook. -/
def change (lr : Bool) (c : Change) (o : Nat) : Pending := ⟨1, lr, 1, 1, 5, 9, 3, 4, [], o, c, []⟩

/-- Agent 1's state with changes waiting. -/
def waiting (l : List Pending) : State :=
  let s := sitting host 1
  s.setSetup { s.setup with waiting := l }

theorem witness_LogbookEntries :
    State.reset.setup.waiting = [] ∧
    (let p := change false (.reg Reg.memCfg 4) Reg.memCfg
     let s := waiting [p, p]
     s.setup.waiting == [p, p] && s.setup.behind.isEmpty && s.field Reg.mtrStatus 8 8 == 0 && s.meter.sealNo < 2 ^ 32 - 1 &&
       s.meter.lrLog.length < 512) = true ∧
    ([change false (.reg Reg.memCfg 4) 0, change true (.layout 1) Reg.ptnLayout].all (fun p =>
      let s := (waiting [p]).setField Reg.mtrStatus 8 8 1
      s.setup.waiting == [p] && s.setup.behind.isEmpty && s.field Reg.mtrStatus 8 8 == 1)) = true ∧
    (let p := change true (.sealWrite (Reg.mtrCal 0) 31 16 7) (Reg.mtrCal 0)
     let s := waiting [p]
     s.setup.waiting == [p] && s.setup.behind.isEmpty && s.field Reg.mtrStatus 8 8 == 0 && s.meter.sealNo < 2 ^ 32 - 1 &&
       s.meter.lrLog.length < 512) = true ∧
    (let s := { waiting [] with meter := { (waiting []).meter with sealNo := 2 ^ 32 - 1 } }
     2 ^ 32 - 1 ≤ s.meter.sealNo) ∧
    (let s := sitting bare 1
     let t := { s with ptns := [] }
     fld (1 : DWord) 1 0 < 3 && 0 < t.ptnCount && !t.isOpen 0 && sound t && s.isOpen 0 && s.ctxs.isEmpty &&
       (s.meter.sessions.map (·.1)).length == 1 && (Tab.get? s.meter.sessions 1).any (fun x => x.serials.contains 5)) = true ∧
    ((host.setPort 0 { up with state := 1 }).port 0).state = 1 ∧
    (Tab.get? (host.ptn 0).objs 0 = some obj ∧ 0 < obj.slots.length) := by
  refine ⟨by decide, by decide +kernel, by decide +kernel, by decide +kernel, by decide, by decide +kernel, by decide, by decide⟩

theorem witness_MeterSampling :
    ([0, 1].all (fun st =>
      let s := host.setField Reg.mtrStatus 1 0 st
      (List.replicate 12 (⟨800, 1000, 801, 999⟩ : Sample)).length == 12 && s.meterChan 0 == st && s.meterChan 1 == 0)) = true ∧
    ([[(48, 1)], [(0, 1000000)], []].all (fun l =>
      let s := { host with meter := { host.meter with second := l } }
      let a (r : Nat) : Nat := Tab.get s.meter.second r 0
      let b (r : Nat) : Nat := Tab.get s.meter.second (16 + r) 0
      let off (r : Nat) : Bool := 400000 * (max (a r) (b r) - min (a r) (b r)) > 4000 * max (a r) (b r) + Tab.get s.meter.second (32 + r) 0 * fullScale r
      (Tab.get? s.meter.second 48).isSome == (l == [(48, 1)]) && ((List.range 12).any off == (l == [(0, 1000000)])))) = true := by
  refine ⟨by decide +kernel, by decide +kernel⟩

/-- The meter die with a window ended, some dies' frames in, and counts of context 1 on die 0. -/
def attributing (arrived : List Nat) : State :=
  { host with meter := { host.meter with
      ended := [List.replicate 32 300000000], arrived := arrived, counts := [(0, [(1, 0, 2), (2, 0, 1)])] } }

theorem witness_EnergyAttribution :
    (host.meter.ended = [] ∧ [500000, 0, 500000, 1500000, 500000].length = 5) ∧
    (let s := { host with dies := [(3, { host.die 3 with cal := .lost, scale := 500000 })] }
     (s.die 3).cal = .lost ∧ s.meter.ended = []) ∧
    ([[], [0]].all (fun l => let s := attributing l
      !s.meter.ended.isEmpty && s.meter.arrived == l && s.meter.arrived.length < 3)) = true ∧
    ([(0, false, 0), (5, true, 4), (5, true, 0)].all (fun (e : Nat × Bool × Nat) =>
      let s := { host with
        meter := { host.meter with windowNo := e.1, early := e.2.1 }
        setup := { host.setup with regs := [(Reg.mtrCfg, BitVec.ofNat 64 (60 + 2 ^ 10 * e.2.2))] } }
      s.meter.ended.isEmpty && s.meter.windowNo == e.1 && s.meter.startMs == 0 && s.field Reg.mtrCfg 17 10 == e.2.2 && sound s &&
        s.ctxs.all (fun c => c.2.sink.isEmpty))) = true := by
  refine ⟨by decide, by decide, by decide +kernel, by decide +kernel⟩

/-- Die 0 at a VCORE, the sealed partition 0 set to 600 mV on it or not, the governor as given. -/
def governed (mv : Nat) (sealed_ : Bool) (h : Helm → Helm) : State :=
  let s := sitting { host with dies := [(0, { host.die 0 with vcore := mv, vsram := 750 })] } 1
  let t := s.setReg (Reg.ptnSeal 0) (if sealed_ then BitVec.ofNat 64 (1 + 2 * 3 + 32 * 3 + 512 * 600 + 2 ^ 19 * 50 + 2 ^ 27 * 3) else 0)
  { t with helm := h t.helm }

theorem witness_HelmControl :
    ([(70, 700), (100, 700), (106, 700), (70, 550)].all (fun (e : Nat × Nat) =>
      [(false, false), (true, false), (false, true)].all (fun (b : Bool × Bool) =>
      let s := governed e.2 false (fun h => { h with exceeded := b.1, framesLost := b.2 })
      let l := List.replicate 24 e.1
      s.helmRuns && s.pkg.start == .complete && !(s.die 0).tripped && l.length == 24 && (s.sealedMv 0).isNone && hottest l == e.1 &&
        s.helm.sprint.isEmpty && s.helm.framesLost == b.2 && s.helm.exceeded == b.1 && !(s.die 0).throttled &&
        !(s.die 0).forceCeiling && !(s.die 0).ceiling && (s.die 0).vset == e.2 && !(s.die 0).wearLtd && (s.wearReached 0) == false))) = true ∧
    ([550, 700].all (fun mv =>
      let s := governed mv true id
      s.helmRuns && s.sealedMv 0 == some 600 && !s.helm.framesLost && (s.wearReached 0) == false && (s.die 0).vset == mv)) = true ∧
    (let s := governed 700 false id
     let t := { s with meter := { s.meter with wear := [(0, [10 ^ 22])], lastI := [(0, 600000)] } }
     t.wearReached 0 && wearOver (Tab.get t.meter.lastI 0 0) 90 && !(t.die 0).wearLtd) = true ∧
    ([[], [800], [600]].all (fun t =>
      let s := { host with dies := [(0, { host.die 0 with vcore := 700, vsram := 750, target := t })] }
      (s.die 0).target == t && max (s.die 0).vcore 700 ≤ (s.die 0).vsram)) = true ∧
    ([true, false].all (fun b =>
      let s := governed 700 false (fun h => { h with framesLost := b })
      s.helmRuns && s.helm.framesLost == b)) = true ∧
    ([(0, 1, []), (10 ^ 9, 1, []), (10 ^ 9, 0, []), (10 ^ 9, 1, [5])].all (fun (e : Nat × Nat × List Nat) =>
      let s := { governed 700 false (fun h => { h with
          sprint := e.2.2, since := if e.2.2 = [] then [] else [9999], limits := [(h.lead, BitVec.ofNat 64 (600 + 2 ^ 12 * e.2.1))] }) with
        meter := { host.meter with frame := [(0, e.1)] } }
      let f := (s.meter.frame.map (·.2)).sum
      s.helmRuns && (decide (f ≤ fld s.limitNow 11 0 * 50000) == (e.1 == 0)) && fld s.limitNow 12 12 == e.2.1 &&
        s.helm.sprint == e.2.2 && (s.helm.since == []) == (e.2.2 == []) &&
        (decide (sprintCeiling (fld s.limitNow 17 16) * 50000 < f) == (e.1 != 0)) &&
        s.helm.frames.sum ≤ s.helm.frames.length * (s.helm.judged.headD (fld s.limitNow 11 0) * 50000))) = true ∧
    (let s := governed 700 false (fun h => { h with frames := [10 ^ 12] })
     !decide (s.helm.frames.sum ≤ s.helm.frames.length * (s.helm.judged.headD (fld s.limitNow 11 0) * 50000))) = true ∧
    ([PaceCal.never, .strobed, .lost].all (fun c =>
      let s := { host with dies := [(0, { host.die 0 with cal := c })] }
      (s.die 0).cal == c)) = true := by
  refine ⟨by decide +kernel, by decide +kernel, by decide +kernel, by decide +kernel, by decide +kernel, by decide +kernel,
    by decide +kernel, by decide +kernel⟩

/-- The package with straps and where it stands in start-up. -/
def starting_ (straps : BitVec 22) (st : Start) : State := { host with pkg := { host.pkg with straps := straps, start := st } }

theorem witness_Detectors :
    ((sitting host 1).isOpen 0 && !host.isOpen 3 && host.powered && !(starting_ 0 .off).powered && host.pkg.start == .complete &&
      strapEndpoint (starting_ 4096 .complete).pkg.straps && !strapEndpoint host.pkg.straps && (Tab.get? host.pkg.joints 2).isNone &&
      (Tab.get? { host.pkg with joints := [(2, true)] }.joints 2).isSome) = true ∧
    (host.disp? ⟨0, 1, 0⟩ = none) ∧
    ([(0 : Nat), 1 + 2 ^ 12].all (fun solo =>
      let s := (core (tw 0x65 0) group).setReg (Reg.fltSolo 0) (BitVec.ofNat 64 solo)
      s.disp? ⟨0, 1, 0⟩ == some disp && disp.status == 0 && s.soloMode 0 == (solo != 0) &&
        (s.coresOf 0).find? (fun c => ((s.work c).groupOf ⟨0, 1, 0⟩).isSome) == some 0 &&
        (s.work 0).groupOf ⟨0, 1, 0⟩ == some (0, group) && s.cmd? ⟨0, 1, 0⟩ == some (cmd 1 .running (entry 2 [])) &&
        s.queue? 0 1 == some queue && (s.suspects 0).contains ⟨1, 0⟩ && disp.ended != disp.blocks &&
        (solo == 0 || (queue.ctx == ⟨s.field (Reg.fltSolo 0) 11 0, 0⟩ &&
          (Tab.get? s.ctxs (s.field (Reg.fltSolo 0) 11 0)).any (fun c => c.gen == 0))))) = true := by
  refine ⟨by decide +kernel, by decide, by decide +kernel⟩

/-- The dispatch's core with a reset ordered. -/
def ordered (l : Level) (t : Nat) : State :=
  let s := (sitting (core (tw 0x65 0) group) 1).setMbox 9 ⟨1, 5, false, 0⟩
  s.setDealer { s.dealer with resets := [⟨l, t⟩] }

theorem witness_ResetLadder :
    ([Level.engine, .partition, .die, .package].all (fun l =>
      let s := ordered l 0
      s.setup.mbx == [(9, ⟨1, 5, false, 0⟩)] && s.dealer.resets[0]? == some ⟨l, 0⟩ && (s.dealer.resets[1]?).isNone && s.dealer.armed.isEmpty && s.isOpen 0 && s.migr.isEmpty &&
        (Tab.get? (s.work 0).blocks 0).any (fun x => x.cid == ⟨0, 1, 0⟩) && s.ptnOfCore 0 == 0 &&
        s.cmd? ⟨0, 1, 0⟩ == some (cmd 1 .running (entry 2 [])) && s.disp? ⟨0, 1, 0⟩ == some disp && disp.ended != disp.blocks)) = true ∧
    (let s := (host.reportErr (report 0x16 (coreUnit 0)))
     (s.dealer.records[0]?).isSome && (host.dealer.records[0]?).isNone) = true ∧
    ([true, false].all (fun h => Tab.get? { host.dealer with gaps := [(5, ⟨true, h⟩)] }.gaps 5 == some ⟨true, h⟩)) = true ∧
    Tab.get? host.dealer.gaps 5 = none := by
  refine ⟨by decide +kernel, by decide +kernel, by decide, by decide⟩

theorem witness_PowerAndBoot :
    ((starting_ 0 (.rails 2)).pkg.start == .rails 2 && (starting_ 0 (.rails 3)).pkg.start == .rails 3 &&
      ({ (starting_ 0 .railFail).pkg with railFails := 3 }).railFails == 3 && (starting_ 0 .railFail).pkg.railFails < 3 &&
      strapBoot (starting_ (2 ^ 19) .boot).pkg.straps != 0 && strapBoot (starting_ 0 .boot).pkg.straps == 0 &&
      (starting_ 0 .bootWindow).pkg.start == .bootWindow) = true ∧
    (let s := (sitting host 1).setMbox 4 ⟨1, 5, false, 0⟩
     s.reaches 1 && (s.setup.mbx.map (·.1)).length == 1 && (Tab.get? s.setup.mbx 4).any (fun m => m.owner == 1)) = true ∧
    (let x : Image := ⟨2, 1, [], false, true, false⟩
     [(0, 0), (1, 0)].all (fun (e : Nat × Nat) =>
      let key := fwKey e.1 e.2
      let s := { host with
        pkg := { host.pkg with fw := [(e.1, key)] }
        meter := { host.meter with images := Tab.set host.meter.images (32 + key) x } }
      Tab.get? s.meter.images (32 + key) == some x && s.pkg.fw.contains (e.1, key))) = true := by
  refine ⟨by decide +kernel, by decide +kernel, by decide +kernel⟩

/-! ### Operands out of range -/

/-- One operand of each kind just past its range is refused, and the last in range is not. -/
theorem test_operand_ranges :
    ([.core 192, .groupSlot 64, .blockSlot 16, .array 4, .moverChannel 4, .farSlot 64, .ptn 16, .queue 64, .ctx 4096, .port 24,
      .lane 8, .memChannel 200, .bank 32, .computeDie 4, .die 5, .rail 12, .joint 9, .mailbox 64, .agent 0, .agent 12,
      .vector 2048, .meterChannel 2, .fwTarget 4, .pciePort 2, .hostWrite ⟨76101451776, [0]⟩, .doorbellLine 1189085184] :
      List Operand).all (fun o => !o.ok) = true ∧
    ([.core 191, .groupSlot 63, .blockSlot 15, .array 3, .moverChannel 3, .farSlot 63, .ptn 15, .queue 63, .ctx 4095, .port 23,
      .lane 7, .memChannel 199, .bank 31, .computeDie 3, .die 4, .rail 11, .joint 8, .mailbox 63, .agent 1, .agent 11,
      .vector 2047, .meterChannel 1, .fwTarget 3, .pciePort 1, .hostWrite ⟨76101451775, [0]⟩, .doorbellLine 1189085183] :
      List Operand).all (fun o => o.ok) = true := by
  refine ⟨by decide +kernel, by decide +kernel⟩

/-- A command with such an operand stops, and on one in range the machine goes on. -/
theorem test_ill_formed_stops : exec (.iadd 192 0 0) State.reset = .fault .noSuchUnit ∧
    exec (.mbxLockRead 12 0) State.reset = .fault .noSuchUnit ∧ (exec (.iadd 191 0 0) State.reset matches .next _) := by
  refine ⟨rfl, rfl, rfl⟩

/-! ### Instructions against hand calculation from R235 and R238 -/

/-- t3 of lane 0 after an instruction on t1, t2 and t4 of lane 0. -/
def t3After (i : Nat → Nat → DWord → Instr) (op sub : Nat) (a b c : Word) : Option Word :=
  let w := word [(op, 0), (3, 8), (1, 16), (2, 24), (4, 32), (sub, 42)]
  match exec (i 0 0 w) (core w { group with tregs := [(32, a), (64, b), (128, c)] }) with
  | .next s => ((s.work 0).group? 0).map (fun g => g.t 3 0)
  | _ => none

theorem test_integer :
    t3After .iadd 0x00 0 0xFFFFFFFF 2 0 = some 1 ∧ t3After .isub 0x01 0 1 2 0 = some 0xFFFFFFFF ∧
    t3After .imulh 0x03 1 0xFFFFFFFF 2 0 = some 0xFFFFFFFF ∧ t3After .imulh 0x03 0 0xFFFFFFFF 2 0 = some 1 ∧
    t3After .shl 0x07 0 1 33 0 = some 2 ∧ t3After .shr 0x08 1 0x80000000 31 0 = some 0xFFFFFFFF ∧
    t3After .icmp 0x09 2 0xFFFFFFFF 1 0 = some 1 ∧ t3After .icmp 0x09 4 0xFFFFFFFF 1 0 = some 0 ∧
    t3After .sel 0x0A 0 0 7 9 = some 9 ∧ t3After .iminmax 0x0B 1 0xFFFFFFFF 1 0 = some 1 := by decide +kernel

theorem test_binary32 :
    t3After .fadd 0x10 0 0x3F800000 0x33800000 0 = some 0x3F800000 ∧ t3After .fmul 0x11 0 0x40400000 0x40400000 0 = some 0x41100000 ∧
    t3After .ffma 0x12 0 0x40000000 0x40400000 0xC0C00000 = some 0 ∧ t3After .fminmax 0x14 0 0x7FC00000 0x3F800000 0 = some 0x3F800000 ∧
    t3After .fminmax 0x14 1 0x80000000 0 0 = some 0 ∧ t3After .fcvt 0x15 2 0xFF800000 0 0 = some 0x80000000 ∧
    t3After .fsqrt 0x16 0 0x40800000 0 0 = some 0x40000000 ∧ t3After .frcp 0x17 0 0x40800000 0 0 = some 0x3E800000 ∧
    t3After .fadd 0x10 0 0x7F800000 0xFF800000 0 = some 0x7FC00000 := by decide +kernel

/-- A reserved SUB and opcode fault the dispatch with ILLEGAL_INSTRUCTION and write nothing (R235, R238). -/
theorem test_reserved_encoding :
    t3After .iadd 0x00 1 1 2 0 = some 0 ∧ t3After .icmp 0x09 6 1 2 0 = some 0 := by decide +kernel

/-! ### The spec's worked examples -/

/-- "Number formats", Worked conversion. -/
theorem test_l8_conversion :
    chooseScale [.fin false 6 0, .fin true 1 (-4), .fin false 1 0, .fin false 0 0] = 3 ∧
    ((lfmt 5).encode 3 .nearest (.fin false 6 0)).bits = 0x7C ∧ ((lfmt 5).encode 3 .nearest (f32.decode 0xBDCCCCCD)).bits = 0xCC ∧
    ((lfmt 5).encode 3 .nearest (.fin false 1 0)).bits = 0x67 ∧ ((lfmt 5).encode 3 .nearest (.fin true 0 0)).bits = 0 ∧
    ((lfmt 5).encode 3 (.stochastic 4 9) (.fin false 6 0)).bits = 0x7C ∧
    ((lfmt 5).encode 3 (.stochastic 4 10) (.fin false 6 0)).bits = 0x7B ∧
    (lfmt 5).decode 3 0x7C = .fin false (mTab 160) (-21) ∧ mTab 128 = 0xB504F3 ∧ mTab 0 = 8388608 := by
  refine ⟨by decide, by decide +kernel, by decide +kernel, by decide +kernel, by decide +kernel, by decide +kernel,
    by decide +kernel, by decide +kernel, by decide +kernel, by decide +kernel⟩

/-- "Cores and thread groups": 9 blocks with 360 KiB of deck, 10 with 352 KiB, of 8 x 28 granules. -/
theorem test_occupancy : occupancy 224 90 4 368640 = 9 ∧ occupancy 224 90 4 360448 = 10 := by decide

/-- "Training passes", a micro-batch timeline with RUN_LIMIT 2: the takes that follow each head's state. -/
theorem test_takes :
    takeChoice 0 2 0 true true false = some (true, 1, false) ∧ takeChoice 0 2 1 true true false = some (true, 2, false) ∧
    takeChoice 0 2 2 true true false = some (false, 0, true) ∧ takeChoice 0 2 1 true false false = some (false, 0, false) := by decide

/-- "Host objects and rings": PHASE of records 600 and 768 of a ring of 256. -/
theorem test_phase : recordPhase 600 8 = 1 ∧ recordPhase 768 8 = 0 := by decide

/-- "Command reference": 1,536 stash pages take 3 granules. -/
theorem test_stash_need : stashNeed 1536 = 3 := by decide

/-- "Main memory": channel frame 1,200, offset 285,184 lies in bank 11 of rank 0. -/
theorem test_bank : bankOf (.chan 0 (1200 * 2097152 + 285184)) = 11 := by decide

/-- "Partitions": RATE 128 is the highest at 0.70 V in grade A, 117 in grade B. -/
theorem test_seal_rate : rateOk 128 700 0 = true ∧ rateOk 129 700 0 = false ∧ rateOk 117 700 1 = true ∧ rateOk 118 700 1 = false := by
  decide

/-- "Meter, roles and logbook": 400,000,017 nJ divided over two contexts. -/
theorem test_division :
    let r := divideNj [(5, 0, 3000000), (9, 0, 1000000)] 400000017 false []
    (r.1.map (fun b => (b.1.id, b.2.compute)) = [(5, 300000012), (9, 100000004)]) ∧ 400000017 - r.2 = 1 := by decide

/-- A package of the torus of 4 x 4 x 2 with ports up. -/
def torus (no : Nat) (ports : List Nat) : State :=
  let s := State.reset.setReg Reg.nvBearing (BitVec.ofNat 64 (no + 3 * 2 ^ 12 + 3 * 2 ^ 16 + 2 ^ 20 + 2 ^ 24))
  s.setLinks { s.links with ports := ports.map (fun k => (k, up)) }

/-- A packet's port, VC, DETOUR and DIE as it leaves. -/
def leaves (s : State) (p : Packet) (dim : Nat) : List (Nat × Nat × Bool × Nat) :=
  (s.sendPacket p dim).links.outbox.map (fun x => (x.port, x.packet.vc, x.packet.detour, x.packet.die))

/-- "Nivan links": package 0 reads from package 18 while package 1 is dead. Port 6 x die + direction. -/
theorem test_routing :
    leaves (torus 0 [1, 2, 3, 7, 8, 9]) { packet 1 0 [] with dest := 18, die := 1 } 3 = [(8, 4, true, 1)] ∧
    leaves (torus 16 [6, 7, 8, 9]) { packet 1 0 [] with dest := 18, die := 1, vc := 4, detour := true } 1 = [(6, 4, true, 1)] ∧
    leaves (torus 19 [6, 7, 8, 9]) { packet 2 0 [] with dest := 0, die := 1, vc := 2 } 0 = [(6, 3, false, 1)] ∧
    leaves (torus 16 [6, 7, 8, 9]) { packet 2 0 [] with dest := 0, die := 1, vc := 3 } 0 = [(9, 2, false, 1)] := by decide +kernel

/-- "Set-up registers": an operator's write of HELM_LIMIT that would change CLASS. -/
theorem test_helm_limit :
    (match exec (.helmLimitWrite ⟨1, 4, 0, 0x11640⟩) (sitting host 1) with
     | .next s => s.reg Reg.helmLimit == 0x17D0 && s.reg Reg.setupErr == 0x8000000110100030 && s.field Reg.helmStatus 22 22 == 0 &&
        s.setup.waiting.map (fun p => p.change) == [.reg Reg.helmLimit 0x1640]
     | _ => false) = true := by decide +kernel

/-- FIPS 180-4's digest of the empty message begins cf83e1357eefb8bd (R512's hash). -/
theorem test_sha512 : (sha512 []).take 8 = [0xcf, 0x83, 0xe1, 0x35, 0x7e, 0xef, 0xb8, 0xbd] := by decide +kernel

end Sys2Proof.Tests
end

/-! Fields of a register: what a bit of one is, and what setting one leaves of the others. -/

namespace Sys2Proof.Machine

/-! ### Fields of a register -/

theorem setBits_eq (v hi lo x : Nat) :
    setBits v hi lo x =
      2 ^ lo * (2 ^ (hi + 1 - lo) * (v / 2 ^ lo / 2 ^ (hi + 1 - lo)) + x % 2 ^ (hi + 1 - lo)) + v % 2 ^ lo := by
  have hv := Nat.div_add_mod v (2 ^ lo)
  have hd := congrArg (2 ^ lo * ·) (Nat.div_add_mod (v / 2 ^ lo) (2 ^ (hi + 1 - lo)))
  simp only [Nat.mul_add] at hd ⊢
  simp only [setBits, bits, Nat.mul_comm _ (2 ^ lo)]
  omega

/-- A bit of a field is the bit of the register at its place. -/
theorem testBit_fld (r : DWord) (hi lo i : Nat) :
    (fld r hi lo).testBit i = (decide (i < hi + 1 - lo) && r.getLsbD (lo + i)) := by
  simp [fld, bits, Nat.testBit_mod_two_pow, Nat.testBit_div_two_pow, BitVec.testBit_toNat, Nat.add_comm]

/-- Setting a field sets its bits and no other. -/
theorem getLsbD_setFld (r : DWord) (hi lo x b : Nat) (hb : b < 64) :
    (setFld r hi lo x).getLsbD b = if lo ≤ b ∧ b < hi + 1 then x.testBit (b - lo) else r.getLsbD b := by
  rw [setFld, BitVec.getLsbD_ofNat, setBits_eq, Nat.testBit_two_pow_mul_add _ (Nat.mod_lt _ (Nat.two_pow_pos lo)),
    Nat.testBit_two_pow_mul_add _ (Nat.mod_lt _ (Nat.two_pow_pos _))]
  simp only [hb, decide_true, Bool.true_and, Nat.testBit_mod_two_pow, Nat.testBit_div_two_pow, BitVec.testBit_toNat]
  by_cases h1 : b < lo
  · simp [h1, Nat.not_le.mpr h1]
  · by_cases h2 : b < hi + 1
    · have h3 : b - lo < hi + 1 - lo := by omega
      simp [h1, h2, h3, Nat.not_lt.mp h1]
    · have h3 : ¬ b - lo < hi + 1 - lo := by omega
      have h4 : b - lo - (hi + 1 - lo) + (hi + 1 - lo) + lo = b := by omega
      simp [h1, h2, h3]
      rw [h4]

theorem fld_setFld_same (r : DWord) {hi lo : Nat} (x : Nat) (hh : hi < 64) : fld (setFld r hi lo x) hi lo = x % 2 ^ (hi + 1 - lo) := by
  apply Nat.eq_of_testBit_eq
  intro i
  rw [testBit_fld, Nat.testBit_mod_two_pow]
  by_cases h : i < hi + 1 - lo
  · rw [getLsbD_setFld _ _ _ _ _ (by omega), if_pos (by omega)]
    simp [h]
  · simp [h]

theorem fld_setFld_other (r : DWord) {hi lo h l : Nat} (x : Nat) (hh : h < 64) (hd : h < lo ∨ hi < l) :
    fld (setFld r hi lo x) h l = fld r h l := by
  apply Nat.eq_of_testBit_eq
  intro i
  rw [testBit_fld, testBit_fld]
  by_cases hi' : i < h + 1 - l
  · rw [getLsbD_setFld _ _ _ _ _ (by omega), if_neg (by omega)]
  · simp [hi']

theorem fld_lt (r : DWord) (hi lo : Nat) : fld r hi lo < 2 ^ (hi + 1 - lo) := Nat.mod_lt _ (Nat.two_pow_pos _)

end Sys2Proof.Machine

/-! What leaves the set-up block as it was: the operations of the other blocks, each once. -/

namespace Sys2Proof.Machine

/-! ### What leaves the set-up block as it was -/

theorem State.foldl_setup {α : Type} {f : State → α → State} (hf : ∀ t a, (f t a).setup = t.setup) (l : List α) (s : State) :
    (l.foldl f s).setup = s.setup := by
  induction l generalizing s with
  | nil => rfl
  | cons a l ih => rw [List.foldl_cons, ih, hf]

@[simp] theorem State.putBytes_setup (bs : List Byte) (s : State) (pl : Place) : (s.putBytes pl bs).setup = s.setup := by
  induction bs generalizing s pl with
  | nil => rfl
  | cons x xs ih => cases pl <;> exact ih _ _

@[simp] theorem State.corrupt_setup (s : State) (l : List Nat) (t k : Nat) : (s.corrupt l t k).setup = s.setup := by
  unfold State.corrupt
  split <;> rfl

@[simp] theorem State.store_setup (s : State) (pl : Place) (bs : List Byte) : (s.store pl bs).setup = s.setup := by
  unfold State.store
  split <;> simp

@[simp] theorem State.hostWrite_setup (s : State) (a : Nat) (bs : List Byte) : (s.hostWrite a bs).setup = s.setup :=
  State.store_setup _ _ _

@[simp] theorem State.irq_setup (s : State) (v : Nat) : (s.irq v).setup = s.setup := by
  unfold State.irq
  dsimp only
  split <;> rfl

@[simp] theorem State.mirror_setup (s : State) (n i : Nat) (f : Fence) : (s.mirror n i f).setup = s.setup := by
  unfold State.mirror
  dsimp only
  split <;> simp

@[simp] theorem State.writeRecord_setup (s : State) (r : ErrRec) : (s.writeRecord r).setup = s.setup := by
  unfold State.writeRecord
  dsimp only
  split <;> simp

@[simp] theorem State.closeRecord_setup (s : State) (i : Nat) : (s.closeRecord i).setup = s.setup := by
  unfold State.closeRecord
  split
  · rfl
  · dsimp only
    split <;> simp

@[simp] theorem State.setObj_setup (s : State) (n i : Nat) (o : MemObj) : (s.setObj n i o).setup = s.setup := rfl

@[simp] theorem State.setObjState_setup (s : State) (n i k : Nat) (st : ObjState) :
    (s.setObjState n i k st).setup = s.setup := by
  unfold State.setObjState
  dsimp only
  repeat' split
  all_goals rfl

@[simp] theorem State.settleSlot_setup (s : State) (n i k : Nat) : (s.settleSlot n i k).setup = s.setup := by
  unfold State.settleSlot
  split <;> simp

@[simp] theorem State.startWriter_setup (s : State) (n : Nat) (w : Nat × Nat) : (s.startWriter n w).setup = s.setup := by
  unfold State.startWriter
  dsimp only
  repeat' split
  all_goals simp

@[simp] theorem State.writes_setup (s : State) (c : Cid) (w : Nat × Nat) : (s.writes c w).setup = s.setup := by
  unfold State.writes
  dsimp only
  split <;> simp

@[simp] theorem State.sendPacket_setup (s : State) (p : Packet) (d : Nat) : (s.sendPacket p d).setup = s.setup := by
  unfold State.sendPacket
  dsimp only
  repeat' split
  all_goals rfl

@[simp] theorem State.notify_setup (s : State) (n h : Nat) (c : CtxId) (e : Bool) (ws : List Waiter) :
    (s.notify n h c e ws).setup = s.setup := State.foldl_setup (by simp) ws s

@[simp] theorem State.putFence_setup (s : State) (n i : Nat) (f : Fence) : (s.putFence n i f).setup = s.setup := rfl

@[simp] theorem State.setFence_setup (s : State) (n i : Nat) (f : Fence) : (s.setFence n i f).setup = s.setup := by
  unfold State.setFence
  dsimp only
  repeat' split
  all_goals simp

@[simp] theorem State.signalFence_setup (s : State) (n i : Nat) (f : Fence) : (s.signalFence n i f).setup = s.setup := by
  simp [State.signalFence]

@[simp] theorem State.signalAll_setup (s : State) (n : Nat) (is : List Nat) : (s.signalAll n is).setup = s.setup := by
  refine State.foldl_setup (fun t i => ?_) is s
  repeat' split
  all_goals simp

@[simp] theorem State.ownerStep_setup (s : State) (n q : Nat) : (s.ownerStep n q).setup = s.setup := by
  unfold State.ownerStep
  repeat' split
  all_goals simp

/-! ### Commands that are stopped, resets that are ordered -/

@[simp] theorem State.setCmd_setup (s : State) (n : Nat) (k : Cmd) : (s.setCmd n k).setup = s.setup := rfl
@[simp] theorem State.failCmd_setup (s : State) (n : Nat) (k : Cmd) (st : Nat) : (s.failCmd n k st).setup = s.setup := rfl
@[simp] theorem State.dropMove_setup (s : State) (c : Cid) : (s.dropMove c).setup = s.setup := rfl
@[simp] theorem State.leaveCores_setup (s : State) (c : Cid) : (s.leaveCores c).setup = s.setup := rfl
@[simp] theorem State.mapQueues_setup (s : State) (n : Nat) (p : Nat → Queue → Bool) (f : Queue → Queue) :
    (s.mapQueues n p f).setup = s.setup := rfl

@[simp] theorem State.endCmd_setup (s : State) (c : Cid) (st d i : Nat) : (s.endCmd c st d i).setup = s.setup := by
  unfold State.endCmd
  split <;> rfl

@[simp] theorem State.updFail_setup (s : State) (c : Cid) (st i : Nat) : (s.updFail c st i).setup = s.setup := by
  unfold State.updFail
  cases h : s.upd? c <;> simp

@[simp] theorem State.stopWork_setup (s : State) (c : Cid) : (s.stopWork c).setup = s.setup := by
  unfold State.stopWork
  dsimp only
  split <;> rfl

@[simp] theorem State.endDisp_setup (s : State) (d : Disp) (st : Nat) (i : DWord) : (s.endDisp d st i).setup = s.setup := by
  unfold State.endDisp
  split <;> simp [State.setDisp]

@[simp] theorem State.stopCmd_setup (s : State) (n : Nat) (k : Cmd) (st : Nat) : (s.stopCmd n k st).setup = s.setup := by
  unfold State.stopCmd
  dsimp only
  repeat' split
  all_goals simp

@[simp] theorem State.stopQueues_setup (s : State) (n st : Nat) (p : Nat → Bool) : (s.stopQueues n st p).setup = s.setup :=
  State.foldl_setup (by simp) _ s

@[simp] theorem State.revokeQueues_setup (s : State) (n : Nat) (c : CtxId) (t : Option Word) (st : Nat) :
    (s.revokeQueues n c t st).setup = s.setup := by
  simp [State.revokeQueues]

@[simp] theorem State.cutOff_setup (s : State) (l : List (Nat × Cmd)) (st : Nat) : (s.cutOff l st).setup = s.setup :=
  State.foldl_setup (by simp) l s

@[simp] theorem State.orderReset_setup (s : State) (l : Level) (t : Nat) : (s.orderReset l t).setup = s.setup := by
  unfold State.orderReset
  split
  · rfl
  · cases l <;> rfl

@[simp] theorem State.hangReset_setup (s : State) (n : Nat) (l : List CtxId) : (s.hangReset n l).setup = s.setup := by
  simp [State.hangReset]

@[simp] theorem State.hangSolo_setup (s : State) (n p : Nat) : (s.hangSolo n p).setup = s.setup := by
  simp only [State.hangSolo]
  rw [State.foldl_setup (by simp)]
  simp

@[simp] theorem State.packageFault_setup (s : State) (r : Report) : (s.packageFault r).setup = s.setup := by
  simp [State.packageFault, State.keepReport]

/-! ### Ports, partitions and memory -/

@[simp] theorem State.sealStep_setup (s : State) (n : Nat) : (s.sealStep n).setup = s.setup := by
  have hd (l : List Nat) (b : Bool) : (l.foldl (fun t d => t.setDie d { t.die d with sealLost := b }) s).setup = s.setup :=
    State.foldl_setup (by simp) l s
  unfold State.sealStep
  dsimp only
  repeat' split
  all_goals simp [hd]

@[simp] theorem State.sealCheck_setup (s : State) : s.sealCheck.setup = s.setup := State.foldl_setup (by simp) _ s

@[simp] theorem State.trainPort_setup (s : State) (k : Nat) : (s.trainPort k).setup = s.setup := by
  unfold State.trainPort
  dsimp only
  split <;> rfl

@[simp] theorem State.retrain_setup (s : State) (k : Nat) (b : Bool) (x : BitVec 8) : (s.retrain k b x).setup = s.setup := rfl

@[simp] theorem State.dropPort_setup (s : State) (k : Nat) : (s.dropPort k).setup = s.setup := by
  simp only [State.dropPort, State.sealCheck_setup, State.raise_setup]
  rw [State.foldl_setup (by simp)]
  rfl

@[simp] theorem State.drainPort_setup (s : State) (k : Nat) : (s.drainPort k).setup = s.setup := by
  unfold State.drainPort
  dsimp only
  split <;> simp

@[simp] theorem State.scrub_setup (s : State) (pl : Place) (n : Nat) : (s.scrub pl n).setup = s.setup := by
  cases pl <;> rfl

@[simp] theorem State.scrubHold_setup (s : State) (l : List Nat) : (s.scrubHold l).setup = s.setup := rfl

@[simp] theorem State.zeroChan_setup (s : State) (c : Nat) : (s.zeroChan c).setup = s.setup := by
  unfold State.zeroChan
  split <;> simp

@[simp] theorem State.scrubPtn_setup (s : State) (n : Nat) : (s.scrubPtn n).setup = s.setup := by
  simp only [State.scrubPtn, State.scrubHold_setup]
  exact State.foldl_setup (by simp) _ s

@[simp] theorem State.wake_setup (s : State) (ps : List Nat) : (s.wake ps).setup = s.setup := State.foldl_setup (by simp) ps s

end Sys2Proof.Machine

/-! No change that the logbook lets through performs a register write, so none leaves a write waiting behind it. -/

namespace Sys2Proof.Machine
theorem State.foldl_behind {α : Type} {f : State → α → State} (hf : ∀ t a, (f t a).setup.behind = t.setup.behind) (l : List α)
    (s : State) : (l.foldl f s).setup.behind = s.setup.behind := by
  induction l generalizing s with
  | nil => rfl
  | cons a l ih => rw [List.foldl_cons, ih, hf]

@[simp] theorem State.setReg_behind (s : State) (o : Nat) (v : DWord) : (s.setReg o v).setup.behind = s.setup.behind := rfl
@[simp] theorem State.setField_behind (s : State) (o hi lo x : Nat) :
    (s.setField o hi lo x).setup.behind = s.setup.behind := rfl
@[simp] theorem State.pend_behind (s : State) (p : Pending) : (s.pend p).setup.behind = s.setup.behind := rfl
@[simp] theorem State.postTo_behind (s : State) (c d : Nat) (m : Mbx) : (s.postTo c d m).setup.behind = s.setup.behind := rfl
@[simp] theorem State.clearBlock_behind (s : State) (n : Nat) : (s.clearBlock n).setup.behind = s.setup.behind := rfl

@[simp] theorem State.refuseReg_behind (s : State) (o : Nat) (w : Bool) : (s.refuseReg o w).setup.behind = s.setup.behind := by
  unfold State.refuseReg
  repeat' split
  all_goals rfl

@[simp] theorem State.mtrAnswer_behind (s : State) (a c p r : Nat) (out : List Byte) :
    (s.mtrAnswer a c p r out).setup.behind = s.setup.behind := by
  unfold State.mtrAnswer
  dsimp only
  split <;> simp

@[simp] theorem State.mtrAnswerPending_behind (s : State) (p : Pending) (r : Nat) :
    (s.mtrAnswerPending p r).setup.behind = s.setup.behind := by
  unfold State.mtrAnswerPending
  split <;> simp

@[simp] theorem State.placeRecord_behind (s : State) (r : ErrRec) :
    (s.placeRecord r).1.setup.behind = s.setup.behind := by
  unfold State.placeRecord
  dsimp only
  split <;> rfl

@[simp] theorem State.reportErr_behind (s : State) (r : Report) : (s.reportErr r).setup.behind = s.setup.behind := by
  unfold State.reportErr
  dsimp only
  repeat' split
  all_goals simp

@[simp] theorem State.endSession_behind (s : State) (a : Nat) : (s.endSession a).setup.behind = s.setup.behind := by
  unfold State.endSession
  split <;> rfl

@[simp] theorem State.keeperTurns_behind (s : State) : s.keeperTurns.setup.behind = s.setup.behind := by
  unfold State.keeperTurns
  dsimp only
  split <;> simp

@[simp] theorem State.meterFault_behind (s : State) (h l x : Nat) : (s.meterFault h l x).setup.behind = s.setup.behind := rfl
@[simp] theorem State.setMeterChan_behind (s : State) (c x : Nat) : (s.setMeterChan c x).setup.behind = s.setup.behind := rfl

@[simp] theorem State.meterInject_behind (s : State) : s.meterInject.setup.behind = s.setup.behind := by
  unfold State.meterInject
  dsimp only
  repeat' split
  all_goals simp

@[simp] theorem State.hangAt_behind (s : State) (n p : Nat) (c : List CtxId) (d pc : Nat) (i : Bool) :
    (s.hangAt n p c d pc i).setup.behind = s.setup.behind := by
  unfold State.hangAt
  dsimp only
  split <;> simp

@[simp] theorem State.resetHung_behind (s : State) (l : Level) (t u : Nat) (i : Bool) :
    (s.resetHung l t u i).setup.behind = s.setup.behind := by
  unfold State.resetHung
  cases l <;> simp [State.foldl_behind]

@[simp] theorem State.dieFault_behind (s : State) (det u d : Nat) (i : Bool) :
    (s.dieFault det u d i).setup.behind = s.setup.behind := by
  simp [State.dieFault]

@[simp] theorem State.railFault_behind (s : State) (det r : Nat) (i : Bool) :
    (s.railFault det r i).setup.behind = s.setup.behind := by
  unfold State.railFault
  split <;> simp

@[simp] theorem State.jointReport_behind (s : State) (j u : Nat) (i : Bool) :
    (s.jointReport j u i).setup.behind = s.setup.behind := by
  unfold State.jointReport
  dsimp only
  split <;> simp

theorem State.ite_behind {c : Prop} [Decidable c] {t u : State} {l : List HeldWrite} (ht : t.setup.behind = l)
    (hu : u.setup.behind = l) : (if c then t else u).setup.behind = l := by
  split <;> assumption

/-- An injected report is no write of the set-up space that could wait, whatever its detector. -/
@[simp] theorem State.fire_behind (s : State) (det u : Nat) : (s.fire det u).setup.behind = s.setup.behind := by
  have hd (k : Nat) : (if (s.port k).state = 0 then s else s.dropPort k).setup = s.setup := by split <;> simp
  unfold State.fire
  repeat' with_reducible refine State.ite_behind ?_ ?_
  all_goals
    simp [hd, State.engineFault, State.fallBack, State.losesFrames, State.losesStrobe, State.keeperRestart]

@[simp] theorem State.fireSeries_behind (k : Nat) (s : State) : (s.fireSeries k).setup.behind = s.setup.behind := by
  induction k generalizing s with
  | zero => rfl
  | succ k ih =>
    unfold State.fireSeries
    repeat' split
    all_goals simp [ih]

@[simp] theorem State.arm_behind (s : State) (v : DWord) : (s.arm v).setup.behind = s.setup.behind := by
  unfold State.arm
  dsimp only
  repeat' split
  all_goals simp [State.injectNext]

@[simp] theorem State.startFirmware_behind (s : State) (v : DWord) : (s.startFirmware v).setup.behind = s.setup.behind := by
  unfold State.startFirmware
  dsimp only
  repeat' split
  all_goals simp [State.setFw, State.badImage]

@[simp] theorem State.openPtn_behind (s : State) (n : Nat) : (s.openPtn n).setup.behind = s.setup.behind := by
  simp [State.openPtn, State.drewMany]

@[simp] theorem State.closePtn_behind (s : State) (n : Nat) : (s.closePtn n).setup.behind = s.setup.behind := by
  simp only [State.closePtn, State.sealCheck_setup, State.setField_behind, State.clearBlock_behind]
  rw [State.foldl_setup]
  · simp
  · intro t p
    rfl

theorem State.clearBlocks_behind (l : List Nat) (s : State) :
    (l.foldl (fun t n => (t.clearBlock n).setField (Reg.ptnCtl n) 0 0 0) s).setup.behind = s.setup.behind :=
  State.foldl_behind (by simp) l s

@[simp] theorem State.newLayout_behind (s : State) (v : DWord) : (s.newLayout v).setup.behind = s.setup.behind := by
  unfold State.newLayout
  dsimp only
  split <;> simp [State.clearBlocks_behind]

@[simp] theorem State.applyReg_behind (s : State) (o : Nat) (v : DWord) : (s.applyReg o v).setup.behind = s.setup.behind := by
  unfold State.applyReg
  dsimp only
  repeat' split
  all_goals simp

@[simp] theorem State.applyHold_behind (s : State) (n : Nat) (v : DWord) : (s.applyHold n v).setup.behind = s.setup.behind := by
  unfold State.applyHold
  dsimp only
  repeat' split
  all_goals rfl

@[simp] theorem State.applyBearing_behind (s : State) (v : DWord) : (s.applyBearing v).setup.behind = s.setup.behind := by
  unfold State.applyBearing
  dsimp only
  rw [State.foldl_behind]
  · rfl
  · intro t k
    split <;> simp

@[simp] theorem State.applyDown_behind (s : State) (k : Nat) (v : DWord) : (s.applyDown k v).setup.behind = s.setup.behind := by
  unfold State.applyDown
  dsimp only
  repeat' split
  all_goals simp

@[simp] theorem State.applyRetrain_behind (s : State) (k : Nat) (v : DWord) :
    (s.applyRetrain k v).setup.behind = s.setup.behind := by
  unfold State.applyRetrain
  dsimp only
  split <;> simp

@[simp] theorem State.applySettle_behind (s : State) (p : Pending) (n i k : Nat) :
    (s.applySettle p n i k).setup.behind = s.setup.behind := by
  unfold State.applySettle
  dsimp only
  split <;> simp

@[simp] theorem State.applyRevoke_behind (s : State) (p : Pending) (n : Nat) :
    (s.applyRevoke p n).setup.behind = s.setup.behind := by
  simp [State.applyRevoke, State.foldl_behind]

@[simp] theorem State.applyMeterImage_behind (s : State) (p : Pending) (l : List Byte) :
    (s.applyMeterImage p l).setup.behind = s.setup.behind := by
  unfold State.applyMeterImage
  dsimp only
  split <;> simp [State.runsNow]

/-- No change performs a register write: where none waits behind the logbook, none waits once the change has taken effect. -/
theorem State.applyChange_behind (s : State) (p : Pending) (h : s.setup.behind = []) : (s.applyChange p).setup.behind = [] := by
  unfold State.applyChange
  cases p.change with
  | powerOff => rfl
  | powerOn => rfl
  | ptnOpen n v =>
    simp only [State.applyOpen]
    split <;> simp [h]
  | ptnClose n v =>
    simp only [State.applyClose]
    split <;> simp [h]
  | _ => simp [h, State.applyDetour, State.listRetired, State.applySession]

end Sys2Proof.Machine

/-! Storing a logbook entry: its bytes, the counters, and the turn of the waiting list. -/

namespace Sys2Proof.Machine

/-! ### Little-endian fields of a byte list -/

@[simp] theorem natLe_length (n v : Nat) : (natLe n v).length = n := by
  induction n generalizing v with
  | zero => rfl
  | succ n ih => simp [natLe, ih]

theorem leNat_natLe (n v : Nat) : leNat (natLe n v) = v % 256 ^ n := by
  induction n generalizing v with
  | zero => simp [natLe, leNat, Nat.mod_one]
  | succ n ih =>
    simp only [natLe, leNat, ih, BitVec.toNat_ofNat]
    exact (Nat.mod_mul (a := 256)).symm.trans (by rw [Nat.pow_succ'])

/-- A field that begins a list. -/
theorem leAt_natLe (n v : Nat) (l : List Byte) : leAt (natLe n v ++ l) 0 n = v % 256 ^ n := by
  rw [← leNat_natLe]
  simp [leAt]

/-- A field behind another one. -/
theorem leAt_skip (k v off n : Nat) (l : List Byte) : leAt (natLe k v ++ l) (k + off) n = leAt l off n := by
  simp [leAt, List.drop_append, List.drop_eq_nil_of_le]

/-- The first byte of a field. -/
theorem leAt_byte (n v : Nat) (l : List Byte) : leAt (natLe (n + 1) v ++ l) 0 1 = v % 256 := by
  simp [leAt, natLe, leNat]

/-! ### Storing an entry -/

/-- The entry that storeEntry makes of a pending change. -/
def State.entryOf (s : State) (p : Pending) : LogEntry :=
  let body := s.meter.entryBody p (s.meter.logNo + 1) (s.meter.sealNo + b2n p.lr) s.meter.prevHash
  ⟨s.meter.logNo + 1, p.lr, body ++ s.signed body⟩

/-- The fields of an entry at their places (R524). -/
theorem State.entryOf_bytes (s : State) (p : Pending) :
    leAt (s.entryOf p).bytes 4 1 = p.kind % 256 ∧ leAt (s.entryOf p).bytes 8 8 = (s.meter.logNo + 1) % 2 ^ 64 ∧
    leAt (s.entryOf p).bytes 0x30 8 = p.item.toNat ∧ leAt (s.entryOf p).bytes 0x38 8 = p.old.toNat ∧
    leAt (s.entryOf p).bytes 0x40 8 = p.new_.toNat := by
  have word (v : DWord) (l : List Byte) : leAt (natLe 8 v.toNat ++ l) 0 8 = v.toNat := by
    rw [leAt_natLe]
    exact Nat.mod_eq_of_lt v.isLt
  simp only [State.entryOf, Meter.entryBody, List.append_assoc]
  refine ⟨?_, ?_, ?_, ?_, ?_⟩
  · rw [leAt_skip 4 _ 0, leAt_byte]
    omega
  · rw [leAt_skip 4 _ 4, leAt_skip 4 _ 0]
    exact leAt_natLe 8 _ _
  · rw [leAt_skip 4 _ 44, leAt_skip 4 _ 40, leAt_skip 8 _ 32, leAt_skip 4 _ 28, leAt_skip 4 _ 24, leAt_skip 8 _ 16,
      leAt_skip 8 _ 8, leAt_skip 4 _ 4, leAt_skip 4 _ 0, word]
  · rw [leAt_skip 4 _ 52, leAt_skip 4 _ 48, leAt_skip 8 _ 40, leAt_skip 4 _ 36, leAt_skip 4 _ 32, leAt_skip 8 _ 24,
      leAt_skip 8 _ 16, leAt_skip 4 _ 12, leAt_skip 4 _ 8, leAt_skip 8 _ 0, word]
  · rw [leAt_skip 4 _ 60, leAt_skip 4 _ 56, leAt_skip 8 _ 48, leAt_skip 4 _ 44, leAt_skip 4 _ 40, leAt_skip 8 _ 32,
      leAt_skip 8 _ 24, leAt_skip 4 _ 20, leAt_skip 4 _ 16, leAt_skip 8 _ 8, leAt_skip 8 _ 0, word]

/-- The meter die's logbook and counters with an entry stored. -/
def Meter.withEntry (m : Meter) (e : LogEntry) : Meter :=
  let gen := if e.lr then m.genLog else m.genLog ++ [e]
  { m with
    logNo := e.no
    sealNo := m.sealNo + b2n e.lr
    lrLog := if e.lr then m.lrLog ++ [e] else m.lrLog
    genLog := gen.drop (gen.length - 2048) }

/-- Storing changes a draw, the meter die's logbook and counters, MTR_STATUS and the Dealer's events, nothing else. -/
theorem State.storeEntry_eq (s : State) (p : Pending) : ∃ regs : Table DWord,
    (∀ o, o ≠ Reg.mtrStatus → Tab.get? regs o = Tab.get? s.setup.regs o) ∧
    s.storeEntry p = { s with
      fresh := s.fresh + 1
      meter := s.meter.withEntry (s.entryOf p)
      setup := { s.setup with regs := regs }
      dealer := { s.dealer with
        seq := s.dealer.seq + 1
        events := s.dealer.events ++ [⟨s.dealer.seq + 1, .logbookEntry, s.meter.logNo + 1, 0⟩] } } := by
  have hs : s.storeEntry p = (let t := s.drawn.setMeter (s.meter.withEntry (s.entryOf p))
      if 512 ≤ t.meter.lrLog.length then t.setField Reg.mtrStatus 9 9 1 else t).raise .logbookEntry (s.meter.logNo + 1) 0 := rfl
  rw [hs]
  by_cases h : 512 ≤ (s.drawn.setMeter (s.meter.withEntry (s.entryOf p))).meter.lrLog.length
  · dsimp only
    rw [if_pos h]
    exact ⟨_, fun o ho => Tab.get?_set_other _ ho, rfl⟩
  · dsimp only
    rw [if_neg h]
    exact ⟨_, fun o _ => rfl, rfl⟩

/-- The new entry is the last of its section, whose oldest entries alone are dropped. -/
theorem Meter.mem_withEntry (m : Meter) (e : LogEntry) : e ∈ (m.withEntry e).lrLog ++ (m.withEntry e).genLog := by
  unfold Meter.withEntry
  cases e.lr with
  | true => simp
  | false =>
    refine List.mem_append_right _ ?_
    simp only [Bool.false_eq_true, ↓reduceIte]
    rw [List.drop_append_of_le_length (by simp)]
    simp

/-! ### One turn of the logbook -/

theorem State.freeBehind_of_nil {s : State} (h : s.setup.behind = []) : s.freeBehind = s := by
  obtain ⟨⟩ := s
  rename_i u _ _ _ _ _
  obtain ⟨⟩ := u
  cases h
  rfl

/-- What takes a turn of the logbook's waiting list, with no write behind it. -/
theorem State.logbookEntry_cons {s : State} {p : Pending} {rest : List Pending} (hw : s.setup.waiting = p :: rest)
    (hb : s.setup.behind = []) :
    let s0 := s.setSetup { s.setup with waiting := rest }
    s.logbookEntry = if s0.logFull (s0.dueEntry p) then (s0.refuseEntry (s0.dueEntry p)).freeBehind
      else (s0.storeEntry (s0.dueEntry p)).applyChange (s0.dueEntry p) := by
  have hs (q : Pending) : ((s.setSetup { s.setup with waiting := rest }).storeEntry q).setup.behind = [] := by
    obtain ⟨r, -, h⟩ := State.storeEntry_eq (s.setSetup { s.setup with waiting := rest }) q
    rw [h]
    exact hb
  unfold State.logbookEntry
  rw [hw]
  dsimp only
  split
  · rfl
  · exact State.freeBehind_of_nil (State.applyChange_behind _ _ (hs _))

/-- A pending change becomes due with its kind, its unit and its relevance as they were. -/
theorem State.dueEntry_keeps (s : State) (p : Pending) :
    (s.dueEntry p).kind = p.kind ∧ (s.dueEntry p).lr = p.lr ∧ (s.dueEntry p).item = p.item := by
  unfold State.dueEntry
  split <;> exact ⟨rfl, rfl, rfl⟩

theorem State.dueEntry_sealWrite (s : State) {p : Pending} {o hi lo : Nat} {x : Nat} (h : p.change = .sealWrite o hi lo x) :
    s.dueEntry p = { p with old := s.reg o, new_ := setFld (s.reg o) hi lo x } := by
  simp [State.dueEntry, h]

theorem State.dueEntry_other (s : State) {p : Pending} (h : ∀ o hi lo x, p.change ≠ .sealWrite o hi lo x) :
    s.dueEntry p = p := by
  unfold State.dueEntry
  split
  · next o hi lo x he => exact absurd he (h o hi lo x)
  · rfl

theorem State.logFull_iff (s : State) (p : Pending) : s.logFull p = true ↔
    s.field Reg.mtrStatus 8 8 = 1 ∨ p.lr = true ∧ (512 ≤ s.meter.lrLog.length ∨ 2 ^ 32 - 1 ≤ s.meter.sealNo) := by
  simp [State.logFull]

end Sys2Proof.Machine

/-! What registers, partitions and bytes are after a partition opens or closes, or a new layout. -/

namespace Sys2Proof.Machine

/-! ### Registers read through an operation -/

theorem State.reg_setField_same (s : State) (o hi lo x : Nat) : (s.setField o hi lo x).reg o = setFld (s.reg o) hi lo x :=
  State.reg_setReg_same _ _ _

theorem State.reg_setField_other (s : State) {o i : Nat} (hi lo x : Nat) (h : i ≠ o) :
    (s.setField o hi lo x).reg i = s.reg i :=
  (State.reg_setReg _ _ _ _).trans (if_neg h)

theorem Tab.get?_filter {α : Type} (f : Nat → Bool) (t : Table α) (k : Nat) :
    Tab.get? (t.filter (fun e => f e.1)) k = if f k then Tab.get? t k else none := by
  induction t with
  | nil => simp
  | cons e t ih =>
    obtain ⟨j, x⟩ := e
    by_cases hk : j = k
    · subst hk
      cases hf : f j <;> simp [hf, ih, Tab.get?]
    · cases hf : f j <;> simp [hf, ih, Tab.get?, hk]

/-- Clearing a partition block leaves the registers outside it. -/
theorem State.reg_clearBlock {s : State} {n o : Nat} (h : ptnOfOffset o ≠ some n) : (s.clearBlock n).reg o = s.reg o := by
  have ht : Tab.get? (s.clearBlock n).setup.regs o = Tab.get? s.setup.regs o :=
    (Tab.get?_filter (fun i => !(i != Reg.ptnCtl n && ptnOfOffset i == some n)) _ _).trans (by simp [h])
  simp only [State.reg, ht]
  rfl

/-! ### Folds -/

/-- What one turn of a fold brings about and every turn keeps holds after the fold. -/
theorem foldl_reaches {α β : Type} {P : β → Prop} {f : β → α → β} {l : List α} {a : α} (ha : a ∈ l)
    (hset : ∀ t, P (f t a)) (hkeep : ∀ t b, P t → P (f t b)) (s : β) : P (l.foldl f s) := by
  induction l generalizing s with
  | nil => simp at ha
  | cons b l ih =>
    by_cases h : a ∈ l
    · exact ih h _
    · have hb : a = b := (List.mem_cons.mp ha).resolve_right h
      subst hb
      exact List.foldlRecOn l f (hset s) (fun t ht c _ => hkeep t c ht)

/-! ### Sealed timing -/

theorem State.sealStep_eq (s : State) (n : Nat) : ∃ ds d, s.sealStep n = { s with dies := ds, dealer := d } := by
  have hd (l : List Nat) (b : Bool) :
      ∃ ds, l.foldl (fun t d => t.setDie d { t.die d with sealLost := b }) s = { s with dies := ds } :=
    List.foldlRecOn (motive := fun t : State => ∃ ds, t = { s with dies := ds }) l _ ⟨_, rfl⟩ (fun _ ⟨_, h⟩ _ _ => h ▸ ⟨_, rfl⟩)
  unfold State.sealStep
  dsimp only
  split
  · exact ⟨_, _, rfl⟩
  · obtain ⟨ds, h⟩ := hd (s.diesOf n) ((s.isOpen n && s.field (Reg.ptnSeal n) 0 0 == 1) && s.sealLapsed n)
    rw [h]
    split <;> exact ⟨_, _, rfl⟩

/-- The check of sealed timing changes flags of dies and raises events, nothing else. -/
theorem State.sealCheck_eq (s : State) : ∃ ds d, s.sealCheck = { s with dies := ds, dealer := d } := by
  refine List.foldlRecOn (motive := fun t : State => ∃ ds d, t = { s with dies := ds, dealer := d }) _ _ ⟨_, _, rfl⟩ ?_
  rintro _ ⟨ds, d, rfl⟩ n -
  obtain ⟨ds', d', h⟩ := State.sealStep_eq { s with dies := ds, dealer := d } n
  exact ⟨ds', d', h⟩

@[simp] theorem State.sealCheck_reg (s : State) (o : Nat) : s.sealCheck.reg o = s.reg o := by
  obtain ⟨ds, d, h⟩ := s.sealCheck_eq
  rw [h]
  rfl

@[simp] theorem State.sealCheck_core (s : State) (p : Nat) : s.sealCheck.core p = s.core p := by
  obtain ⟨ds, d, h⟩ := s.sealCheck_eq
  rw [h]
  rfl

/-! ### A register takes its value -/

theorem State.applyReg_reg (s : State) (o : Nat) (v : DWord) : (s.applyReg o v).reg o = v := by
  unfold State.applyReg
  dsimp only
  repeat' split
  · simp
  · exact State.reg_setReg_same s o v
  · simp

/-! ### Partitions -/

/-- A partition is shut that is not ready, or whose OPEN is 0. -/
theorem State.isOpen_of_not_ready {s : State} {n : Nat} (h : (s.ptn n).ready = false) : s.isOpen n = false := by
  simp [State.isOpen, h]

theorem State.isOpen_of_field {s : State} {n : Nat} (h : s.field (Reg.ptnCtl n) 0 0 = 0) : s.isOpen n = false := by
  simp [State.isOpen, h]

/-- No register of the package stands in a partition's block. -/
theorem ptnCtl_ne (n : Nat) {o : Nat} (h : o < 0x10000) : o ≠ Reg.ptnCtl n := by
  unfold Reg.ptnCtl Reg.ptn
  omega

theorem ptnOfOffset_low {o : Nat} (h : o < 0x10000) : ptnOfOffset o = none := if_neg (by omega)

theorem State.clearBlocks_reg {o : Nat} (h : o < 0x10000) (l : List Nat) (s : State) :
    (l.foldl (fun t n => (t.clearBlock n).setField (Reg.ptnCtl n) 0 0 0) s).reg o = s.reg o := by
  induction l generalizing s with
  | nil => rfl
  | cons n l ih =>
    rw [List.foldl_cons, ih, State.reg_setField_other _ _ _ _ (ptnCtl_ne n h),
      State.reg_clearBlock (by simp [ptnOfOffset_low h])]

/-- A new layout: PTN_LAYOUT as written, every partition shut. -/
theorem State.newLayout_effect (s : State) {v : DWord} (h : fld v 1 0 < 3) :
    (s.newLayout v).reg Reg.ptnLayout = v ∧ ∀ n, ∃ x : Ptn, (s.newLayout v).ptn n = x.shut := by
  have hv : fld v 1 0 ≠ 3 := by omega
  have hr := State.clearBlocks_reg (o := Reg.ptnLayout) (by decide) (List.range 16) (s.setReg Reg.ptnLayout v)
  unfold State.newLayout
  dsimp only
  rw [if_neg hv]
  generalize List.foldl _ (s.setReg Reg.ptnLayout v) (List.range 16) = t at hr ⊢
  refine ⟨hr.trans (State.reg_setReg_same _ _ _), fun n => ?_⟩
  simp only [State.ptn, Tab.get, Tab.get?_mapVals]
  cases Tab.get? t.ptns n with
  | none => exact ⟨Ptn.reset, rfl⟩
  | some x => exact ⟨x, rfl⟩

/-! ### A partition opens -/

/-- Scrubbing changes bytes, their check words and cached lines, nothing else. -/
theorem State.scrub_eq (s : State) (pl : Place) (n : Nat) :
    ∃ cm hm po fl, s.scrub pl n = { s with cmem := cm, hmem := hm, poison := po, flips := fl } := by
  cases pl <;> exact ⟨_, _, _, _, rfl⟩

theorem State.zeroChan_eq (s : State) (c : Nat) :
    ∃ cm hm po fl, s.zeroChan c = { s with cmem := cm, hmem := hm, poison := po, flips := fl } := by
  unfold State.zeroChan
  split
  · exact s.scrub_eq _ _
  · exact ⟨_, _, _, _, rfl⟩

theorem State.scrubPtn_eq (s : State) (n : Nat) : ∃ cm hm po fl ho ca,
    s.scrubPtn n = { s with cmem := cm, hmem := hm, poison := po, flips := fl, hold := ho, cache := ca } := by
  have hz (l : List Nat) : ∃ cm hm po fl,
      l.foldl (fun t c => t.zeroChan c) s = { s with cmem := cm, hmem := hm, poison := po, flips := fl } := by
    refine List.foldlRecOn (motive := fun t : State => ∃ cm hm po fl,
      t = { s with cmem := cm, hmem := hm, poison := po, flips := fl }) l _ ⟨_, _, _, _, rfl⟩ ?_
    rintro _ ⟨cm, hm, po, fl, rfl⟩ c -
    obtain ⟨cm', hm', po', fl', h⟩ := State.zeroChan_eq { s with cmem := cm, hmem := hm, poison := po, flips := fl } c
    exact ⟨cm', hm', po', fl', h⟩
  obtain ⟨cm, hm, po, fl, h⟩ := hz ((List.range 192).filter (fun c => s.ptnOfChan c == some n && s.chanLive c))
  unfold State.scrubPtn
  rw [h]
  exact ⟨_, _, _, _, _, _, rfl⟩

/-- Waking cores changes cores alone. -/
theorem State.wake_eq (s : State) (ps : List Nat) : ∃ cs, s.wake ps = { s with cores := cs } :=
  List.foldlRecOn (motive := fun t : State => ∃ cs, t = { s with cores := cs }) ps _ ⟨_, rfl⟩ (fun _ ⟨_, h⟩ _ _ => h ▸ ⟨_, rfl⟩)

@[simp] theorem State.wake_reg (s : State) (ps : List Nat) (o : Nat) : (s.wake ps).reg o = s.reg o := by
  obtain ⟨cs, h⟩ := s.wake_eq ps
  rw [h]
  rfl

@[simp] theorem State.wake_ptn (s : State) (ps : List Nat) (n : Nat) : (s.wake ps).ptn n = s.ptn n := by
  obtain ⟨cs, h⟩ := s.wake_eq ps
  rw [h]
  rfl

@[simp] theorem State.wake_cmem (s : State) (ps : List Nat) : (s.wake ps).cmem = s.cmem := by
  obtain ⟨cs, h⟩ := s.wake_eq ps
  rw [h]

@[simp] theorem State.wake_dealer (s : State) (ps : List Nat) : (s.wake ps).dealer = s.dealer := by
  obtain ⟨cs, h⟩ := s.wake_eq ps
  rw [h]

@[simp] theorem State.scrubPtn_reg (s : State) (n o : Nat) : (s.scrubPtn n).reg o = s.reg o := by
  obtain ⟨_, _, _, _, _, _, h⟩ := s.scrubPtn_eq n
  rw [h]
  rfl

@[simp] theorem State.scrubPtn_ptn (s : State) (n m : Nat) : (s.scrubPtn n).ptn m = s.ptn m := by
  obtain ⟨_, _, _, _, _, _, h⟩ := s.scrubPtn_eq n
  rw [h]
  rfl

@[simp] theorem State.scrubPtn_chansOf (s : State) (n m : Nat) : (s.scrubPtn n).chansOf m = s.chansOf m := by
  obtain ⟨_, _, _, _, _, _, h⟩ := s.scrubPtn_eq n
  rw [h]
  rfl

/-- Clearing a range zeroes its bytes and leaves the others. -/
theorem Mem.read_clear (m : Memory) (lo hi a : Nat) :
    Mem.read (Mem.clear m lo hi) a = if lo ≤ a ∧ a < hi then 0 else Mem.read m a := by
  induction m with
  | nil => simp [Mem.clear, Mem.read]
  | cons e m ih =>
    obtain ⟨b, x⟩ := e
    by_cases hb : b < lo ∨ hi ≤ b
    · have hc : Mem.clear ((b, x) :: m) lo hi = (b, x) :: Mem.clear m lo hi := by
        simp [Mem.clear, hb]
      simp only [hc, Mem.read, ih]
      by_cases h : b = a
      · rw [if_pos h, if_pos h, if_neg (by omega)]
      · rw [if_neg h, if_neg h]
    · have hc : Mem.clear ((b, x) :: m) lo hi = Mem.clear m lo hi := by
        simp [Mem.clear, hb]
      simp only [hc, Mem.read, ih]
      by_cases h : b = a
      · rw [if_pos (by omega), if_pos (by omega)]
      · rw [if_neg h]

/-- A channel zeroed reads zero, and no byte of another becomes anything else but zero. -/
theorem State.byteAt_zeroChan (s : State) (d c q : Nat) (hc : c < 192) (hq : q < 9512681472) :
    (s.zeroChan d).byteAt (.chan c q) = if d = c then 0 else s.byteAt (.chan c q) := by
  have hkey : cmemKey d 0 ≤ cmemKey c q ∧ cmemKey c q < cmemKey d 0 + checkBase ↔ d = c := by
    unfold cmemKey checkBase
    omega
  unfold State.zeroChan
  split
  · exact (Mem.read_clear s.cmem _ _ _).trans (ite_congr (propext hkey) (fun _ => rfl) (fun _ => rfl))
  · rw [if_neg (by omega)]
    rfl

/-- The bytes of a partition's channels in service are zero after the scrub (R460 step 1). -/
theorem State.byteAt_scrubPtn {s : State} {n c q : Nat} (hc : c < 192) (hq : q < 9512681472) (hp : s.ptnOfChan c = some n)
    (hl : s.chanLive c = true) : (s.scrubPtn n).byteAt (.chan c q) = 0 := by
  have hm : c ∈ (List.range 192).filter (fun c => s.ptnOfChan c == some n && s.chanLive c) := by simp [hc, hp, hl]
  refine foldl_reaches (P := fun t : State => t.byteAt (.chan c q) = 0) hm ?_ ?_ s
  · intro t
    rw [State.byteAt_zeroChan t c c q hc hq, if_pos rfl]
  · intro t d ht
    rw [State.byteAt_zeroChan t d c q hc hq, ht, ite_self]

/-- What a partition holds once it is open: nothing, with its frames dealt, a save area and a fence table. -/
theorem State.openPtn_ptn (s : State) (n : Nat) : ∃ sv tab, (s.openPtn n).ptn n =
    { (s.ptn n).shut with ready := true, deal := s.chansOf n, save := sv, fenceTab := tab } := by
  have hset (t : State) (hi lo x : Nat) : (t.setField (Reg.ptnCtl n) hi lo x).ptn n = t.ptn n := rfl
  have hdrew (t : State) (k : Nat) : (t.drewMany k).ptn n = t.ptn n := rfl
  have hraise (t : State) (k : EventKind) (a b : Nat) : (t.raise k a b).ptn n = t.ptn n := rfl
  simp only [State.openPtn, State.wake_ptn, hset, hdrew, hraise, State.ptn_setPtn_same, State.scrubPtn_ptn,
    State.scrubPtn_chansOf]
  exact ⟨_, _, rfl⟩

theorem State.openPtn_reg (s : State) (n o : Nat) :
    (s.openPtn n).reg o = if o = Reg.ptnCtl n then setFld (s.reg o) 0 0 1 else s.reg o := by
  have hdrew (t : State) (k : Nat) : (t.drewMany k).reg o = t.reg o := rfl
  have hptn (t : State) (x : Ptn) : (t.setPtn n x).reg o = t.reg o := rfl
  have hraise (t : State) (k : EventKind) (a b : Nat) : (t.raise k a b).reg o = t.reg o := rfl
  simp only [State.openPtn, State.wake_reg, hraise]
  split
  · next h =>
    subst h
    simp only [State.reg_setField_same, hdrew, hptn, State.scrubPtn_reg]
  · next h => simp only [State.reg_setField_other _ _ _ _ h, hdrew, hptn, State.scrubPtn_reg]

theorem State.openPtn_isOpen {s : State} {n : Nat} (h : n < s.ptnCount) : (s.openPtn n).isOpen n = true := by
  have hcount : (s.openPtn n).ptnCount = s.ptnCount := by
    simp only [State.ptnCount, State.field, State.openPtn_reg, if_neg (ptnCtl_ne n (o := Reg.ptnLayout) (by decide))]
  have hfield : (s.openPtn n).field (Reg.ptnCtl n) 0 0 = 1 := by
    rw [State.field, State.openPtn_reg, if_pos rfl]
    exact fld_setFld_same _ _ (by decide)
  obtain ⟨_, _, hp⟩ := s.openPtn_ptn n
  simp [State.isOpen, hcount, h, hfield, hp]

theorem State.openPtn_event (s : State) (n : Nat) : ∃ i, (⟨i, .ptnOpened, n, 0⟩ : Event) ∈ (s.openPtn n).dealer.events := by
  simp only [State.openPtn, State.wake_dealer]
  exact ⟨_, List.mem_append_right _ (List.mem_singleton.mpr rfl)⟩

theorem State.openPtn_byteAt (s : State) (n c q : Nat) :
    (s.openPtn n).byteAt (.chan c q) = (s.scrubPtn n).byteAt (.chan c q) := by
  simp only [State.openPtn, State.byteAt, State.wake_cmem]
  rfl

/-! ### A partition closes -/

/-- The cores of a partition that closes issue nothing (R461). -/
theorem State.closePtn_core {s : State} {n q : Nat} (h : q ∈ s.coresOf n) : ((s.closePtn n).core q).running = false := by
  have hlist : State.coresOf { (s.scrubPtn n).setPtn n (s.ptn n).shut with
      migr := (s.scrubPtn n).migr.map (fun m => if m.ptn = n then { m with frames := [] } else m) } n = s.coresOf n := by
    obtain ⟨_, _, _, _, _, _, he⟩ := s.scrubPtn_eq n
    rw [he]
    rfl
  have hblock (t : State) : ((t.clearBlock n).setField (Reg.ptnCtl n) 0 0 0).core q = t.core q := rfl
  simp only [State.closePtn, State.sealCheck_core, hblock]
  rw [← hlist] at h
  refine foldl_reaches (P := fun t : State => (t.core q).running = false) h ?_ ?_ _
  · intro t
    rw [State.core_setCore_same]
  · intro t p ht
    rw [State.core_setCore]
    split
    · rfl
    · exact ht

theorem State.closePtn_isOpen (s : State) (n : Nat) : (s.closePtn n).isOpen n = false := by
  apply State.isOpen_of_field
  simp only [State.closePtn, State.field, State.sealCheck_reg, State.reg_setField_same]
  exact fld_setFld_same _ _ (by decide)

end Sys2Proof.Machine

/-! The logbook: what each change does once its entry is stored. -/

namespace Sys2Proof.Machine

/-! ### Sessions -/

@[simp] theorem State.putBytes_meter (bs : List Byte) (s : State) (pl : Place) : (s.putBytes pl bs).meter = s.meter := by
  induction bs generalizing s pl with
  | nil => rfl
  | cons x xs ih => cases pl <;> exact ih _ _

@[simp] theorem State.hostWrite_meter (s : State) (a : Nat) (bs : List Byte) : (s.hostWrite a bs).meter = s.meter := by
  have hc (t : State) (l : List Nat) (u k : Nat) : (t.corrupt l u k).meter = t.meter := by
    unfold State.corrupt
    split <;> rfl
  unfold State.hostWrite State.store
  split
  · rfl
  · simp [hc]

/-- An answer to a request leaves the meter die's own state. -/
@[simp] theorem State.mtrAnswerPending_meter (s : State) (p : Pending) (r : Nat) : (s.mtrAnswerPending p r).meter = s.meter := by
  have hpost (t : State) (c d : Nat) (m : Mbx) : (t.postTo c d m).meter = t.meter := rfl
  unfold State.mtrAnswerPending State.mtrAnswer
  split
  · simp only [hpost]
    split <;> simp
  · rfl

@[simp] theorem State.meter_setMeter (s : State) (m : Meter) : (s.setMeter m).meter = m := rfl

/-- An agent's role is read from the meter die's sessions. -/
theorem State.roleOf_congr {s t : State} (h : t.meter = s.meter) (a : Nat) : t.roleOf a = s.roleOf a := by
  simp only [State.roleOf, h]

theorem State.roleOf_of_none {s : State} {a : Nat} (h : Tab.get? s.meter.sessions a = none) : s.roleOf a = 0 := by
  simp [State.roleOf, h]

theorem State.applySession_roleOf (s : State) (p : Pending) (a r : Nat) (l : List Nat) :
    (s.applySession p a r l).roleOf a = r := by
  refine (State.roleOf_congr (State.mtrAnswerPending_meter _ p _) a).trans ?_
  simp [State.roleOf]

/-- Ending a session leaves none of its agent, and opens none. -/
theorem State.endSession_sessions (s : State) (a b : Nat) :
    Tab.get? (s.endSession a).meter.sessions b = if b = a then none else Tab.get? s.meter.sessions b := by
  unfold State.endSession
  split
  · next h =>
    split
    · next hb => exact hb ▸ h
    · rfl
  · exact Tab.get?_erase _ _ _

@[simp] theorem State.endSession_revoked (s : State) (a : Nat) : (s.endSession a).meter.revoked = s.meter.revoked := by
  unfold State.endSession
  split <;> rfl

theorem Tab.mem_of_get? {α : Type} {t : Table α} {k : Nat} {x : α} (h : Tab.get? t k = some x) : (k, x) ∈ t := by
  induction t with
  | nil => simp at h
  | cons e t ih =>
    obtain ⟨j, y⟩ := e
    simp only [Tab.get?] at h
    split at h
    · next hj =>
      cases h
      simp [hj]
    · exact List.mem_cons_of_mem _ (ih h)

/-- A serial revoked is listed, and no session that it stands behind is left (R521). -/
theorem State.applyRevoke_effect (s : State) (p : Pending) (n : Nat) :
    n ∈ (s.applyRevoke p n).meter.revoked ∧
    ∀ a x, Tab.get? s.meter.sessions a = some x → n ∈ x.serials → (s.applyRevoke p n).roleOf a = 0 := by
  constructor
  · simp only [State.applyRevoke, State.mtrAnswerPending_meter]
    refine List.foldlRecOn (motive := fun t : State => n ∈ t.meter.revoked) _ _ (by simp) (fun t ht e _ => ?_)
    simpa using ht
  · intro a x ha hx
    apply State.roleOf_of_none
    simp only [State.applyRevoke, State.mtrAnswerPending_meter]
    have hm : (a, x) ∈ s.meter.sessions.filter (fun e => e.2.serials.contains n) := by simp [Tab.mem_of_get? ha, hx]
    refine foldl_reaches (P := fun t : State => Tab.get? t.meter.sessions a = none) hm ?_ ?_ _
    · intro t
      rw [State.endSession_sessions, if_pos rfl]
    · intro t e ht
      rw [State.endSession_sessions, ht, ite_self]

/-! ### Slots -/

theorem setAt_length {α : Type} (l : List α) (k : Nat) (x : α) : (setAt l k x).length = l.length := by
  induction l generalizing k with
  | nil => rfl
  | cons y l ih => cases k <;> simp [setAt, ih]

theorem setAt_get? {α : Type} {l : List α} {k : Nat} (x : α) (h : k < l.length) : (setAt l k x)[k]? = some x := by
  induction l generalizing k with
  | nil => simp at h
  | cons y l ih =>
    cases k with
    | zero => rfl
    | succ k => simpa [setAt] using ih (by simpa using h)

theorem MemObj.slot_setSlot {o : MemObj} {k : Nat} (x : SlotState) (h : k < o.slots.length) : (o.setSlot k x).slot k = x := by
  simp [MemObj.slot, MemObj.setSlot, setAt_get? x h]

theorem State.obj_setObj (s : State) (n i : Nat) (o : MemObj) : Tab.get? ((s.setObj n i o).ptn n).objs i = some o := by
  simp [State.setObj]

/-- A slot put in a state is in it. -/
theorem State.setObjState_slot {s : State} {n i k : Nat} {st : ObjState} {o : MemObj}
    (h : Tab.get? (s.ptn n).objs i = some o) (hk : k < o.slots.length) :
    ∃ o', Tab.get? ((s.setObjState n i k st).ptn n).objs i = some o' ∧ (o'.slot k).st = st := by
  have hraise (t : State) (e : EventKind) (a b : Nat) : (t.raise e a b).ptn n = t.ptn n := rfl
  unfold State.setObjState
  rw [h]
  dsimp only
  split
  · next hst => exact ⟨o, h, hst⟩
  · refine ⟨o.setSlot k { o.slot k with st := st }, ?_, by rw [MemObj.slot_setSlot _ hk]⟩
    split <;> simp only [hraise, State.obj_setObj]

theorem State.settleSlot_slot {s : State} {n i k : Nat} {o : MemObj} (h : Tab.get? (s.ptn n).objs i = some o)
    (hk : k < o.slots.length) : ∃ o', Tab.get? ((s.settleSlot n i k).ptn n).objs i = some o' ∧ (o'.slot k).st = .settled := by
  unfold State.settleSlot
  rw [h]
  exact State.setObjState_slot (State.obj_setObj _ _ _ _) (by simpa [MemObj.setSlot, setAt_length] using hk)

/-- The end of a command changes no object. -/
theorem State.endCmd_objs (s : State) (c : Cid) (st d j n : Nat) : ((s.endCmd c st d j).ptn n).objs = (s.ptn n).objs := by
  unfold State.endCmd
  split
  · rfl
  · unfold State.setCmd
    dsimp only
    rw [State.ptn_setPtn]
    split
    · next h => rw [h]
    · rfl

theorem State.applySettle_slot {s : State} (p : Pending) {n i k : Nat} {o : MemObj} (h : Tab.get? (s.ptn n).objs i = some o)
    (hk : k < o.slots.length) :
    ∃ o', Tab.get? ((s.applySettle p n i k).ptn n).objs i = some o' ∧ (o'.slot k).st = .settled := by
  unfold State.applySettle
  dsimp only
  split
  · rw [State.endCmd_objs]
    exact State.settleSlot_slot h hk
  · exact State.settleSlot_slot h hk

/-! ### Ports and channels -/

theorem State.applyDown_training {s : State} {k : Nat} {v : DWord} (hv : fld v 0 0 = 1) (h : (s.port k).state = 1) :
    ((s.applyDown k v).port k).state = 0 := by
  have h1 : ((s.setReg (Reg.nvPortCtl k) v).port k).state = 1 := h
  simp [State.applyDown, hv, h1]

theorem State.listRetired_effect (s : State) (c : Nat) : c ∈ (s.listRetired c).meter.retired ∧
    ∃ i, (⟨i, .memChannelRetired, c, 0⟩ : Event) ∈ (s.listRetired c).dealer.events := by
  refine ⟨?_, _, List.mem_append_right _ (List.mem_singleton.mpr rfl)⟩
  show c ∈ if s.meter.retired.contains c then s.meter.retired else c :: s.meter.retired
  split
  · next h => simpa using h
  · exact List.mem_cons_self

/-! ### What a stored entry's change does -/

theorem State.applyOpen_effect {s : State} {n : Nat} (v : DWord) (hn : n < s.ptnCount) (h : s.isOpen n = false) :
    let t := s.applyOpen n v
    t.isOpen n = true ∧ (t.ptn n).objs = [] ∧ (t.ptn n).queues = [] ∧ (t.ptn n).deal = s.chansOf n ∧
    (∀ c q, c < 192 → s.ptnOfChan c = some n → s.chanLive c = true → q < 9512681472 → t.byteAt (.chan c q) = 0) ∧
    ∃ i, (⟨i, .ptnOpened, n, 0⟩ : Event) ∈ t.dealer.events := by
  have hlow : Reg.ptnLayout ≠ Reg.ptnCtl n := ptnCtl_ne n (by decide)
  have hlayout : (s.setReg (Reg.ptnCtl n) v).reg Reg.ptnLayout = s.reg Reg.ptnLayout :=
    (State.reg_setReg _ _ _ _).trans (if_neg hlow)
  have hcount : (s.setReg (Reg.ptnCtl n) v).ptnCount = s.ptnCount := by simp only [State.ptnCount, State.field, hlayout]
  have hof (c : Nat) : (s.setReg (Reg.ptnCtl n) v).ptnOfChan c = s.ptnOfChan c := by
    simp only [State.ptnOfChan, State.field, hlayout]
    rfl
  have hchans : (s.setReg (Reg.ptnCtl n) v).chansOf n = s.chansOf n := by
    simp only [State.chansOf, State.field, hlayout, hof]
    rfl
  obtain ⟨sv, tab, hp⟩ := (s.setReg (Reg.ptnCtl n) v).openPtn_ptn n
  simp only [State.applyOpen, h, Bool.false_eq_true, ↓reduceIte, hp]
  refine ⟨State.openPtn_isOpen (hcount ▸ hn), rfl, rfl, hchans, fun c q hc hpc hl hq => ?_, State.openPtn_event _ n⟩
  rw [State.openPtn_byteAt]
  exact State.byteAt_scrubPtn hc hq ((hof c).trans hpc) hl

theorem State.applyClose_effect {s : State} {n : Nat} (v : DWord) (h : ∀ e ∈ s.ctxs, e.2.ptn ≠ n) :
    (s.applyClose n v).isOpen n = false ∧ ∀ q ∈ s.coresOf n, ((s.applyClose n v).core q).running = false := by
  have hnone : s.ctxs.any (fun e => e.2.ptn == n) = false := by
    simpa using h
  have hlayout : (s.setReg (Reg.ptnCtl n) v).reg Reg.ptnLayout = s.reg Reg.ptnLayout :=
    (State.reg_setReg _ _ _ _).trans (if_neg (ptnCtl_ne n (by decide)))
  have hcores : (s.setReg (Reg.ptnCtl n) v).coresOf n = s.coresOf n := by
    simp only [State.coresOf, State.ptnOfCore, State.field, hlayout]
    rfl
  simp only [State.applyClose, hnone, Bool.false_eq_true, ↓reduceIte]
  exact ⟨State.closePtn_isOpen _ n, fun q hq => State.closePtn_core (hcores ▸ hq)⟩

/-! ### A turn of the logbook -/

theorem State.storeEntry_reg (s : State) (p : Pending) {o : Nat} (h : o ≠ Reg.mtrStatus) :
    (s.storeEntry p).reg o = s.reg o := by
  obtain ⟨regs, hregs, hstore⟩ := s.storeEntry_eq p
  rw [hstore]
  simp only [State.reg, hregs o h]
  rfl

/-- A change whose entry cannot be stored and which is no register's is gone. -/
theorem State.logbookEntry_refused_reg {s : State} {p : Pending} {rest : List Pending} (hw : s.setup.waiting = p :: rest)
    (hb : s.setup.behind = []) {o : Nat} {x : DWord} (hc : p.change = .reg o x) (ho : p.offset = 0)
    (hf : s.logFull p = true) : s.logbookEntry = s.setSetup { s.setup with waiting := rest } := by
  have hdue : (s.setSetup { s.setup with waiting := rest }).dueEntry p = p := State.dueEntry_other _ (by simp [hc])
  have hf0 : (s.setSetup { s.setup with waiting := rest }).logFull p = true := hf
  rw [State.logbookEntry_cons hw hb, hdue, if_pos hf0]
  have hr : (s.setSetup { s.setup with waiting := rest }).refuseEntry p = s.setSetup { s.setup with waiting := rest } := by
    simp [State.refuseEntry, hc, Change.ofRequest, ho]
  rw [hr]
  exact State.freeBehind_of_nil hb

/-- A layout whose entry cannot be stored sets PTN_LAYOUT's REFUSED bit. -/
theorem State.logbookEntry_refused_layout {s : State} {p : Pending} {rest : List Pending} (hw : s.setup.waiting = p :: rest)
    (hb : s.setup.behind = []) {x : DWord} (hc : p.change = .layout x) (ho : p.offset = Reg.ptnLayout)
    (hf : s.logFull p = true) :
    s.logbookEntry = (s.setSetup { s.setup with waiting := rest }).setField Reg.ptnLayout 31 31 1 := by
  have hdue : (s.setSetup { s.setup with waiting := rest }).dueEntry p = p := State.dueEntry_other _ (by simp [hc])
  have hf0 : (s.setSetup { s.setup with waiting := rest }).logFull p = true := hf
  have hr (t : State) : t.refuseEntry p = t.setField Reg.ptnLayout 31 31 1 := by
    simp only [State.refuseEntry, hc, ho]
    rfl
  rw [State.logbookEntry_cons hw hb, hdue, if_pos hf0, hr]
  exact State.freeBehind_of_nil hb

/-- Settles O54: one turn of the logbook stores the entry of the change that has waited longest, and the change takes effect
as its kind says. -/
theorem logbookEntries : Obligations.LogbookEntries := by
  unfold Obligations.LogbookEntries
  refine ⟨fun s => ⟨fun h => ?_, fun p rest hw hb => ?_⟩, fun s p => ?_⟩
  · show Host.Outcome.next s.logbookEntry = _
    unfold State.logbookEntry
    rw [h]
  · have hexec : exec .logbookEntry s = .next s.logbookEntry := rfl
    have hfull := s.logFull_iff p
    intro s0 full
    refine ⟨fun hf o x hc ho => ?_, fun hf x hc ho => ?_, ?_⟩
    · rw [hexec, State.logbookEntry_refused_reg hw hb hc ho (hfull.mpr hf)]
    · rw [hexec, State.logbookEntry_refused_layout hw hb hc ho (hfull.mpr hf)]
    · intro q
      refine ⟨fun o hi lo x => s0.dueEntry_sealWrite, s0.dueEntry_other, fun hf => ?_⟩
      obtain ⟨hkind, hlr, hitem⟩ := s0.dueEntry_keeps p
      have hroom : ¬ s0.logFull q = true := by
        rw [State.logFull_iff, hlr]
        exact hf
      obtain ⟨regs, hregs, hstore⟩ := s0.storeEntry_eq q
      have hreg (o : Nat) (ho : o ≠ Reg.mtrStatus) : (s0.storeEntry q).reg o = s.reg o := s0.storeEntry_reg q ho
      obtain ⟨b4, b8, b30, b38, b40⟩ := s0.entryOf_bytes q
      refine ⟨s0.storeEntry q, s0.entryOf q, s0.dealer.seq + 1, ?_, ?_⟩
      · rw [hexec, State.logbookEntry_cons hw hb, if_neg hroom]
      · rw [hstore] at hreg ⊢
        rw [← hkind, ← hlr, ← hitem]
        exact ⟨s0.meter.mem_withEntry _, rfl, rfl, rfl, rfl, rfl, b4, b8, b30, b38, b40,
          List.mem_append_right _ (List.mem_singleton.mpr rfl),
          hreg, rfl, rfl, rfl⟩
  · simp only [State.applyChange]
    refine ⟨?_, ?_, ?_, ?_, ?_, ?_, ?_, ?_, ?_, ?_, ?_, ?_⟩
    · intro o v h
      rw [h]
      exact s.applyReg_reg o v
    · intro o hi lo x h
      rw [h]
      rfl
    · intro v h hv
      rw [h]
      obtain ⟨hreg, hptn⟩ := s.newLayout_effect hv
      refine ⟨hreg, fun n _ => ?_⟩
      obtain ⟨x, hx⟩ := hptn n
      exact ⟨State.isOpen_of_not_ready (by rw [hx]; rfl), by rw [hx]; rfl⟩
    · intro n v h _ hn hshut _
      rw [h]
      exact State.applyOpen_effect v hn hshut
    · intro n v h _ hctx
      rw [h]
      exact State.applyClose_effect v hctx
    · intro k v h _ hv hk
      rw [h]
      exact State.applyDown_training hv hk
    · intro v h
      rw [h]
      exact Tab.get?_set_same _ _ _
    · intro a r l h
      rw [h]
      exact s.applySession_roleOf p a r l
    · intro a h
      rw [h]
      refine (State.roleOf_congr (State.mtrAnswerPending_meter _ p _) a).trans (State.roleOf_of_none ?_)
      simp [Tab.get?_erase]
    · intro n h _
      rw [h]
      exact s.applyRevoke_effect p n
    · intro n i k o h ho hk
      rw [h]
      exact State.applySettle_slot p ho hk
    · intro c h
      rw [h]
      exact s.listRetired_effect c

end Sys2Proof.Machine

/-! Judging a write, field by field. -/

namespace Sys2Proof.Machine

/-! ### One field -/

/-- A write of v by a role is denied at field x (R552, R554). -/
def Field.denies (x : Field) (role : Nat) (old v : DWord) : Prop :=
  role ∉ x.roles ∧ ((x.acc = .rw ∨ x.acc = .rws) ∧ fld v x.hi x.lo ≠ fld old x.hi x.lo ∨
    x.acc = .w1c ∧ fld v x.hi x.lo ≠ 0 ∧ fld old x.hi x.lo ≠ 0 ∨ x.acc = .wo ∧ fld v x.hi x.lo ≠ 0)

/-- What a write of v by a role makes of field x (R11). -/
def Field.after (x : Field) (role : Nat) (old v : DWord) : Nat :=
  if role ∉ x.roles then fld old x.hi x.lo
  else match x.acc with
    | .rw => fld v x.hi x.lo
    | .rws => fld v x.hi x.lo
    | .w1c => if fld v x.hi x.lo ≠ 0 then 0 else fld old x.hi x.lo
    | _ => fld old x.hi x.lo

/-- Field x acts. -/
def Field.actsOn (x : Field) (role : Nat) (v : DWord) : Bool :=
  x.acc == .wo && fld v x.hi x.lo != 0 && x.roles.contains role

theorem judgeField_old (role : Nat) (v : DWord) (j : Judged) (x : Field) : (judgeField role v j x).old = j.old := by
  unfold judgeField
  dsimp only
  repeat' split
  all_goals rfl

theorem judgeField_denied (role : Nat) (v : DWord) (j : Judged) (x : Field) :
    (judgeField role v j x).denied = true ↔ j.denied = true ∨ x.denies role j.old v := by
  unfold judgeField Field.denies
  cases hx : x.acc with
  | ro => simp
  | w1c =>
    dsimp only
    split
    · next h0 => rcases h0 with h0 | h0 <;> simp [h0]
    · split <;> simp_all
  | rw | rws | wo =>
    dsimp only
    repeat' split
    all_goals simp_all

theorem judgeField_wo (role : Nat) (v : DWord) (j : Judged) (x : Field) :
    (judgeField role v j x).wo = j.wo + if x.actsOn role v then 2 ^ x.lo else 0 := by
  unfold judgeField Field.actsOn
  cases hx : x.acc with
  | ro | rw | rws | w1c | wo =>
    dsimp only
    repeat' split
    all_goals simp_all

/-- The bits of other fields stay. -/
theorem judgeField_other (role : Nat) (v : DWord) (j : Judged) (x : Field) {h l : Nat} (hh : h < 64)
    (hd : h < x.lo ∨ x.hi < l) : fld (judgeField role v j x).new_ h l = fld j.new_ h l := by
  have hset (n : Nat) : fld (setFld j.new_ x.hi x.lo n) h l = fld j.new_ h l := fld_setFld_other _ _ hh hd
  unfold judgeField
  cases x.acc with
  | ro => rfl
  | rw | rws | w1c =>
    dsimp only
    split
    · rfl
    · split
      · exact hset _
      · rfl
  | wo =>
    dsimp only
    split
    · rfl
    · split <;> rfl

theorem judgeField_same (role : Nat) (v : DWord) (j : Judged) (x : Field) (hh : x.hi < 64)
    (hj : fld j.new_ x.hi x.lo = fld j.old x.hi x.lo) :
    fld (judgeField role v j x).new_ x.hi x.lo = x.after role j.old v := by
  have hset (n : Nat) : fld (setFld j.new_ x.hi x.lo n) x.hi x.lo = n % 2 ^ (x.hi + 1 - x.lo) := fld_setFld_same _ _ hh
  have hv : fld v x.hi x.lo % 2 ^ (x.hi + 1 - x.lo) = fld v x.hi x.lo := Nat.mod_eq_of_lt (fld_lt _ _ _)
  unfold judgeField Field.after
  cases hx : x.acc with
  | ro => simp [hj]
  | w1c =>
    dsimp only
    split
    · next h0 => rcases h0 with h0 | h0 <;> simp [h0, hj]
    · split <;> simp_all
  | rw | rws | wo =>
    dsimp only
    repeat' split
    all_goals simp_all

/-! ### The fields of a register stand one above the other -/

/-- Fields within a register, in rising order of their bits. -/
def Field.rising : List Field → Bool
  | [] => true
  | x :: l => decide (x.lo ≤ x.hi) && decide (x.hi < 64) && l.all (fun y => x.hi < y.lo) && Field.rising l

theorem Field.rising_lt {l : List Field} (h : Field.rising l = true) : ∀ x ∈ l, x.hi < 64 := by
  induction l with
  | nil => simp
  | cons x l ih =>
    simp only [Field.rising, Bool.and_eq_true, decide_eq_true_eq] at h
    obtain ⟨⟨⟨-, h64⟩, -⟩, hrest⟩ := h
    intro y hy
    rcases List.mem_cons.mp hy with rfl | hy
    · exact h64
    · exact ih hrest y hy

/-- A form, where there is one, has rising fields. -/
def RegForm.sound : Option RegForm → Bool
  | none => true
  | some f => Field.rising f.fields

theorem RegForm.sound_ite {c : Prop} [Decidable c] {x y : Option RegForm} (hx : RegForm.sound x = true)
    (hy : RegForm.sound y = true) : RegForm.sound (if c then x else y) = true := by
  split <;> assumption

theorem pkgForm_sound (o : Nat) : RegForm.sound (pkgForm o) = true := by
  unfold pkgForm
  repeat' with_reducible refine RegForm.sound_ite ?_ ?_
  all_goals decide

theorem arrayForm_sound (o : Nat) : RegForm.sound (arrayForm o) = true := by
  unfold arrayForm
  repeat' with_reducible refine RegForm.sound_ite ?_ ?_
  all_goals decide

theorem ptnForm_sound (o : Nat) : RegForm.sound (ptnForm o) = true := by
  unfold ptnForm
  repeat' with_reducible refine RegForm.sound_ite ?_ ?_
  all_goals decide

/-- Every register's fields stand one above the other. -/
theorem regForm_rising {o : Nat} {f : RegForm} (h : regForm o = some f) : Field.rising f.fields = true := by
  have hs : RegForm.sound (regForm o) = true := by
    unfold regForm
    refine RegForm.sound_ite rfl ?_
    cases ptnOfOffset o with
    | some n => exact ptnForm_sound _
    | none =>
      refine RegForm.sound_ite (pkgForm_sound o) (RegForm.sound_ite ?_ (arrayForm_sound o))
      exact RegForm.sound_ite rfl (RegForm.sound_ite rfl rfl)
  rw [h] at hs
  exact hs

/-! ### All the fields of a register -/

theorem judgeFields_denied (role : Nat) (v : DWord) (l : List Field) (j : Judged) :
    (l.foldl (judgeField role v) j).denied = true ↔ j.denied = true ∨ ∃ x ∈ l, x.denies role j.old v := by
  induction l generalizing j with
  | nil => simp
  | cons x l ih => simp [ih, judgeField_denied, judgeField_old, or_assoc]

/-- Bits above or below every field stay. -/
theorem judgeFields_other (role : Nat) (v : DWord) {l : List Field} {h lo : Nat} (hh : h < 64)
    (hd : ∀ x ∈ l, h < x.lo ∨ x.hi < lo) (j : Judged) :
    fld (l.foldl (judgeField role v) j).new_ h lo = fld j.new_ h lo := by
  induction l generalizing j with
  | nil => rfl
  | cons x l ih =>
    rw [List.foldl_cons, ih (fun y hy => hd y (List.mem_cons_of_mem _ hy)),
      judgeField_other role v j x hh (hd x List.mem_cons_self)]

/-- A field that acts sets its WO bit above those set before. -/
theorem judgeFields_acts (role : Nat) (v : DWord) {l : List Field} (hl : Field.rising l = true) (j : Judged) (n : Nat)
    (hj : j.wo < 2 ^ n) (hn : ∀ x ∈ l, n ≤ x.lo) :
    (∀ b, b < n → (l.foldl (judgeField role v) j).wo.testBit b = j.wo.testBit b) ∧
    ∀ x ∈ l, (l.foldl (judgeField role v) j).wo.testBit x.lo = x.actsOn role v := by
  induction l generalizing j n with
  | nil => simp
  | cons x l ih =>
    simp only [Field.rising, Bool.and_eq_true, decide_eq_true_eq, List.all_eq_true] at hl
    obtain ⟨⟨⟨hlo, -⟩, habove⟩, hrest⟩ := hl
    have hx : n ≤ x.lo := hn x List.mem_cons_self
    have hwo : j.wo < 2 ^ x.lo := Nat.lt_of_lt_of_le hj (Nat.pow_le_pow_right (by decide) hx)
    have hwo' : (judgeField role v j x).wo < 2 ^ (x.lo + 1) := by
      rw [judgeField_wo, Nat.pow_succ]
      split <;> omega
    obtain ⟨hlow, hacts⟩ := ih hrest (judgeField role v j x) (x.lo + 1) hwo' (fun y hy => by have := habove y hy; omega)
    rw [List.foldl_cons]
    constructor
    · intro b hb
      rw [hlow b (by omega), judgeField_wo]
      split
      · rw [Nat.add_comm, Nat.testBit_two_pow_add_gt (by omega)]
      · rfl
    · intro y hy
      rcases List.mem_cons.mp hy with rfl | hy
      · rw [hlow _ (by omega), judgeField_wo]
        have hzero : j.wo.testBit y.lo = false := Nat.testBit_lt_two_pow hwo
        cases y.actsOn role v with
        | true => rw [if_pos rfl, Nat.add_comm, Nat.testBit_two_pow_add_eq, hzero, Bool.not_false]
        | false => simpa using hzero
      · exact hacts y hy

/-- Each field is as its own access and roles make it. -/
theorem judgeFields_same (role : Nat) (v : DWord) {l : List Field} (hl : Field.rising l = true) (j : Judged)
    (hj : ∀ x ∈ l, fld j.new_ x.hi x.lo = fld j.old x.hi x.lo) :
    ∀ x ∈ l, fld (l.foldl (judgeField role v) j).new_ x.hi x.lo = x.after role j.old v := by
  induction l generalizing j with
  | nil => simp
  | cons x l ih =>
    simp only [Field.rising, Bool.and_eq_true, decide_eq_true_eq, List.all_eq_true] at hl
    obtain ⟨⟨⟨hlo, h64⟩, habove⟩, hrest⟩ := hl
    intro y hy
    rw [List.foldl_cons]
    rcases List.mem_cons.mp hy with rfl | hy
    · rw [judgeFields_other role v h64 (fun z hz => .inl (habove z hz)), judgeField_same role v j y h64 (hj y List.mem_cons_self)]
    · have hstay (z : Field) (hz : z ∈ l) : fld (judgeField role v j x).new_ z.hi z.lo = fld j.new_ z.hi z.lo :=
        judgeField_other role v j x (Field.rising_lt hrest z hz) (.inr (habove z hz))
      have hj' (z : Field) (hz : z ∈ l) :
          fld (judgeField role v j x).new_ z.hi z.lo = fld (judgeField role v j x).old z.hi z.lo := by
        rw [hstay z hz, judgeField_old, hj z (List.mem_cons_of_mem _ hz)]
      rw [ih hrest _ hj' y hy, judgeField_old]

/-- What a write comes to, field by field and bit by bit (R11, R552). -/
theorem judge_effect {o : Nat} {f : RegForm} (h : regForm o = some f) (role : Nat) (old v : DWord) :
    (∀ x ∈ f.fields, fld (judge f role old v).new_ x.hi x.lo = x.after role old v) ∧
    (∀ x ∈ f.fields, (judge f role old v).acts x.lo = x.actsOn role v) ∧
    (∀ b, b < 64 → (∀ x ∈ f.fields, b < x.lo ∨ x.hi < b) → (judge f role old v).new_.getLsbD b = old.getLsbD b) ∧
    ((judge f role old v).denied = true ↔ ∃ x ∈ f.fields, x.denies role old v) := by
  have hr := regForm_rising h
  refine ⟨judgeFields_same role v hr _ (fun _ _ => rfl), fun x hx => ?_, fun b hb hout => ?_, ?_⟩
  · obtain ⟨-, hacts⟩ := judgeFields_acts role v hr ⟨old, old, 0, false, false⟩ 0 Nat.one_pos (fun _ _ => Nat.zero_le _)
    rw [← hacts x hx, Nat.testBit_eq_decide_div_mod_eq]
    rfl
  · have hb1 := congrArg (·.testBit 0) (judgeFields_other role v hb hout ⟨old, old, 0, false, false⟩)
    simp only [testBit_fld] at hb1
    simpa [judge] using hb1
  · simpa [judge] using judgeFields_denied role v f.fields ⟨old, old, 0, false, false⟩

end Sys2Proof.Machine

/-! A denied write: what it stores and what it raises stays recorded, whatever else it does. -/

namespace Sys2Proof.Machine

/-! ### A record of SETUP_ERR that stands -/

/-- From s to t SETUP_ERR is the same, and every event raised is still in the Dealer's log. -/
def State.ErrKept (s t : State) : Prop := t.reg Reg.setupErr = s.reg Reg.setupErr ∧ s.dealer.events ⊆ t.dealer.events

/-- The registers of a partition's block are not SETUP_ERR. -/
theorem ptn_ne_setupErr (n o : Nat) : Reg.ptn n o ≠ Reg.setupErr := by
  unfold Reg.ptn Reg.setupErr
  omega

namespace State.ErrKept

variable {s t : State}

theorem refl (s : State) : s.ErrKept s := ⟨rfl, fun _ h => h⟩

theorem trans {u : State} (h : s.ErrKept t) (h' : t.ErrKept u) : s.ErrKept u :=
  ⟨h'.1.trans h.1, fun _ he => h'.2 (h.2 he)⟩

/-- SETUP_ERR is of the set-up block alone, as its default is 0. -/
theorem of_setup (hs : t.setup = s.setup) (he : s.dealer.events ⊆ t.dealer.events) : s.ErrKept t := by
  refine ⟨?_, he⟩
  simp only [State.reg, hs]
  rfl

theorem of_dealer (hs : t.setup = s.setup) (hd : t.dealer = s.dealer) : s.ErrKept t :=
  of_setup hs (by rw [hd]; exact fun _ h => h)

theorem setReg (h : s.ErrKept t) {o : Nat} (v : DWord) (ho : o ≠ Reg.setupErr) : s.ErrKept (t.setReg o v) :=
  h.trans ⟨(State.reg_setReg _ _ _ _).trans (if_neg ho.symm), fun _ he => he⟩

theorem setField (h : s.ErrKept t) {o : Nat} (hi lo x : Nat) (ho : o ≠ Reg.setupErr) : s.ErrKept (t.setField o hi lo x) :=
  h.setReg _ ho

theorem pend (h : s.ErrKept t) (p : Pending) : s.ErrKept (t.pend p) := h.trans ⟨rfl, fun _ he => he⟩

theorem raise (h : s.ErrKept t) (k : EventKind) (a b : Nat) : s.ErrKept (t.raise k a b) :=
  h.trans ⟨rfl, fun _ he => List.mem_append_left _ he⟩

theorem setPtn (h : s.ErrKept t) (n : Nat) (x : Ptn) : s.ErrKept (t.setPtn n x) := h.trans (of_dealer rfl rfl)
theorem setObj (h : s.ErrKept t) (n i : Nat) (o : MemObj) : s.ErrKept (t.setObj n i o) := h.setPtn _ _
theorem setChan (h : s.ErrKept t) (c : Nat) (x : Chan) : s.ErrKept (t.setChan c x) := h.trans (of_dealer rfl rfl)
theorem setMeter (h : s.ErrKept t) (m : Meter) : s.ErrKept (t.setMeter m) := h.trans (of_dealer rfl rfl)
theorem setCtx (h : s.ErrKept t) (c : Nat) (x : Ctx) : s.ErrKept (t.setCtx c x) := h.trans (of_dealer rfl rfl)
theorem setWork (h : s.ErrKept t) (p : Nat) (w : Work) : s.ErrKept (t.setWork p w) := h.trans (of_dealer rfl rfl)
theorem setMigr (h : s.ErrKept t) (l : List Migration) : s.ErrKept { t with migr := l } := h.trans (of_dealer rfl rfl)
theorem drawn (h : s.ErrKept t) : s.ErrKept t.drawn := h.trans (of_dealer rfl rfl)
theorem mapQueues (h : s.ErrKept t) (n : Nat) (p : Nat → Queue → Bool) (f : Queue → Queue) :
    s.ErrKept (t.mapQueues n p f) := h.setPtn _ _

theorem ite {c : Prop} [Decidable c] {u : State} (ht : s.ErrKept t) (hu : s.ErrKept u) :
    s.ErrKept (if c then t else u) := by
  split <;> assumption

theorem foldl {α : Type} {f : State → α → State} (h : s.ErrKept t) (hf : ∀ (u : State) (a : α), u.ErrKept (f u a))
    (l : List α) : s.ErrKept (l.foldl f t) :=
  List.foldlRecOn l f h (fun u hu a _ => hu.trans (hf u a))

/-! ### Bytes, interrupts and records -/

theorem store (h : s.ErrKept t) (pl : Place) (bs : List Byte) : s.ErrKept (t.store pl bs) := by
  have hput (u : State) (q : Place) (l : List Byte) : (u.putBytes q l).dealer = u.dealer := by
    induction l generalizing u q with
    | nil => rfl
    | cons x xs ih => cases q <;> exact ih _ _
  have hcorrupt (u : State) (l : List Nat) (a b : Nat) : (u.corrupt l a b).dealer.events = u.dealer.events := by
    unfold State.corrupt
    split <;> rfl
  refine h.trans (of_setup (State.store_setup _ _ _) ?_)
  unfold State.store
  split
  · exact fun _ he => he
  · dsimp only
    rw [hcorrupt, hput]
    exact fun _ he => he

theorem hostWrite (h : s.ErrKept t) (a : Nat) (bs : List Byte) : s.ErrKept (t.hostWrite a bs) := h.store _ bs

theorem irq (h : s.ErrKept t) (v : Nat) : s.ErrKept (t.irq v) := by
  refine h.trans (of_setup (State.irq_setup t v) ?_)
  unfold State.irq State.fireIrq
  dsimp only
  split
  · exact fun _ he => he
  · split <;> exact fun _ he => he

theorem mirrorAll (h : s.ErrKept t) (n : Nat) : s.ErrKept (t.mirrorAll n) :=
  (h.raise .mirrorRewrite n 0).foldl (fun u _ => ite ((refl u).hostWrite _ _) (refl u)) _

theorem writeRecord (h : s.ErrKept t) (r : ErrRec) : s.ErrKept (t.writeRecord r) := by
  unfold State.writeRecord
  dsimp only
  split
  · exact h
  · exact h.hostWrite _ _

theorem placeRecord (h : s.ErrKept t) (r : ErrRec) : s.ErrKept (t.placeRecord r).1 := by
  unfold State.placeRecord
  dsimp only
  split
  · exact h.trans (of_dealer rfl rfl)
  · exact h.setField _ _ _ (by decide)

theorem writeKept (h : s.ErrKept t) : s.ErrKept t.writeKept := by
  have h0 : s.ErrKept (t.setDealer { t.dealer with kept := [] }) := h.trans (of_setup rfl (fun _ he => he))
  refine h0.foldl (fun u r => ?_) _
  have hplace (x : ErrRec) := ((refl u).raise .errorRecord r.detector r.suspect).placeRecord x
  exact ite (hplace _) (irq (writeRecord (hplace _) _) _)

/-! ### Objects, queues and channels -/

theorem setObjState (h : s.ErrKept t) (n i k : Nat) (st : ObjState) : s.ErrKept (t.setObjState n i k st) := by
  unfold State.setObjState
  dsimp only
  split
  · exact h
  · exact ite h (ite (((h.setObj _ _ _).raise _ _ _).raise _ _ _) ((h.setObj _ _ _).raise _ _ _))

theorem settleSlot (h : s.ErrKept t) (n i k : Nat) : s.ErrKept (t.settleSlot n i k) := by
  unfold State.settleSlot
  split
  · exact h
  · exact (h.setObj _ _ _).setObjState _ _ _ _

theorem objWrite (h : s.ErrKept t) (n i k off : Nat) (bs : List Byte) : s.ErrKept (t.objWrite n i k off bs) := by
  unfold State.objWrite
  split
  · exact h
  · refine ite h (h.foldl (fun u e => ?_) _)
    split
    · exact refl u
    · exact (refl u).store _ _

theorem restoreObj (h : s.ErrKept t) (n a : Nat) (e stream : List Byte) : s.ErrKept (t.restoreObj n a e stream).1 := by
  have hslots (u : State) (i : Nat) (j : Nat) : u.ErrKept (u.setObjState n i j .unsettled) := (refl u).setObjState _ _ _ _
  unfold State.restoreObj
  dsimp only
  split
  · exact h
  · exact ite ((((h.setObj _ _ _).objWrite _ _ _ _ _).foldl (fun u j => hslots u _ j) _).setObjState _ _ _ _)
      ((((h.setObj _ _ _).objWrite _ _ _ _ _).foldl (fun u j => hslots u _ j) _).settleSlot _ _ _)

theorem restoreDone (h : s.ErrKept t) (n r : Nat) : s.ErrKept (t.restoreDone n r) :=
  ((h.setPtn _ _).setField _ _ _ (ptn_ne_setupErr _ _)).setField _ _ _ (ptn_ne_setupErr _ _)

theorem restoreRun (h : s.ErrKept t) (n : Nat) (r : Restore) (stream : List Byte) : s.ErrKept (t.restoreRun n r stream) := by
  have hall (l : List Nat) (a : Nat → Nat) (e : Nat → List Byte) (x : State × Bool) (hx : s.ErrKept x.1) : s.ErrKept
      (l.foldl (fun (x : State × Bool) i =>
        let z := x.1.restoreObj n (a i) (e i) stream
        (z.1, x.2 || z.2)) x).1 :=
    List.foldlRecOn (motive := fun x : State × Bool => s.ErrKept x.1) l _ hx (fun y hy i _ => hy.restoreObj _ _ _ _)
  exact ite (h.restoreDone n 2) (((hall _ _ _ (t, false) h).restoreDone _ _).raise _ _ _)

theorem sendPacket (h : s.ErrKept t) (p : Packet) (d : Nat) : s.ErrKept (t.sendPacket p d) := by
  refine h.trans (of_dealer (State.sendPacket_setup t p d) ?_)
  unfold State.sendPacket
  dsimp only
  repeat' split
  all_goals rfl

theorem restoreGo (h : s.ErrKept t) (n : Nat) : s.ErrKept (t.restoreGo n) := by
  have hdone (r : Nat) := h.restoreDone n r
  unfold State.restoreGo
  dsimp only
  split
  · exact hdone 1
  · refine ite (hdone 1) (ite (hdone 5) (ite (ite (hdone 1) (h.restoreRun n _ _)) (ite (hdone 1) (ite (hdone 4) ?_))))
    exact (((h.setPtn _ _).drawn.setField _ _ _ (ptn_ne_setupErr _ _)).setField _ _ _ (ptn_ne_setupErr _ _)).sendPacket _ _

theorem reapQueue (h : s.ErrKept t) (n q : Nat) : s.ErrKept (t.reapQueue n q) := by
  unfold State.reapQueue
  dsimp only
  split
  · exact h
  · exact ite h (ite (h.setPtn _ _) (ite ((h.setPtn _ _).setField _ _ _ (ptn_ne_setupErr _ _)) h))

theorem powerOffChan (h : s.ErrKept t) (c role agent serial : Nat) : s.ErrKept (t.powerOffChan c role agent serial) := by
  unfold State.powerOffChan
  dsimp only
  refine pend ?_ _
  split
  · exact h.setChan _ _
  · exact (h.setChan _ _).setPtn _ _

theorem endMigration (h : s.ErrKept t) : s.ErrKept t.endMigration := by
  unfold State.endMigration
  split
  · exact h
  · exact ite ((h.setMigr _).powerOffChan _ _ _ _) h

theorem beginRetire (h : s.ErrKept t) (c role agent serial : Nat) : s.ErrKept (t.beginRetire c role agent serial) :=
  ((h.setChan _ _).setMigr _).endMigration

theorem beginRetrain (h : s.ErrKept t) (c : Nat) : s.ErrKept (t.beginRetrain c) := ite (h.setChan _ _) h

/-! ### A judged write, by register -/

section
variable {w : Write} (hs : w.o ≠ Reg.setupErr)
include hs

theorem accept (s : State) : s.ErrKept (s.accept w) := (refl s).setReg _ hs

theorem refuse (s : State) : s.ErrKept (s.refuse w) := by
  have hbit (b : Nat) := (refl s).setField b b 1 hs
  unfold State.refuse State.refuseReg
  split
  · exact ite ((refl s).setField _ _ _ (ptn_ne_setupErr _ _)) (ite (hbit 63) (hbit 31))
  · exact ite ((refl s).setField _ _ _ (by decide)) (ite (hbit 63) (hbit 31))

theorem loggedWrite (s : State) (bad : Bool) (c : Change) : s.ErrKept (s.loggedWrite w bad c) :=
  ite (refuse hs s) (ite ((refl s).pend _) (accept hs s))

theorem plainWrite (s : State) (bad : Bool) {after : State → State} (ha : ∀ t : State, t.ErrKept (after t)) :
    s.ErrKept (s.plainWrite w bad after) :=
  ite (refuse hs s) (ite ((accept hs s).trans (ha _)) (accept hs s))

theorem writePower (s : State) : s.ErrKept (s.writePower w) :=
  ite ((refl s).pend _) (ite (ite ((refl s).pend _) (refuse hs s)) (accept hs s))

theorem writeRing (s : State) : s.ErrKept (s.writeRing w) := by
  have hptr (c : Prop) [Decidable c] : s.ErrKept (if c then s.accept w else (s.accept w).setReg Reg.fltRingPtr 0) :=
    ite (accept hs s) ((accept hs s).setReg _ (by decide))
  exact ite (refl s) (ite (refuse hs s) (ite (hptr _) (hptr _).writeKept))

theorem writeDetour (s : State) (asked : Bool) : s.ErrKept (s.writeDetour w asked) :=
  ite (accept hs s) (ite ((refl s).pend _) (ite (loggedWrite hs s _ _) (ite (refl s) ((refl s).pend _))))

theorem writePeer (s : State) (asked : Bool) : s.ErrKept (s.writePeer w asked) := by
  refine ite (accept hs s) ?_
  split
  · exact refuse hs s
  · exact ite (refuse hs s) (ite ((accept hs s).setCtx _ _) (ite (accept hs s) ((refl s).setReg _ hs)))

theorem writeChan (s : State) : s.ErrKept (s.writeChan w) := by
  have hlist (c : Prop) [Decidable c] (m : Meter) : s.ErrKept (if c then (s.accept w).setMeter m else s.accept w) :=
    ite ((accept hs s).setMeter m) (accept hs s)
  have hretire (c : Prop) [Decidable c] (t : State) (ht : s.ErrKept t) (a b d e : Nat) :
      s.ErrKept (if c then t.beginRetire a b d e else t) := ite (ht.beginRetire a b d e) ht
  exact ite (refuse hs s) (ite ((hretire _ _ (hlist _ _) _ _ _ _).beginRetrain _) (hretire _ _ (hlist _ _) _ _ _ _))

theorem writeSched (s : State) (n : Nat) : s.ErrKept (s.writeSched n w) :=
  ite (refuse hs s) (ite (refl s) ((accept hs s).foldl (fun u p => (refl u).setWork p _) _))

theorem writeMirror (s : State) (n : Nat) : s.ErrKept (s.writeMirror n w) := by
  unfold State.writeMirror
  exact plainWrite hs s _ (fun t => ite ((refl t).mirrorAll n) (refl t))

theorem writeLimit (s : State) : s.ErrKept (s.writeLimit w) := by
  unfold State.writeLimit
  refine loggedWrite ?_ s _ _
  exact hs

theorem writeAdmin (s : State) (n : Nat) : s.ErrKept (s.writeAdmin n w) := by
  have hmap (c : Prop) [Decidable c] (p : Nat → Queue → Bool) (f : Queue → Queue) :
      s.ErrKept (if c then (s.accept w).mapQueues n p f else s.accept w) :=
    ite ((accept hs s).mapQueues n p f) (accept hs s)
  have hvector (c : Prop) [Decidable c] (p q : Nat → Queue → Bool) (f g : Queue → Queue) :=
    (hmap c p f).mapQueues n q g
  exact ite (refuse hs s) (ite ((hvector _ _ _ _ _).setPtn _ _)
    (ite ((((hvector _ _ _ _ _).setPtn _ _).setField _ _ _ hs).reapQueue _ _) (hvector _ _ _ _ _)))

theorem writePtn (s : State) (n : Nat) : s.ErrKept (s.writePtn n w) := by
  have hlog := loggedWrite hs s
  have hplain (b : Bool) := plainWrite hs s b refl
  exact ite (ite (hlog _ _) (hlog _ _)) <| ite (hlog _ _) <| ite (writeSched hs s n) <| ite (hplain _) <|
    ite (hlog _ _) <| ite (hplain _) <| ite (hplain _) <| ite (hplain _) <|
    ite (ite ((accept hs s).restoreGo _) (accept hs s)) <|
    ite (writeMirror hs s n) <| ite (writeAdmin hs s n) <| ite (hplain _) <|
    ite (plainWrite hs s _ fun _ => of_dealer rfl rfl) (accept hs s)

/-- No write but one of SETUP_ERR changes it, and none takes an event back. -/
theorem writeBy (s : State) (asked : Bool) : s.ErrKept (s.writeBy w asked) := by
  have hlog := loggedWrite hs s
  have hplain (b : Bool) := plainWrite hs s b refl
  have hpend (p : Pending) := (refl s).pend p
  unfold State.writeBy
  split
  · exact writePtn hs s _
  · rw [if_neg hs]
    exact ite (writePower hs s) <| ite (hlog _ _) <| ite (writeLimit hs s) <| ite (hplain _) <|
      ite (hplain _) <| ite (writeRing hs s) <| ite (ite (accept hs s) (ite (hpend _) (refuse hs s))) <|
      ite (ite (hpend _) (accept hs s)) <| ite (hplain _) <| ite (hplain _) <| ite (hlog _ _) <|
      ite (writeDetour hs s asked) <| ite (writePeer hs s asked) <|
      ite (ite (hpend _) (ite (hpend _) (hlog _ _))) <| ite (writeChan hs s) <|
      ite ((refl s).foldl (fun t _ => ite (refl t) ((refl t).pend _)) _) (accept hs s)

end

end State.ErrKept

/-! ### A case recorded in SETUP_ERR -/

/-- In v SETUP_ERR holds the case k of an agent's write at o, one more counted than in s; where VALID was 0, SETUP_DENIED
has been raised (R554). -/
def State.recordsErr (s v : State) (o agent k : Nat) : Prop :=
  fld (v.reg Reg.setupErr) 19 0 = o ∧ fld (v.reg Reg.setupErr) 27 20 = agent ∧ fld (v.reg Reg.setupErr) 31 28 = k ∧
  fld (v.reg Reg.setupErr) 47 32 = min 65535 (fld (s.reg Reg.setupErr) 47 32 + 1) ∧ fld (v.reg Reg.setupErr) 63 63 = 1 ∧
  (fld (s.reg Reg.setupErr) 63 63 = 0 → ∃ i, (⟨i, .setupDenied, o, k⟩ : Event) ∈ v.dealer.events)

theorem State.setupCase_reg (s : State) (o agent k : Nat) : (s.setupCase o agent k).reg Reg.setupErr =
    BitVec.ofNat 64 (o % 2 ^ 20 + 2 ^ 20 * agent + 2 ^ 28 * k + 2 ^ 32 * min 65535 (fld (s.reg Reg.setupErr) 47 32 + 1) + 2 ^ 63) := by
  have hraise (t : State) (e : EventKind) (a b : Nat) : (t.raise e a b).reg Reg.setupErr = t.reg Reg.setupErr := rfl
  unfold State.setupCase
  dsimp only
  split
  · exact State.reg_setReg_same _ _ _
  · exact (hraise _ _ _ _).trans (State.reg_setReg_same _ _ _)

theorem State.setupCase_event {s : State} (o agent k : Nat) (h : fld (s.reg Reg.setupErr) 63 63 = 0) :
    ∃ i, (⟨i, .setupDenied, o, k⟩ : Event) ∈ (s.setupCase o agent k).dealer.events := by
  have hne : fld (s.reg Reg.setupErr) 63 63 ≠ 1 := by omega
  unfold State.setupCase
  dsimp only
  rw [if_neg hne]
  exact ⟨_, List.mem_append_right _ (List.mem_singleton.mpr rfl)⟩

theorem State.setupCase_recordsErr (s : State) {o agent k : Nat} (ho : o < 2 ^ 20) (ha : agent < 2 ^ 8) (hk : k < 2 ^ 3) :
    s.recordsErr (s.setupCase o agent k) o agent k := by
  unfold State.recordsErr
  have hc : min 65535 (fld (s.reg Reg.setupErr) 47 32 + 1) ≤ 65535 := Nat.min_le_left _ _
  rw [State.setupCase_reg]
  generalize min 65535 (fld (s.reg Reg.setupErr) 47 32 + 1) = c at hc
  simp only [fld, bits, BitVec.toNat_ofNat]
  simp only [Nat.reducePow] at ho ha hk ⊢
  refine ⟨by omega, by omega, by omega, by omega, by omega, fun h => State.setupCase_event o agent k h⟩

theorem State.recordsErr.kept {s t v : State} {o agent k : Nat} (h : s.recordsErr t o agent k) (hk : t.ErrKept v) :
    s.recordsErr v o agent k := by
  obtain ⟨h0, h1, h2, h3, h4, hev⟩ := h
  unfold State.recordsErr
  rw [hk.1]
  exact ⟨h0, h1, h2, h3, h4, fun hv => (hev hv).imp fun _ hi => hk.2 hi⟩

end Sys2Proof.Machine

/-! The order of the checks of a write, and what each of them records. -/

namespace Sys2Proof.Machine

/-! ### The order of the checks -/

theorem exec_registerWrite (s : State) (o : Nat) {w : RegWrite} (h : w.agent = 1 ∨ w.agent = 2) :
    exec (.registerWrite o w) s = .next (s.setupWrite o w s.pkg.straps) := by
  have hwf : (Instr.registerWrite o w).wf = true := by
    rcases h with h | h <;> simp [Instr.wf, Instr.operands, Operand.ok, h]
  show onWf _ _ = _
  rw [onWf, if_pos hwf]

theorem State.setupWrite_waits {s : State} {o : Nat} {w : RegWrite} (st : BitVec 22) (hr : s.reaches w.agent = true)
    (ho : o % 8 = 0) (hw : s.regWaits o = true) :
    s.setupWrite o w st = s.setSetup { s.setup with behind := s.setup.behind ++ [⟨o, w, st⟩] } := by
  have hslot : o / 8 * 8 = o := by omega
  simp [State.setupWrite, hr, hslot, hw]

theorem State.setupWrite_now {s : State} {o : Nat} {w : RegWrite} (st : BitVec 22) (hr : s.reaches w.agent = true)
    (ho : o % 8 = 0) (hw : s.regWaits o = false) : s.setupWrite o w st = s.setupWriteNow o w st := by
  have hslot : o / 8 * 8 = o := by omega
  simp [State.setupWrite, hr, hslot, hw]

/-- An access fits a register where it is of all of it, or of the low half of a register of 32 bits (R548). -/
def fitsReg (w : RegWrite) (f : RegForm) : Prop := w.width = 8 ∧ w.at4 = 0 ∨ w.width = 4 ∧ w.at4 = 0 ∧ f.wide = false

/-- The value that a register of a form takes of an access (R548). -/
def regValue (w : RegWrite) (f : RegForm) : DWord :=
  if f.wide then w.value else BitVec.ofNat 64 (w.value.toNat % 2 ^ 32)

theorem State.writeNow_absent {s : State} {o : Nat} {w : RegWrite} (st : BitVec 22) (ho : o % 8 = 0) (hf : regForm o = none) :
    s.setupWriteNow o w st = s.setupCase o w.agent 4 := by
  have hslot : o / 8 * 8 = o := by omega
  simp [State.setupWriteNow, hslot, hf]

theorem State.writeNow_misfit {s : State} {o : Nat} {w : RegWrite} {f : RegForm} (st : BitVec 22) (ho : o % 8 = 0)
    (hf : regForm o = some f) (h0 : w.at4 = 0) (hw : ¬fitsReg w f) : s.setupWriteNow o w st = s.setupCase o w.agent 3 := by
  have hslot : o / 8 * 8 = o := by omega
  have hsize : (w.width = 4 → ¬f.wide = false) ∧ w.width ≠ 8 := by
    unfold fitsReg at hw
    exact ⟨fun h4 hn => hw (.inr ⟨h4, h0, hn⟩), fun h8 => hw (.inl ⟨h8, h0⟩)⟩
  simp only [State.setupWriteNow, hslot, hf, ho, h0]
  rw [if_pos]
  simpa [Decidable.imp_iff_not_or] using hsize

/-- An access that fits is judged, in a partition's block only while the partition is open or for PTN_CTL. -/
theorem State.writeNow_fits {s : State} {o : Nat} {w : RegWrite} {f : RegForm} (st : BitVec 22) (ho : o % 8 = 0)
    (hf : regForm o = some f) (hw : fitsReg w f) (hm : o < 0x4000 ∨ 0x5000 ≤ o) :
    s.setupWriteNow o w st = if (ptnOfOffset o).any (fun n => o != Reg.ptnCtl n && !s.isOpen n)
      then s.setupCase o w.agent 5 else s.judged o f w.agent (regValue w f) st := by
  have hslot : o / 8 * 8 = o := by omega
  have h0 : w.at4 = 0 := by
    unfold fitsReg at hw
    rcases hw with ⟨-, h0⟩ | ⟨-, h0, -⟩ <;> exact h0
  have hsize : w.width = 4 ∧ f.wide = false ∨ w.width = 8 := by
    unfold fitsReg at hw
    exact hw.symm.imp (fun ⟨h4, _, hn⟩ => ⟨h4, hn⟩) (fun ⟨h8, _⟩ => h8)
  have hmbx : ¬((decide (0x4000 ≤ o) && decide (o < 0x5000)) = true) := by
    simp only [Bool.and_eq_true, decide_eq_true_eq]
    omega
  have hval : (if f.wide then w.value else BitVec.ofNat 64 (fld w.value 31 0)) = regValue w f := by
    simp [regValue, fld, bits]
  simp only [State.setupWriteNow, hslot, hf, ho, h0]
  rw [if_neg (by rcases hsize with ⟨h4, hn⟩ | h8 <;> simp [*]), if_neg (by decide), if_neg hmbx, hval]
  cases ptnOfOffset o <;> rfl

/-- A write that agent 1 or 2 is denied is recorded, whatever fields of it take effect (R552, R554). -/
theorem State.judged_denied {s : State} {o : Nat} {f : RegForm} {agent : Nat} {v : DWord} (st : BitVec 22)
    (ha : agent = 1 ∨ agent = 2) (ho : o < 2 ^ 20) (herr : o ≠ Reg.setupErr) (hsel : o ≠ Reg.counterSel)
    (hd : (judge f (s.roleOf agent) (s.reg o) v).denied = true) :
    s.recordsErr (s.judged o f agent v st) o agent (if s.roleOf agent = 0 then 2 else 1) := by
  have h3 : ¬ 3 ≤ agent := by omega
  have hcase : s.recordsErr (s.setupCase o agent (if s.roleOf agent = 0 then 2 else 1)) o agent
      (if s.roleOf agent = 0 then 2 else 1) :=
    s.setupCase_recordsErr ho (by omega) (by split <;> decide)
  unfold State.judged
  rw [if_neg hsel, if_neg h3]
  dsimp only
  rw [if_pos hd]
  exact hcase.kept (State.ErrKept.writeBy herr _ _)

/-- Settles O47: the fields of a judged write by their access and roles, and the record of every write that is ignored or
denied. -/
theorem writesJudged : Obligations.WritesJudged := by
  unfold Obligations.WritesJudged
  refine ⟨fun o role f old v hf => ?_, fun s o w ha hr ho hlt => ?_⟩
  · obtain ⟨hafter, hacts, hbits, hdenied⟩ := judge_effect hf role old v
    refine ⟨fun x hx => ⟨?_, fun hwo => ?_⟩, hbits, hdenied⟩
    · rw [hafter x hx]
      rfl
    · rw [hacts x hx]
      simp [Field.actsOn, hwo]
  · have hexec := exec_registerWrite s o ha
    have hnow (h : s.regWaits o = false) := State.setupWrite_now s.pkg.straps hr ho h
    have hagent : w.agent < 2 ^ 8 := by omega
    have record (k : Nat) (hk : k < 2 ^ 3) := s.setupCase_recordsErr hlt hagent hk
    refine ⟨fun h => ?_, fun h hf => ?_, fun f h hf h0 hfit => ?_, fun f n h hf hfit hn hctl hshut => ?_,
      fun f h hf hfit hopen hm herr hsel hd => ?_⟩
    · rw [hexec, State.setupWrite_waits _ hr ho h]
    · exact ⟨_, by rw [hexec, hnow h, State.writeNow_absent _ ho hf], record 4 (by decide)⟩
    · exact ⟨_, by rw [hexec, hnow h, State.writeNow_misfit _ ho hf h0 (show ¬fitsReg w f from hfit)], record 3 (by decide)⟩
    · have hm : o < 0x4000 ∨ 0x5000 ≤ o := by
        unfold ptnOfOffset at hn
        split at hn
        · omega
        · cases hn
      refine ⟨_, ?_, record 5 (by decide)⟩
      rw [hexec, hnow h, State.writeNow_fits _ ho hf (show fitsReg w f from hfit) hm, hn]
      rw [if_pos (by simp [hctl, hshut])]
    · refine ⟨_, ?_, State.judged_denied s.pkg.straps ha hlt herr hsel hd⟩
      rw [hexec, hnow h, State.writeNow_fits _ ho hf (show fitsReg w f from hfit) hm]
      have hnone : (ptnOfOffset o).any (fun n => o != Reg.ptnCtl n && !s.isOpen n) = false := by
        cases hn : ptnOfOffset o with
        | none => rfl
        | some n => simp [hopen n hn]
      rw [hnone]
      rfl

end Sys2Proof.Machine

/-! What a report to the Dealer leaves as it was, and the record that it opens or folds into. -/

namespace Sys2Proof.Machine

/-! ### Lists and tables -/

/-- Changing the entries of a table, each under its own number. -/
theorem Tab.get?_map {α : Type} {g : Nat × α → Nat × α} (hg : ∀ e, (g e).1 = e.1) (t : Table α) (k : Nat) :
    Tab.get? (t.map g) k = (Tab.get? t k).map (fun x => (g (k, x)).2) := by
  induction t with
  | nil => rfl
  | cons e t ih =>
    simp only [List.map_cons, Tab.get?, hg, ih]
    split
    · next h => subst h; rfl
    · rfl

theorem mem_setAt {α : Type} {l : List α} {i : Nat} (x : α) (h : i < l.length) : x ∈ setAt l i x := by
  induction l generalizing i with
  | nil => cases h
  | cons y l ih =>
    cases i with
    | zero => exact List.mem_cons_self
    | succ i => exact List.mem_cons_of_mem _ (ih (Nat.lt_of_succ_lt_succ h))

/-! ### Open records, kept records, resets in progress -/

/-- What the faults logic holds of errors: the open records, those the meter die keeps, the resets in progress. -/
def State.ladder (s : State) : List ErrRec × List ErrRec × List Reset := (s.dealer.records, s.dealer.kept, s.dealer.resets)

theorem State.recorded.of_ladder {s t : State} {det u : Nat} (h : s.recorded det u) (ht : t.ladder = s.ladder) :
    t.recorded det u := by
  have hr : t.dealer.records = s.dealer.records := congrArg (·.1) ht
  rwa [State.recorded, hr]

theorem State.orders.of_ladder {s t : State} {l : Level} {u : Nat} (h : s.orders l u) (ht : t.ladder = s.ladder) :
    t.orders l u := by
  have hr : t.dealer.resets = s.dealer.resets := congrArg (·.2.2) ht
  rwa [State.orders, hr]

@[simp] theorem State.raise_ladder (s : State) (k : EventKind) (a b : Nat) : (s.raise k a b).ladder = s.ladder := rfl

@[simp] theorem State.putBytes_ladder (bs : List Byte) (s : State) (pl : Place) : (s.putBytes pl bs).ladder = s.ladder := by
  induction bs generalizing s pl with
  | nil => rfl
  | cons x xs ih => cases pl <;> exact ih _ _

@[simp] theorem State.corrupt_ladder (s : State) (l : List Nat) (t k : Nat) : (s.corrupt l t k).ladder = s.ladder := by
  unfold State.corrupt
  split <;> rfl

@[simp] theorem State.store_ladder (s : State) (pl : Place) (bs : List Byte) : (s.store pl bs).ladder = s.ladder := by
  unfold State.store
  split
  · rfl
  · exact (State.corrupt_ladder _ _ _ _).trans (State.putBytes_ladder bs s pl)

@[simp] theorem State.hostWrite_ladder (s : State) (a : Nat) (bs : List Byte) : (s.hostWrite a bs).ladder = s.ladder :=
  State.store_ladder _ _ _

@[simp] theorem State.writeRecord_ladder (s : State) (r : ErrRec) : (s.writeRecord r).ladder = s.ladder := by
  unfold State.writeRecord
  dsimp only
  split <;> simp

@[simp] theorem State.irq_ladder (s : State) (v : Nat) : (s.irq v).ladder = s.ladder := by
  unfold State.irq State.fireIrq
  dsimp only
  repeat' split
  all_goals rfl

@[simp] theorem State.placeRecord_ladder (s : State) (r : ErrRec) : (s.placeRecord r).1.ladder = s.ladder := by
  unfold State.placeRecord
  dsimp only
  split <;> rfl

/-- A record placed in the ring, or lost, names its detector and its suspect as before. -/
theorem State.placeRecord_names (s : State) (r : ErrRec) :
    (s.placeRecord r).2.detector = r.detector ∧ (s.placeRecord r).2.suspect = r.suspect := by
  unfold State.placeRecord
  dsimp only
  split <;> exact ⟨rfl, rfl⟩

/-- A report that makes a record leaves an open record of its detector and its suspect (R475, R483). -/
theorem State.reportErr_recorded (s : State) (r : Report) {det u c : Nat} (hd : r.detector = det) (hu : r.suspect = u)
    (hc : r.cls = c) (h : ¬(c = 0 ∨ c = 7)) : (s.reportErr r).recorded det u := by
  subst hd hu hc
  unfold State.reportErr
  rw [if_neg h]
  split
  · next i hi =>
    obtain ⟨hlt, hmatch, -⟩ := List.findIdx?_eq_some_iff_getElem.mp hi
    rw [List.getElem?_eq_getElem hlt]
    simp only [Bool.and_eq_true, beq_iff_eq] at hmatch
    refine State.recorded.of_ladder ⟨_, mem_setAt _ hlt, ?_⟩ (State.writeRecord_ladder _ _)
    exact hmatch
  · have hnew (p : State × ErrRec) (hp : p.2.detector = r.detector ∧ p.2.suspect = r.suspect) :
        (let t := (p.1.setDealer { p.1.dealer with records := p.1.dealer.records ++ [p.2] }).writeRecord p.2
          if p.2.slot = [] then t else t.irq (t.field Reg.fltRing 15 5)).recorded r.detector r.suspect := by
      have hlast := State.recorded.of_ladder (s := p.1.setDealer { p.1.dealer with records := p.1.dealer.records ++ [p.2] })
        ⟨p.2, List.mem_append_right _ (List.mem_singleton.mpr rfl), hp⟩ (State.writeRecord_ladder _ p.2)
      dsimp only
      split
      · exact hlast
      · exact hlast.of_ladder (State.irq_ladder _ _)
    exact hnew _ (State.placeRecord_names _ _)

/-! ### What a report leaves as it was -/

/-- From s to t nothing has changed but host memory with its check words, the counters of the links, the place in the error
ring, and the Dealer, whose resets and kept records are the same. -/
structure State.Reports (s t : State) : Prop where
  rest : { t with hmem := s.hmem, poison := s.poison, flips := s.flips, links := s.links, setup := s.setup,
                  dealer := s.dealer } = s
  resets : t.dealer.resets = s.dealer.resets
  regs : ∀ o, o ≠ Reg.fltRingPtr → t.reg o = s.reg o

namespace State.Reports

variable {s t : State}

theorem ptns (h : s.Reports t) : t.ptns = s.ptns := (congrArg State.ptns h.rest :)
theorem ctxs (h : s.Reports t) : t.ctxs = s.ctxs := (congrArg State.ctxs h.rest :)

theorem refl (s : State) : s.Reports s := ⟨rfl, rfl, fun _ _ => rfl⟩

theorem trans {u : State} (h : s.Reports t) (h' : t.Reports u) : s.Reports u := by
  refine ⟨?_, h'.resets.trans h.resets, fun o ho => (h'.regs o ho).trans (h.regs o ho)⟩
  have hu := congrArg (fun v : State => { v with
    hmem := s.hmem, poison := s.poison, flips := s.flips, links := s.links, setup := s.setup, dealer := s.dealer }) h'.rest
  exact hu.trans h.rest

theorem setDealer (h : s.Reports t) {d : Dealer} (hd : d.resets = t.dealer.resets) : s.Reports (t.setDealer d) :=
  h.trans ⟨rfl, hd, fun _ _ => rfl⟩

theorem setRecords (h : s.Reports t) (l : List ErrRec) : s.Reports (t.setDealer { t.dealer with records := l }) :=
  h.setDealer rfl

theorem raise (h : s.Reports t) (k : EventKind) (a b : Nat) : s.Reports (t.raise k a b) := h.setDealer rfl

theorem ite {c : Prop} [Decidable c] {u : State} (ht : s.Reports t) (hu : s.Reports u) : s.Reports (if c then t else u) := by
  split <;> assumption

theorem hostWrite (h : s.Reports t) (a : Nat) (bs : List Byte) : s.Reports (t.hostWrite a bs) := by
  have hput (u : State) (b : Nat) (l : List Byte) : u.Reports (u.putBytes (.host b) l) := by
    induction l generalizing u b with
    | nil => exact refl u
    | cons x xs ih =>
      have hput : u.Reports (u.putByte (.host b) x) := ⟨rfl, rfl, fun _ _ => rfl⟩
      exact hput.trans (ih _ (b + 1))
  have hcorrupt (u : State) (l : List Nat) (b k : Nat) : u.Reports (u.corrupt l b k) := by
    unfold State.corrupt
    split
    · exact refl u
    · exact ⟨rfl, rfl, fun _ _ => rfl⟩
  unfold State.hostWrite State.store
  refine h.trans (ite (refl t) (.trans ?_ (hcorrupt _ _ _ _)))
  exact (hput t a bs).trans ⟨rfl, rfl, fun _ _ => rfl⟩

theorem irq (h : s.Reports t) (v : Nat) : s.Reports (t.irq v) := by
  unfold State.irq State.fireIrq
  refine ite (h.setDealer rfl) ((h.setDealer rfl).setDealer ?_)
  split <;> rfl

theorem writeRecord (h : s.Reports t) (r : ErrRec) : s.Reports (t.writeRecord r) := by
  unfold State.writeRecord
  dsimp only
  split
  · exact h
  · exact h.hostWrite _ _

theorem placeRecord (h : s.Reports t) (r : ErrRec) : s.Reports (t.placeRecord r).1 := by
  unfold State.placeRecord
  dsimp only
  split
  · exact h.trans ⟨rfl, rfl, fun _ _ => rfl⟩
  · exact h.trans ⟨rfl, rfl, fun _ ho => State.reg_setField_other _ _ _ _ ho⟩

theorem closeRecord (h : s.Reports t) (i : Nat) : s.Reports (t.closeRecord i) := by
  unfold State.closeRecord
  split
  · exact h
  · exact ite (((h.raise _ _ _).setRecords _).writeRecord _) ((((h.raise _ _ _).setRecords _).writeRecord _).irq _)

end State.Reports

/-- What a report leaves as it was. -/
theorem State.reportErr_reports (s : State) (r : Report) : s.Reports (s.reportErr r) := by
  unfold State.reportErr
  split
  · exact .refl s
  · split
    · split
      · exact .refl s
      · exact ((State.Reports.refl s).setRecords _).writeRecord _
    · have h0 : s.Reports (if s.dealer.records.length = 16 then s.closeRecord 0 else s) :=
        .ite ((State.Reports.refl s).closeRecord 0) (.refl s)
      have hnew (p : State × ErrRec) (hp : s.Reports p.1) :=
        (hp.setRecords (p.1.dealer.records ++ [p.2])).writeRecord p.2
      have hplaced (q : ErrRec) := hnew _ ((h0.raise .errorRecord r.detector r.suspect).placeRecord q)
      exact .ite (hplaced _) ((hplaced _).irq _)

@[simp] theorem State.reportErr_pkg (s : State) (r : Report) : (s.reportErr r).pkg = s.pkg :=
  (congrArg State.pkg (s.reportErr_reports r).rest :)
@[simp] theorem State.reportErr_meter (s : State) (r : Report) : (s.reportErr r).meter = s.meter :=
  (congrArg State.meter (s.reportErr_reports r).rest :)
@[simp] theorem State.reportErr_resets (s : State) (r : Report) : (s.reportErr r).dealer.resets = s.dealer.resets :=
  (s.reportErr_reports r).resets

end Sys2Proof.Machine

/-! What stopping commands, changing object states and signalling fences leave of error records, resets, queues and running
dispatches. -/

namespace Sys2Proof.Machine

/-- From s to t the error records, the resets, the queues and the running dispatches are the same. -/
structure State.Kept (s t : State) : Prop where
  ladder : t.ladder = s.ladder
  queues : ∀ n, (t.ptn n).queues = (s.ptn n).queues
  disps : ∀ n, (t.ptn n).disps = (s.ptn n).disps

namespace State.Kept

variable {s t : State}

theorem of_ptns (hl : t.ladder = s.ladder := by rfl) (hp : t.ptns = s.ptns := by rfl) : s.Kept t :=
  ⟨hl, fun _ => by rw [State.ptn, hp]; rfl, fun _ => by rw [State.ptn, hp]; rfl⟩

theorem refl (s : State) : s.Kept s := of_ptns

theorem trans {u : State} (h : s.Kept t) (h' : t.Kept u) : s.Kept u :=
  ⟨h'.ladder.trans h.ladder, fun n => (h'.queues n).trans (h.queues n), fun n => (h'.disps n).trans (h.disps n)⟩

theorem ite {c : Prop} [Decidable c] {u : State} (ht : s.Kept t) (hu : s.Kept u) : s.Kept (if c then t else u) := by
  split <;> assumption

theorem foldl {α : Type} {f : State → α → State} (h : s.Kept t) (hf : ∀ (u : State) (a : α), u.Kept (f u a)) (l : List α) :
    s.Kept (l.foldl f t) :=
  List.foldlRecOn l f h (fun u hu a _ => hu.trans (hf u a))

theorem setPtn (h : s.Kept t) {n : Nat} {x : Ptn} (hq : x.queues = (t.ptn n).queues := by rfl)
    (hd : x.disps = (t.ptn n).disps := by rfl) : s.Kept (t.setPtn n x) := by
  refine h.trans ⟨rfl, fun m => ?_, fun m => ?_⟩
  all_goals
    rw [State.ptn_setPtn]
    split
    · next hm => subst hm; assumption
    · rfl

theorem raise (h : s.Kept t) (k : EventKind) (a b : Nat) : s.Kept (t.raise k a b) := h.trans of_ptns
theorem setObj (h : s.Kept t) (n i : Nat) (o : MemObj) : s.Kept (t.setObj n i o) := h.setPtn
theorem putFence (h : s.Kept t) (n i : Nat) (f : Fence) : s.Kept (t.putFence n i f) := h.setPtn
theorem setCmd (h : s.Kept t) (n : Nat) (k : Cmd) : s.Kept (t.setCmd n k) := h.setPtn
theorem failCmd (h : s.Kept t) (n : Nat) (k : Cmd) (st : Nat) : s.Kept (t.failCmd n k st) := h.setCmd _ _
theorem leaveCores (h : s.Kept t) (c : Cid) : s.Kept (t.leaveCores c) := h.trans of_ptns
theorem dropMove (h : s.Kept t) (c : Cid) : s.Kept (t.dropMove c) := by
  have hmoves : t.Kept (t.setPtn c.ptn { t.ptn c.ptn with moves := (t.ptn c.ptn).moves.filter (fun m => m.cid != c) }) :=
    (refl t).setPtn
  exact h.trans (hmoves.trans of_ptns)

theorem hostWrite (h : s.Kept t) (a : Nat) (bs : List Byte) : s.Kept (t.hostWrite a bs) :=
  h.trans (of_ptns (State.hostWrite_ladder _ _ _)
    ((State.Reports.refl t).hostWrite a bs).ptns)

/-! ### Fences -/

theorem mirror (h : s.Kept t) (n i : Nat) (f : Fence) : s.Kept (t.mirror n i f) := by
  unfold State.mirror
  exact ite (h.hostWrite _ _) h

theorem setFence (h : s.Kept t) (n i : Nat) (f : Fence) : s.Kept (t.setFence n i f) := by
  unfold State.setFence
  exact ite (((h.putFence _ _ _).raise _ _ _).mirror _ _ _) ((h.putFence _ _ _).raise _ _ _)

theorem sendPacket (h : s.Kept t) (p : Packet) (d : Nat) : s.Kept (t.sendPacket p d) := by
  unfold State.sendPacket
  dsimp only
  repeat' split
  all_goals exact h.trans of_ptns

theorem notify (h : s.Kept t) (n i : Nat) (c : CtxId) (e : Bool) (ws : List Waiter) : s.Kept (t.notify n i c e ws) :=
  h.foldl (fun u _ => .sendPacket .of_ptns _ _) ws

theorem signalFence (h : s.Kept t) (n i : Nat) (f : Fence) : s.Kept (t.signalFence n i f) := (h.setFence _ _ _).notify _ _ _ _ _

theorem signalAll (h : s.Kept t) (n : Nat) (is : List Nat) : s.Kept (t.signalAll n is) := by
  refine h.foldl (fun u i => ?_) is
  split
  · exact refl u
  · exact ite (refl u) ((refl u).signalFence _ _ _)

theorem ownerStep (h : s.Kept t) (n q : Nat) : s.Kept (t.ownerStep n q) := by
  unfold State.ownerStep
  split
  · exact h
  · exact ite h (h.signalAll _ _)

/-! ### Commands -/

theorem setObjState (h : s.Kept t) (n i k : Nat) (st : ObjState) : s.Kept (t.setObjState n i k st) := by
  unfold State.setObjState
  split
  · exact h
  · exact ite h (ite (((h.setObj _ _ _).raise _ _ _).raise _ _ _) ((h.setObj _ _ _).raise _ _ _))

theorem startWriter (h : s.Kept t) (n : Nat) (w : Nat × Nat) : s.Kept (t.startWriter n w) := by
  unfold State.startWriter
  split
  · exact h
  · exact ite ((h.setObj _ _ _).setObjState _ _ _ _) (h.setObj _ _ _)

theorem writes (h : s.Kept t) (c : Cid) (w : Nat × Nat) : s.Kept (t.writes c w) := by
  unfold State.writes
  exact ite ((h.setPtn).startWriter _ _) h

theorem endCmd (h : s.Kept t) (c : Cid) (st d i : Nat) : s.Kept (t.endCmd c st d i) := by
  unfold State.endCmd
  split
  · exact h
  · exact h.setCmd _ _

theorem updFail (h : s.Kept t) (c : Cid) (st i : Nat) : s.Kept (t.updFail c st i) := by
  have hw : s.Kept (match t.upd? c with | none => t | some u => t.writes c (u.obj, t.updSlot u)) := by
    split
    · exact h
    · exact h.writes _ _
  exact (((hw.setPtn).leaveCores c).dropMove c).endCmd _ _ _ _

theorem stopWork (h : s.Kept t) (c : Cid) : s.Kept (t.stopWork c) := by
  have hcores : t.Kept { t with cores := Tab.mapVals (fun k => k.setWork (k.work.stop c)) t.cores } := of_ptns
  unfold State.stopWork
  exact h.trans (ite hcores (hcores.setPtn))

end State.Kept

/-! ### Ending a dispatch -/

/-- A dispatch ended with a status and INFO, unless it has ended before (R227). -/
def Disp.endedWith (d : Disp) (st : Nat) (info : DWord) : Disp :=
  if d.status = 0 then { d with status := st, info := info } else d

/-- Ending a dispatch changes no error record, no reset and no queue. -/
theorem State.endDisp_keeps (s : State) (d : Disp) (st : Nat) (info : DWord) :
    (s.endDisp d st info).ladder = s.ladder ∧ ∀ n, ((s.endDisp d st info).ptn n).queues = (s.ptn n).queues := by
  have hset (e : Disp) : (s.setDisp e).ladder = s.ladder ∧ ∀ n, ((s.setDisp e).ptn n).queues = (s.ptn n).queues := by
    refine ⟨rfl, fun n => ?_⟩
    simp only [State.setDisp, State.ptn_setPtn]
    split
    · next h => rw [h]
    · rfl
  have hstop (t : State) : t.Kept (t.stopWork d.cid) := (State.Kept.refl t).stopWork _
  unfold State.endDisp
  split
  · exact ⟨(hstop _).ladder.trans (hset _).1, fun n => ((hstop _).queues n).trans ((hset _).2 n)⟩
  · exact ⟨(hstop _).ladder, (hstop _).queues⟩

theorem State.disp?_cid {s : State} {c : Cid} {d : Disp} (h : s.disp? c = some d) : d.cid = c := by
  simpa using List.find?_some h

/-- Replacing a dispatch changes the dispatch of its command, where there is one. -/
theorem State.disp?_setDisp (s : State) (e : Disp) (c : Cid) :
    (s.setDisp e).disp? c = (s.disp? c).map (fun d => if c = e.cid then e else d) := by
  have hcid (d : Disp) : (if d.cid = e.cid then e else d).cid = d.cid := by
    split
    · next h => exact h.symm
    · rfl
  have hfound : (s.disp? c).map (fun d => if d.cid = e.cid then e else d) =
      (s.disp? c).map (fun d => if c = e.cid then e else d) :=
    Option.map_congr fun d hd => by rw [State.disp?_cid hd]
  by_cases h : c.ptn = e.cid.ptn
  · have hmap : (s.setDisp e).disp? c = (s.disp? c).map (fun d => if d.cid = e.cid then e else d) := by
      simp only [State.setDisp, State.disp?, State.ptn_setPtn, h, if_true, List.find?_map, Function.comp_def, hcid]
    exact hmap.trans hfound
  · have hne : c ≠ e.cid := fun hc => h (congrArg Cid.ptn hc)
    simp [State.setDisp, State.disp?, State.ptn_setPtn, h, hne]

/-- Ending the running dispatch of a command ends it with the status and leaves every other dispatch as it is. -/
theorem State.endDisp_disp? {s : State} {d : Disp} (hd : s.disp? d.cid = some d) (st : Nat) (info : DWord) (c : Cid) :
    (s.endDisp d st info).disp? c = if c = d.cid then some (d.endedWith st info) else s.disp? c := by
  have hstop (t : State) : (t.stopWork d.cid).disp? c = t.disp? c := by
    simp only [State.disp?, ((State.Kept.refl t).stopWork d.cid).disps]
  unfold State.endDisp Disp.endedWith
  rw [hstop]
  by_cases h0 : d.status = 0
  · rw [if_pos h0, if_pos h0, State.disp?_setDisp]
    by_cases hc : c = d.cid
    · simp [hc, hd]
    · simp [hc]
  · rw [if_neg h0, if_neg h0]
    by_cases hc : c = d.cid
    · rw [if_pos hc, hc, hd]
    · rw [if_neg hc]

/-! ### Stopping a command -/

/-- Stopping a command ends its dispatch, where one of it runs that has not ended all its blocks; else it changes no dispatch. -/
theorem State.stopCmd_cases (s : State) (n : Nat) (k : Cmd) (st : Nat) :
    s.Kept (s.stopCmd n k st) ∨ ∃ d, s.disp? ⟨n, k.queue, k.entry⟩ = some d ∧ s.stopCmd n k st = s.endDisp d st 0 := by
  have hr := State.Kept.refl s
  unfold State.stopCmd
  dsimp only
  split
  · exact .inl hr
  · split
    · exact .inl (hr.failCmd _ _ _)
    · split
      · split
        · exact .inl (hr.endCmd _ _ _ _)
        · next d hd =>
          split
          · exact .inl hr
          · exact .inr ⟨d, hd, rfl⟩
      · split
        · exact .inl (hr.updFail _ _ _)
        · exact .inl ((hr.setPtn.dropMove _).endCmd _ _ _ _)

/-- Stopping a running dispatch that has not ended all its blocks. -/
theorem State.stopCmd_dispatch {s : State} {n : Nat} {k : Cmd} {d : Disp} (st : Nat) (hk : k.stage = .running)
    (hop : eOpcode k.raw = 2) (hd : s.disp? ⟨n, k.queue, k.entry⟩ = some d) (he : d.ended ≠ d.blocks) :
    s.stopCmd n k st = s.endDisp d st 0 := by
  simp [State.stopCmd, hk, hop, hd, he]

theorem State.stopCmd_keeps (s : State) (n : Nat) (k : Cmd) (st : Nat) :
    (s.stopCmd n k st).ladder = s.ladder ∧ ∀ m, ((s.stopCmd n k st).ptn m).queues = (s.ptn m).queues := by
  rcases s.stopCmd_cases n k st with h | ⟨d, -, h⟩
  · exact ⟨h.ladder, h.queues⟩
  · rw [h]
    exact s.endDisp_keeps d st 0

/-- Stopping commands changes no error record, no reset and no queue. -/
theorem State.cutOff_keeps (s : State) (l : List (Nat × Cmd)) (st : Nat) :
    (s.cutOff l st).ladder = s.ladder ∧ ∀ m, ((s.cutOff l st).ptn m).queues = (s.ptn m).queues :=
  List.foldlRecOn (motive := fun t : State => t.ladder = s.ladder ∧ ∀ m, (t.ptn m).queues = (s.ptn m).queues) l _
    ⟨rfl, fun _ => rfl⟩ (fun t ⟨hl, hq⟩ e _ =>
      have ⟨hl', hq'⟩ := t.stopCmd_keeps e.1 e.2 st
      ⟨hl'.trans hl, fun m => (hq' m).trans (hq m)⟩)

theorem State.stopQueues_eq (s : State) (n st : Nat) (p : Nat → Bool) :
    s.stopQueues n st p = s.cutOff (((s.ptn n).cmds.filter (fun k => p k.queue)).map (fun k => (n, k))) st := by
  simp [State.stopQueues, State.cutOff, List.foldl_map]

/-- The dispatch of a command has not ended all its blocks, and its status is one of a list. -/
def State.dispatchIn (s : State) (c : Cid) (l : List Nat) : Prop :=
  ∃ d, s.disp? c = some d ∧ d.ended ≠ d.blocks ∧ d.status ∈ l

/-- Stopping any command leaves a dispatch with its status or with that of the stop. -/
theorem State.stopCmd_dispatchIn {s : State} {c : Cid} {st : Nat} {l : List Nat} (hst : st ∈ l) (h : s.dispatchIn c l) (n : Nat)
    (k : Cmd) : (s.stopCmd n k st).dispatchIn c l := by
  obtain ⟨d, hd, he, hs⟩ := h
  rcases s.stopCmd_cases n k st with hk | ⟨e, hf, hk⟩
  · refine ⟨d, ?_, he, hs⟩
    rw [← hd]
    simp only [State.disp?, hk.disps]
  · have hcid := State.disp?_cid hf
    rw [← hcid] at hf
    rw [hk, State.dispatchIn, State.endDisp_disp? hf]
    split
    · next hc =>
      rw [hc, hf] at hd
      cases hd
      refine ⟨_, rfl, ?_⟩
      unfold Disp.endedWith
      split
      · exact ⟨he, hst⟩
      · exact ⟨he, hs⟩
    · exact ⟨d, hd, he, hs⟩

/-- A dispatch that runs and is among the commands stopped ends with the status of the stop. -/
theorem State.cutOff_ends {s : State} {n st : Nat} {k : Cmd} {l : List (Nat × Cmd)} (hl : (n, k) ∈ l)
    (hk : k.stage = .running) (hop : eOpcode k.raw = 2) (h : s.dispatchIn ⟨n, k.queue, k.entry⟩ [0, st]) :
    (s.cutOff l st).dispatchIn ⟨n, k.queue, k.entry⟩ [st] := by
  unfold State.cutOff
  induction l generalizing s with
  | nil => cases hl
  | cons e l ih =>
    rw [List.foldl_cons]
    rcases List.mem_cons.mp hl with rfl | hl
    · refine List.foldlRecOn (motive := fun t : State => t.dispatchIn _ [st]) l _ ?_ (fun t ht e _ =>
        State.stopCmd_dispatchIn (List.mem_singleton.mpr rfl) ht e.1 e.2)
      obtain ⟨d, hd, he, hs⟩ := h
      have hcid := State.disp?_cid hd
      rw [State.stopCmd_dispatch st hk hop hd he]
      rw [← hcid] at hd ⊢
      rw [State.dispatchIn, State.endDisp_disp? hd, if_pos rfl]
      refine ⟨_, rfl, ?_⟩
      unfold Disp.endedWith
      split
      · exact ⟨he, List.mem_singleton.mpr rfl⟩
      · next h0 => exact ⟨he, (List.mem_cons.mp hs).resolve_left h0⟩
    · exact ih hl (State.stopCmd_dispatchIn (by simp) h e.1 e.2)

end Sys2Proof.Machine

/-! The detectors: each reports its unit and orders the reset of its class. -/

namespace Sys2Proof.Machine

/-! ### Ordering a reset -/

theorem State.orderReset_orders (s : State) (l : Level) (t : Nat) : (s.orderReset l t).orders l t := by
  unfold State.orderReset
  split
  · next h => exact List.contains_iff_mem.mp h
  · cases l <;> exact List.mem_append_right _ (List.mem_singleton.mpr rfl)

theorem State.orderReset_recorded {s : State} {det u : Nat} (h : s.recorded det u) (l : Level) (t : Nat) :
    (s.orderReset l t).recorded det u := by
  unfold State.orderReset
  split
  · exact h
  · cases l <;> exact h

theorem State.orderReset_keptLast {s : State} {det u : Nat} (h : s.keptLast det u) (l : Level) (t : Nat) :
    (s.orderReset l t).keptLast det u := by
  unfold State.orderReset
  split
  · exact h
  · cases l <;> exact h

/-- Halting partitions changes none of their queues and dispatches. -/
theorem State.halt_ptn (s : State) (core ptn : Nat → Bool) (n : Nat) :
    ((s.halt core ptn).ptn n).queues = (s.ptn n).queues ∧ ((s.halt core ptn).ptn n).disps = (s.ptn n).disps := by
  have hg (e : Nat × Ptn) : (if ptn e.1 then (e.1, { e.2 with halted := true }) else e).1 = e.1 := by split <;> rfl
  simp only [State.halt, State.ptn, Tab.get, Tab.get?_map hg]
  cases Tab.get? s.ptns n with
  | none => exact ⟨rfl, rfl⟩
  | some x =>
    dsimp only [Option.map_some, Option.getD_some]
    split <;> exact ⟨rfl, rfl⟩

theorem State.orderReset_ptn (s : State) (l : Level) (t n : Nat) :
    ((s.orderReset l t).ptn n).queues = (s.ptn n).queues ∧ ((s.orderReset l t).ptn n).disps = (s.ptn n).disps := by
  unfold State.orderReset
  split
  · exact ⟨rfl, rfl⟩
  · cases l <;> exact State.halt_ptn _ _ _ n

@[simp] theorem State.orderReset_dies (s : State) (l : Level) (t : Nat) : (s.orderReset l t).dies = s.dies := by
  unfold State.orderReset
  split
  · rfl
  · cases l <;> rfl

@[simp] theorem State.orderReset_pkg (s : State) (l : Level) (t : Nat) : (s.orderReset l t).pkg = s.pkg := by
  unfold State.orderReset
  split
  · rfl
  · cases l <;> rfl

/-! ### Faults by class -/

theorem State.engineFault_effect (s : State) {det : Nat} (p : Nat) (inj : Bool) (hc : detClass det = 3) :
    (s.engineFault det p inj).recorded det (coreUnit p) ∧ (s.engineFault det p inj).orders .engine p := by
  exact ⟨State.orderReset_recorded (s.reportErr_recorded _ rfl rfl hc (by decide)) _ _, State.orderReset_orders _ _ _⟩

theorem State.dieFault_effect (s : State) (det u d : Nat) (inj : Bool) :
    (s.dieFault det u d inj).orders .die d ∧ (s.dieFault det u d inj).recorded det u :=
  ⟨State.orderReset_orders _ _ _, State.orderReset_recorded (s.reportErr_recorded _ (c := 5) rfl rfl rfl (by decide)) _ _⟩

/-- The record of a report of class PACKAGE is the last that the meter die keeps. -/
theorem State.keepReport_keptLast (s : State) (r : Report) : (s.keepReport r).keptLast r.detector r.suspect := by
  have hdrop (l : List ErrRec) (k : ErrRec) : (l ++ [k]).drop ((l ++ [k]).length - 16) = l.drop (l.length + 1 - 16) ++ [k] := by
    rw [List.length_append, List.length_singleton]
    exact List.drop_append_of_le_length (by omega)
  exact ⟨_, _, hdrop s.dealer.kept _, rfl, rfl⟩

/-- A fault of class PACKAGE: the package's reset, the record kept, the dies and the package's pins as they were. -/
theorem State.packageFault_effect (s : State) (r : Report) :
    let v := s.packageFault r
    v.orders .package 0 ∧ v.keptLast r.detector r.suspect ∧ v.dies = s.dies ∧ v.pkg = s.pkg :=
  ⟨State.orderReset_orders _ _ _, State.orderReset_keptLast (s.keepReport_keptLast _) _ _, State.orderReset_dies _ _ _,
    State.orderReset_pkg _ _ _⟩

/-- A rail fault is of class DIE for VCORE and, of a regulator, for VSRAM, and of class PACKAGE for any other rail (R477). -/
theorem State.railFault_effect (s : State) (det r : Nat) (inj : Bool) :
    let v := s.railFault det r inj
    if r < 4 ∨ det = 0x1F ∧ r < 8 then v.orders .die (r % 4) ∧ v.recorded det (railUnit r)
    else v.orders .package 0 ∧ v.keptLast det (railUnit r) := by
  dsimp only
  unfold State.railFault
  by_cases h : r < 4 ∨ det = 0x1F ∧ r < 8
  · rw [if_pos h, if_pos (by simpa using h)]
    exact s.dieFault_effect _ _ _ _
  · rw [if_neg h, if_neg (by simpa using h)]
    obtain ⟨horders, hkept, -⟩ := s.packageFault_effect { report det (railUnit r) with injected := inj }
    exact ⟨horders, hkept⟩

theorem State.thermalTrip_effect {s : State} {d t : Nat} (ht : 115 ≤ t) (hp : s.powered = true)
    (hs : s.pkg.start ≠ .heldTest) :
    let v := s.thermalTrip d t
    (v.die d).tripped = true ∧ (v.die d).tj = t ∧ v.pkg.thermtrip = true ∧ v.orders .package 0 ∧
      v.keptLast 0x1D (dieUnit d) := by
  have hrun : ¬(t < 115 || !s.powered || s.pkg.start == .heldTest) = true := by simp [ht, hp, hs]
  let x : Die := { s.die d with tj := t, tripped := true }
  obtain ⟨horders, hkept, hdies, hpkg⟩ :=
    ((s.setDie d x).setPkg { s.pkg with thermtrip := true }).packageFault_effect (report 0x1D (dieUnit d))
  have hdie : (s.thermalTrip d t).die d = x := by
    rw [State.thermalTrip, if_neg hrun, State.die]
    exact (congrArg (Tab.get · d Die.reset) hdies).trans (State.die_setDie_same s d x)
  dsimp only
  rw [hdie, State.thermalTrip, if_neg hrun]
  exact ⟨rfl, rfl, congrArg Pkg.thermtrip hpkg, horders, hkept⟩

/-! ### Degraded parts -/

/-- Keeper's restart on its other image. -/
theorem State.keeperTurns_effect {s : State} (h : strapEndpoint s.pkg.straps = true) :
    s.keeperTurns.pkg.keeperB = (!s.pkg.keeperB) ∧ s.keeperTurns.roleOf 1 = 0 ∧
      s.keeperTurns.dealer.resets = s.dealer.resets := by
  unfold State.keeperTurns
  dsimp only
  rw [if_pos h]
  unfold State.endSession
  split
  · next hs =>
    refine ⟨rfl, ?_, rfl⟩
    rw [State.setPkg_meter] at hs
    simp [State.roleOf, State.setMeter, hs]
  · refine ⟨rfl, ?_, rfl⟩
    simp [State.roleOf, State.setMeter, State.pend, State.setSetup, Tab.get?_erase]

theorem State.keeperRestart_effect {s : State} (inj : Bool) (h : strapEndpoint s.pkg.straps = true) :
    let v := s.keeperRestart inj
    v.pkg.keeperB = (!s.pkg.keeperB) ∧ v.roleOf 1 = 0 ∧ v.recorded 0x20 (dieUnit 4) ∧ v.dealer.resets = s.dealer.resets := by
  obtain ⟨hkeeper, hrole, hresets⟩ := State.keeperTurns_effect h
  refine ⟨?_, ?_, State.reportErr_recorded _ _ (c := 1) rfl rfl rfl (by decide), ?_⟩
  · simpa [State.keeperRestart] using hkeeper
  · simpa [State.keeperRestart, State.roleOf] using hrole
  · simpa [State.keeperRestart] using hresets

theorem State.jointReport_effect (s : State) (j : Nat) (inj : Bool) :
    let v := s.jointReport j (jointUnit j) inj
    v.pkg = s.pkg ∧ v.recorded 0x0C (jointUnit j) ∧ (j < 4 → v.raised .pathChange j 0) ∧ v.dealer.resets = s.dealer.resets := by
  have hr := s.reportErr_recorded { report 0x0C (jointUnit j) with injected := inj } (c := 1) rfl rfl rfl (by decide)
  dsimp only
  unfold State.jointReport
  split
  · exact ⟨State.reportErr_pkg _ _, hr, fun _ => ⟨_, List.mem_append_right _ (List.mem_singleton.mpr rfl)⟩,
      State.reportErr_resets _ _⟩
  · next h => exact ⟨State.reportErr_pkg _ _, hr, fun hj => absurd hj h, State.reportErr_resets _ _⟩

theorem State.jointDown_effect {s : State} {j : Nat} (h : Tab.get? s.pkg.joints j = none) :
    let v := s.jointDown j
    Tab.get? v.pkg.joints j = some true ∧ v.recorded 0x0C (jointUnit j) ∧ (j < 4 → v.raised .pathChange j 0) ∧
      v.dealer.resets = s.dealer.resets := by
  dsimp only
  unfold State.jointDown
  rw [if_neg (by simp [h])]
  obtain ⟨hpkg, hrec, hraised, hresets⟩ :=
    (s.setPkg { s.pkg with joints := Tab.set s.pkg.joints j true }).rerouted.jointReport_effect j false
  exact ⟨by rw [hpkg]; exact Tab.get?_set_same _ _ _, hrec, hraised, hresets⟩

/-- The PCIe ports held in reset or without power. -/
theorem State.pciePort_held {s : State} {k : Nat} (hk : k < 2) : s.pciePort k = .held ↔
    s.powered = false ∨ s.pkg.start = .heldTest ∨ strapEndpoint s.pkg.straps = true ∧ k = 1 := by
  unfold State.pciePort
  by_cases hp : s.powered = false
  · simp [hp]
  · by_cases hs : s.pkg.start = .heldTest
    · simp [hs]
    · have h2 : ¬2 ≤ k := by omega
      cases he : strapEndpoint s.pkg.straps with
      | false => simp [hp, hs, h2]
      | true =>
        by_cases h0 : k = 0
        · simp [hp, hs, h0]
        · have h1 : k = 1 := by omega
          simp [hp, hs, h1]

/-! ### The hang watchdog -/

/-- A dispatch runs for command c, some block of it not ended, in a queue of one of the contexts listed. -/
def State.suspectDispatch (s : State) (l : List CtxId) (c : Cid) : Prop :=
  ∃ d k x, s.disp? c = some d ∧ d.status = 0 ∧ d.ended ≠ d.blocks ∧ s.cmd? c = some k ∧ k.stage = .running ∧
    eOpcode k.raw = 2 ∧ c.queue ≠ 0 ∧ s.queue? c.ptn c.queue = some x ∧ x.ctx ∈ l

/-- HANG outside solo mode: the partition's reset, and the end of a suspect's dispatch (R486). -/
theorem State.hangReset_effect (s : State) (n : Nat) (l : List CtxId) :
    (s.hangReset n l).orders .partition n ∧ (∀ det u, s.recorded det u → (s.hangReset n l).recorded det u) ∧
    ∀ q e, s.suspectDispatch l ⟨n, q, e⟩ → ∃ d, (s.hangReset n l).disp? ⟨n, q, e⟩ = some d ∧ d.status = St.hangDetected := by
  refine ⟨State.orderReset_orders _ _ _, fun det u h => ?_, ?_⟩
  · exact State.orderReset_recorded (h.of_ladder (s.cutOff_keeps _ _).1) _ _
  · rintro q e ⟨d, k, x, hd, h0, he, hk, hrun, hop, hq, hx, hl⟩
    obtain ⟨hmem, rfl, rfl⟩ : k ∈ (s.ptn n).cmds ∧ k.queue = q ∧ k.entry = e :=
      ⟨List.mem_of_find?_eq_some hk, by simpa using List.find?_some hk⟩
    have hmine : (n, k) ∈ ((s.ptn n).cmds.filter (fun k => k.queue != 0 && k.stage == .running &&
        (s.queue? n k.queue).any (fun x => l.contains x.ctx))).map (fun k => (n, k)) :=
      List.mem_map_of_mem (List.mem_filter.mpr ⟨hmem, by simp [show k.queue ≠ 0 from hq, hrun, show _ = some x from hx, hl]⟩)
    obtain ⟨d', hd', -, hs'⟩ := State.cutOff_ends (st := St.hangDetected) hmine hrun hop ⟨d, hd, he, by simp [h0]⟩
    refine ⟨d', ?_, List.mem_singleton.mp hs'⟩
    rw [← hd']
    simp only [State.hangReset, State.disp?, (State.orderReset_ptn _ _ _ _).2]

/-- Changing queues by number. -/
theorem State.mapQueues_queue? (s : State) (n : Nat) (p : Nat → Bool) (f : Queue → Queue) (i : Nat) :
    (s.mapQueues n (fun q _ => p q) f).queue? n i = (s.queue? n i).map (fun x => if p i then f x else x) := by
  have hg (e : Nat × Queue) : (if p e.1 then (e.1, f e.2) else e).1 = e.1 := by split <;> rfl
  simp only [State.queue?, State.mapQueues, State.ptn_setPtn_same, Tab.get?_map hg]
  congr 1
  funext x
  split <;> rfl

theorem Ptn.mem_queuesOf {x : Ptn} {i : Nat} {q : Queue} {c : CtxId} (h : Tab.get? x.queues i = some q) (hi : i ≠ 0)
    (hc : q.ctx = c) : i ∈ x.queuesOf c none :=
  List.mem_map.mpr ⟨(i, q), List.mem_filter.mpr ⟨Tab.mem_of_get? h, by simp [hi, hc]⟩, rfl⟩

/-- Revoking a context's queues changes no error record and no reset, and marks each of them. -/
theorem State.revokeQueues_effect (s : State) (n : Nat) (c : CtxId) (st : Nat) :
    (s.revokeQueues n c none st).ladder = s.ladder ∧ ∀ (i : Nat) (x : Queue), s.queue? n i = some x → i ≠ 0 → x.ctx = c →
      (s.revokeQueues n c none st).queue? n i = some { x with revoked := true } := by
  unfold State.revokeQueues
  dsimp only
  rw [State.stopQueues_eq]
  obtain ⟨hladder, hqueues⟩ := State.cutOff_keeps ((s.setPtn n { s.ptn n with fences := (s.ptn n).fences.map (fun e =>
    if ((s.ptn n).fencesOf c none).contains e.1 then (e.1, { e.2 with revoked := true }) else e) }).mapQueues n
      (fun q _ => ((s.ptn n).queuesOf c none).contains q) (fun y => { y with revoked := true })) _ st
  refine ⟨hladder, fun i x hx hi hc => ?_⟩
  rw [State.queue?, hqueues]
  refine (State.mapQueues_queue? _ _ _ _ _).trans ?_
  have hmem := List.contains_iff_mem.mpr (Ptn.mem_queuesOf hx hi hc)
  rw [State.queue?, State.ptn_setPtn_same, show Tab.get? _ i = some x from hx, Option.map_some, if_pos hmem]

/-- HANG in solo mode: the core's reset, and the solo context's queues stopped for good (R487). -/
theorem State.hangSolo_effect (s : State) (n p : Nat) :
    (s.hangSolo n p).orders .engine p ∧ (∀ det u, s.recorded det u → (s.hangSolo n p).recorded det u) ∧
    ∀ (i : Nat) (x : Queue) (c : Ctx), i ≠ 0 → s.queue? n i = some x → x.ctx = ⟨s.field (Reg.fltSolo n) 11 0, c.gen⟩ →
      Tab.get? s.ctxs (s.field (Reg.fltSolo n) 11 0) = some c →
      ∃ y, (s.hangSolo n p).queue? n i = some y ∧ y.stopped = true ∧ y.revoked = true := by
  have hkept (t : State) (l : List Nat) : t.Kept (l.foldl (fun u q => u.ownerStep n q) t) :=
    (State.Kept.refl t).foldl (fun u q => (State.Kept.refl u).ownerStep n q) l
  have hladder : (s.hangSolo n p).ladder = (s.orderReset .engine p).ladder :=
    (hkept _ _).ladder.trans (State.revokeQueues_effect _ _ _ _).1
  refine ⟨(s.orderReset_orders _ _).of_ladder hladder, fun det u h => (State.orderReset_recorded h _ _).of_ladder hladder, ?_⟩
  intro i x c hi hx hctx hc
  have hqueue : (s.orderReset .engine p).queue? n i = some x := by
    rw [State.queue?, (s.orderReset_ptn _ _ _).1]
    exact hx
  have hrevoked := (State.revokeQueues_effect (s.orderReset .engine p) n x.ctx St.hangRepeated).2 i x hqueue hi rfl
  refine ⟨{ x with revoked := true, stopped := true }, ?_, rfl, rfl⟩
  unfold State.hangSolo
  dsimp only
  rw [State.queue?, (hkept _ _).queues]
  refine (State.mapQueues_queue? _ _ _ _ _).trans ?_
  simp only [hc, Option.map_some, Option.getD_some, ← hctx]
  rw [hrevoked, Option.map_some, if_pos]
  exact List.contains_iff_mem.mpr (Ptn.mem_queuesOf hx hi rfl)

theorem fltSolo_ne (n : Nat) : Reg.fltSolo n ≠ Reg.fltRingPtr := by
  unfold Reg.fltSolo Reg.ptn Reg.fltRingPtr
  omega

/-- HANG makes a record of the suspect core, then does what its partition's mode asks. -/
theorem State.hangAt_eq (s : State) (n p : Nat) (l : List CtxId) (d0 pc : Nat) (inj : Bool) :
    ∃ t : State, s.Reports t ∧ t.recorded 0x15 (coreUnit p) ∧
      s.hangAt n p l d0 pc inj = if s.soloMode n then t.hangSolo n p else t.hangReset n (s.suspects p) := by
  refine ⟨_, s.reportErr_reports _, s.reportErr_recorded _ rfl rfl rfl ?_, rfl⟩
  dsimp only
  split <;> decide

theorem State.hangAt_reset {s : State} {n : Nat} (hsolo : s.soloMode n = false) (p : Nat) (l : List CtxId) (d0 pc : Nat)
    (inj : Bool) :
    let v := s.hangAt n p l d0 pc inj
    v.orders .partition n ∧ v.recorded 0x15 (coreUnit p) ∧
    ∀ q e, s.suspectDispatch (s.suspects p) ⟨n, q, e⟩ → ∃ d, v.disp? ⟨n, q, e⟩ = some d ∧ d.status = St.hangDetected := by
  obtain ⟨t, hrep, hrec, hat⟩ := s.hangAt_eq n p l d0 pc inj
  have hptn (m : Nat) : t.ptn m = s.ptn m := by rw [State.ptn, hrep.ptns]; rfl
  obtain ⟨horders, hrecorded, hends⟩ := t.hangReset_effect n (s.suspects p)
  simp only [State.suspectDispatch, State.disp?, State.cmd?, State.queue?, hptn] at hends
  dsimp only
  rw [hat, if_neg (by simp [hsolo])]
  exact ⟨horders, hrecorded _ _ hrec, hends⟩

theorem State.hangAt_solo {s : State} {n : Nat} (hsolo : s.soloMode n = true) (p : Nat) (l : List CtxId) (d0 pc : Nat)
    (inj : Bool) :
    let v := s.hangAt n p l d0 pc inj
    v.orders .engine p ∧ v.recorded 0x15 (coreUnit p) ∧
    ∀ (i : Nat) (x : Queue) (c : Ctx), i ≠ 0 → s.queue? n i = some x → x.ctx = ⟨s.field (Reg.fltSolo n) 11 0, c.gen⟩ →
      Tab.get? s.ctxs (s.field (Reg.fltSolo n) 11 0) = some c →
      ∃ y, v.queue? n i = some y ∧ y.stopped = true ∧ y.revoked = true := by
  obtain ⟨t, hrep, hrec, hat⟩ := s.hangAt_eq n p l d0 pc inj
  have hqueue (i : Nat) : t.queue? n i = s.queue? n i := by rw [State.queue?, State.ptn, hrep.ptns]; rfl
  have hfield : t.field (Reg.fltSolo n) 11 0 = s.field (Reg.fltSolo n) 11 0 := by
    rw [State.field, hrep.regs _ (fltSolo_ne n)]
    rfl
  obtain ⟨horders, hrecorded, hstopped⟩ := t.hangSolo_effect n p
  simp only [hqueue, hfield, hrep.ctxs] at hstopped
  dsimp only
  rw [hat, if_pos hsolo]
  exact ⟨horders, hrecorded _ _ hrec, hstopped⟩

/-- The watchdog fires for a running dispatch that has a group on a core of its partition. -/
theorem State.hang_fires {s : State} {n q e : Nat} {d : Disp} {p slot : Nat} {g : Group} (hd : s.disp? ⟨n, q, e⟩ = some d)
    (h0 : d.status = 0) (hp : (s.coresOf n).find? (fun c => ((s.work c).groupOf ⟨n, q, e⟩).isSome) = some p)
    (hg : (s.work p).groupOf ⟨n, q, e⟩ = some (slot, g)) :
    s.hang n q e = s.hangAt n p [d.ctx] (g.active.toNat + 2 ^ 32 * slot + 2 ^ 38 * p) g.pc false := by
  simp [State.hang, hd, hp, hg, h0]

theorem Instr.wf_of_operand {i : Instr} {o : Operand} (hi : i.operands = [o]) (ho : o.ok = true) : i.wf = true := by
  simp [Instr.wf, hi, ho]

/-- Settles O58: each detector's report, and the reset that its class orders. -/
theorem detectors : Obligations.Detectors := by
  unfold Obligations.Detectors
  refine ⟨fun s p n r d t hp hn hr hd => ?_, fun s j port hj hport => ?_, fun s n q e hn hq => ?_⟩
  · have hhandshake : exec (.handshake p) s = .next (s.engineFault 0x16 p false) :=
      onWf_next (Instr.wf_of_operand rfl (decide_eq_true hp))
    have hstall : exec (.qmStall n) s = .next (if s.isOpen n then
        s.dieFault 0x17 (unitCode 11 ((s.diesOf n).headD 0) 0) ((s.diesOf n).headD 0) false else s) :=
      onWf_next (Instr.wf_of_operand rfl (decide_eq_true hn))
    have hsupply : exec (.supplyLow r) s = .next (if s.powered then s.railFault 0x1E r false else s) :=
      onWf_next (Instr.wf_of_operand rfl (decide_eq_true hr))
    have hregulator : exec (.regulatorFault r) s = .next (if s.powered then s.railFault 0x1F r false else s) :=
      onWf_next (Instr.wf_of_operand rfl (decide_eq_true hr))
    have htrip : exec (.thermalTrip d t) s = .next (s.thermalTrip d t) :=
      onWf_next (Instr.wf_of_operand rfl (decide_eq_true hd))
    refine ⟨⟨_, hhandshake, s.engineFault_effect p false (by decide)⟩, fun h => ?_, fun h => ?_, fun h => ?_,
      fun h => ?_, fun h => ?_, fun h => ?_, fun ht hw hs => ⟨_, htrip, State.thermalTrip_effect ht hw hs⟩⟩
    · rw [hstall, if_neg (by simp [h])]
    · exact ⟨_, by rw [hstall, if_pos h], s.dieFault_effect _ _ _ _⟩
    · rw [hsupply, hregulator]
      simp [h]
    · refine ⟨_, by rw [hsupply, if_pos h], ?_⟩
      have heffect := s.railFault_effect 0x1E r false
      split
      · next h4 => simpa [h4, Nat.mod_eq_of_lt h4] using heffect
      · next h4 => simpa [h4] using heffect
    · refine ⟨_, by rw [hregulator, if_pos h], ?_⟩
      have heffect := s.railFault_effect 0x1F r false
      have hrails : (r < 4 ∨ r < 8) ↔ r < 8 := by omega
      simpa only [true_and, hrails] using heffect
    · rw [htrip, State.thermalTrip, if_pos (by rcases h with h | h | h <;> simp [h])]
  · have hjoint : exec (.jointDown j) s = .next (s.jointDown j) := onWf_next (Instr.wf_of_operand rfl (decide_eq_true hj))
    have hpcie : exec (.pcieError port) s =
        .next (if s.pciePort port == .held then s else s.reportErr (report 0x22 (dieUnit 4))) :=
      onWf_next (Instr.wf_of_operand rfl (decide_eq_true hport))
    have hkeeper : exec .keeperWatchdog s =
        .next (if s.pkg.start == .complete && strapEndpoint s.pkg.straps then s.keeperRestart false else s) := rfl
    refine ⟨fun hs he => ⟨_, by rw [hkeeper, if_pos (by simp [hs, he])], State.keeperRestart_effect false he⟩,
      fun h => ?_, fun h => ?_, fun h => ⟨_, hjoint, State.jointDown_effect h⟩, fun h => ?_, fun h => ?_⟩
    · rw [hkeeper, if_neg (by rcases h with h | h <;> simp [h])]
    · rw [hjoint, State.jointDown, if_pos h]
    · rw [hpcie, if_pos (by simpa using (State.pciePort_held hport).mpr h)]
    · exact ⟨_, by rw [hpcie, if_neg (by simpa using mt (State.pciePort_held hport).mp h)],
        s.reportErr_recorded _ (c := 1) rfl rfl rfl (by decide), State.reportErr_resets _ _⟩
  · have hhang : exec (.hang n q e) s = .next (s.hang n q e) :=
      onWf_next (by simp [Instr.wf, Instr.operands, Operand.ok, hn, hq])
    refine ⟨fun h => by rw [hhang, State.hang, h], fun d p slot g hd h0 hp hg => ?_⟩
    rw [hhang, State.hang_fires hd h0 hp hg]
    refine ⟨fun hsolo => ⟨_, rfl, ?_⟩, fun hsolo => ⟨_, rfl, State.hangAt_solo hsolo _ _ _ _ _⟩⟩
    obtain ⟨horders, hrecorded, hends⟩ := State.hangAt_reset hsolo p [d.ctx] _ g.pc false
    exact ⟨horders, hrecorded, fun k x hk hq0 hx hrun hop hl he =>
      hends q e ⟨d, k, x, hd, h0, he, hk, hrun, hop, hq0, hx, hl⟩⟩

end Sys2Proof.Machine

/-! What a command leaves of the queue of commands: folds, and what a row does at issue. -/

namespace Sys2Proof.Machine

/-- What every turn of a fold keeps, the fold keeps. -/
theorem foldl_keeps {α β γ : Type} (g : β → γ) {f : β → α → β} (hf : ∀ b a, g (f b a) = g b) (l : List α)
    (b : β) : g (l.foldl f b) = g b := by
  induction l generalizing b with
  | nil => rfl
  | cons a l ih => rw [List.foldl_cons, ih, hf]

/-- What every turn of a fold that may fail keeps where it goes on, the fold keeps. -/
theorem foldl_bind_keeps {α β γ : Type} (g : β → γ) {f : β → α → Option β} (hf : ∀ b a c, f b a = some c → g c = g b)
    {l : List α} {r : Option β} {x : β} (h : l.foldl (fun r a => r.bind (fun b => f b a)) r = some x) :
    ∃ b, r = some b ∧ g x = g b := by
  induction l generalizing r with
  | nil => exact ⟨x, h, rfl⟩
  | cons a l ih =>
    obtain ⟨c, hc, hx⟩ := ih h
    obtain ⟨b, rfl, hb⟩ := Option.bind_eq_some_iff.mp hc
    exact ⟨b, rfl, hx.trans (hf b a c hb)⟩

theorem State.foldl_pending {α : Type} {f : State → α → State} (hf : ∀ t a, (f t a).pending = t.pending) (l : List α)
    (s : State) : (l.foldl f s).pending = s.pending := foldl_keeps State.pending hf l s

/-- The same, in the shape whose hypothesis simp can discharge also where a turn keeps the queue by rfl. -/
theorem State.foldl_pending_of_eq {α : Type} {f : State → α → State}
    (hf : ∀ t a u, f t a = u → u.pending = t.pending) (l : List α) (s : State) : (l.foldl f s).pending = s.pending :=
  State.foldl_pending (fun t a => hf t a _ rfl) l s

/-- The same for a fold that carries something beside the state. -/
theorem State.foldl_fst_pending {α β : Type} {f : State × β → α → State × β}
    (hf : ∀ x a, (f x a).1.pending = x.1.pending) (l : List α) (x : State × β) : (l.foldl f x).1.pending = x.1.pending :=
  foldl_keeps (·.1.pending) hf l x

/-- What an instruction does at issue leaves the queue of commands as it is in s. -/
def Issued.Queued (s : State) : Issued → Prop
  | .fault _ => True
  | .done t => t.pending = s.pending

@[simp] theorem Issued.queued_fault (s : State) (st : Nat) : (Issued.fault st).Queued s := trivial
@[simp] theorem Issued.queued_done (s t : State) : (Issued.done t).Queued s ↔ t.pending = s.pending := Iff.rfl

end Sys2Proof.Machine

/-! What a command leaves of the queue of commands: the state, its memories and the stash. -/

namespace Sys2Proof.Machine

/-! ### Operations on the state (Ops) -/

@[simp] theorem State.fireIrq_pending (s : State) (v : Nat) : (s.fireIrq v).pending = s.pending := rfl

@[simp] theorem State.irq_pending (s : State) (v : Nat) : (s.irq v).pending = s.pending := by
  unfold State.irq
  dsimp only
  split <;> rfl

@[simp] theorem State.putBytes_pending (bs : List Byte) (s : State) (pl : Place) :
    (s.putBytes pl bs).pending = s.pending := by
  induction bs generalizing s pl with
  | nil => rfl
  | cons x xs ih => cases pl <;> exact ih _ _

@[simp] theorem State.corrupt_pending (s : State) (dets : List Nat) (target key : Nat) :
    (s.corrupt dets target key).pending = s.pending := by
  unfold State.corrupt
  split <;> rfl

@[simp] theorem State.store_pending (s : State) (pl : Place) (bs : List Byte) : (s.store pl bs).pending = s.pending := by
  unfold State.store
  split <;> simp

@[simp] theorem State.hostWrite_pending (s : State) (a : Nat) (bs : List Byte) :
    (s.hostWrite a bs).pending = s.pending := by
  simp [State.hostWrite]

@[simp] theorem State.setObj_pending (s : State) (n i : Nat) (o : MemObj) : (s.setObj n i o).pending = s.pending := rfl

@[simp] theorem State.setObjState_pending (s : State) (n i k : Nat) (st : ObjState) :
    (s.setObjState n i k st).pending = s.pending := by
  unfold State.setObjState
  dsimp only
  repeat' split
  all_goals rfl

@[simp] theorem State.startWriter_pending (s : State) (n : Nat) (w : Nat × Nat) :
    (s.startWriter n w).pending = s.pending := by
  unfold State.startWriter
  dsimp only
  repeat' split
  all_goals simp

@[simp] theorem State.endWriter_pending (s : State) (n : Nat) (ok full : Bool) (w : Nat × Nat) :
    (s.endWriter n ok full w).pending = s.pending := by
  unfold State.endWriter
  dsimp only
  repeat' split
  all_goals simp

@[simp] theorem State.settleSlot_pending (s : State) (n i k : Nat) : (s.settleSlot n i k).pending = s.pending := by
  unfold State.settleSlot
  split <;> simp

@[simp] theorem State.writes_pending (s : State) (c : Cid) (w : Nat × Nat) : (s.writes c w).pending = s.pending := by
  unfold State.writes
  dsimp only
  split <;> simp

@[simp] theorem State.noteWrite_pending (s : State) (c : Cid) (pl : Place) : (s.noteWrite c pl).pending = s.pending := by
  unfold State.noteWrite
  split <;> simp

@[simp] theorem State.mirror_pending (s : State) (n i : Nat) (f : Fence) : (s.mirror n i f).pending = s.pending := by
  unfold State.mirror
  dsimp only
  split <;> simp

@[simp] theorem State.putFence_pending (s : State) (n i : Nat) (f : Fence) : (s.putFence n i f).pending = s.pending := rfl

@[simp] theorem State.setFence_pending (s : State) (n i : Nat) (f : Fence) : (s.setFence n i f).pending = s.pending := by
  unfold State.setFence
  dsimp only
  repeat' split
  all_goals simp

@[simp] theorem State.sendPacket_pending (s : State) (p : Packet) (lastDim : Nat) :
    (s.sendPacket p lastDim).pending = s.pending := by
  unfold State.sendPacket
  dsimp only
  repeat' split
  all_goals rfl

@[simp] theorem State.notify_pending (s : State) (n h : Nat) (ctx : CtxId) (err : Bool) (ws : List Waiter) :
    (s.notify n h ctx err ws).pending = s.pending := State.foldl_pending (by simp) _ _

@[simp] theorem State.signalFence_pending (s : State) (n i : Nat) (f : Fence) :
    (s.signalFence n i f).pending = s.pending := by
  simp [State.signalFence]

@[simp] theorem State.writeRecord_pending (s : State) (r : ErrRec) : (s.writeRecord r).pending = s.pending := by
  unfold State.writeRecord
  split <;> simp

@[simp] theorem State.placeRecord_pending (s : State) (r : ErrRec) : (s.placeRecord r).1.pending = s.pending := by
  unfold State.placeRecord
  dsimp only
  split <;> rfl

@[simp] theorem State.closeRecord_pending (s : State) (i : Nat) : (s.closeRecord i).pending = s.pending := by
  unfold State.closeRecord
  repeat' split
  all_goals simp

@[simp] theorem State.reportErr_pending (s : State) (r : Report) : (s.reportErr r).pending = s.pending := by
  unfold State.reportErr
  dsimp only
  repeat' split
  all_goals simp

@[simp] theorem State.useArmed_pending (s : State) (det target : Nat) : (s.useArmed det target).1.pending = s.pending := by
  unfold State.useArmed
  dsimp only
  split <;> rfl

@[simp] theorem State.activity_pending (s : State) (die : Nat) (c : List CtxId) (units : Nat) :
    (s.activity die c units).pending = s.pending := by
  unfold State.activity
  split <;> rfl

/-! ### Words under ECC (Ecc) -/

@[simp] theorem State.halt_pending (s : State) (core ptn : Nat → Bool) : (s.halt core ptn).pending = s.pending := rfl

@[simp] theorem State.orderReset_pending (s : State) (l : Level) (target : Nat) :
    (s.orderReset l target).pending = s.pending := by
  unfold State.orderReset
  repeat' split
  all_goals rfl

@[simp] theorem State.correctUnit_pending (s : State) (pl : Place) : (s.correctUnit pl).pending = s.pending := by
  unfold State.correctUnit
  dsimp only
  split <;> simp

@[simp] theorem State.loseUnit_pending (s : State) (pl : Place) (ctx : List CtxId) (reporter : Nat) (scrub : Bool) :
    (s.loseUnit pl ctx reporter scrub).pending = s.pending := by
  unfold State.loseUnit
  repeat' split
  all_goals simp

@[simp] theorem State.readUnit_pending (s : State) (pl : Place) (ctx : List CtxId) (reporter : Nat) (scrub : Bool) :
    (s.readUnit pl ctx reporter scrub).1.pending = s.pending := by
  unfold State.readUnit
  dsimp only
  repeat' split
  all_goals simp

@[simp] theorem State.eccRead_pending (s : State) (pl : Place) (n : Nat) (ctx : List CtxId) (reporter : Nat) :
    (s.eccRead pl n ctx reporter).1.pending = s.pending := by
  refine State.foldl_fst_pending (fun x u => ?_) _ _
  simp

@[simp] theorem State.readTables_pending (s : State) (c : CtxId) (va reporter : Nat) :
    (s.readTables c va reporter).pending = s.pending := by
  unfold State.readTables
  split
  · rfl
  · refine State.foldl_pending (fun t a => ?_) _ _
    split <;> simp

@[simp] theorem State.deckPut_pending (s : State) (p a : Nat) (bs : List Byte) :
    (s.deckPut p a bs).pending = s.pending := by
  unfold State.deckPut
  split <;> simp

@[simp] theorem State.deckWord_pending (s : State) (p a : Nat) : (s.deckWord p a).pending = s.pending := by
  unfold State.deckWord
  dsimp only
  repeat' split
  all_goals simp

@[simp] theorem State.deckCheck_pending (s : State) (p a n : Nat) : (s.deckCheck p a n).pending = s.pending := by
  unfold State.deckCheck
  split <;> simp [State.foldl_pending]

@[simp] theorem State.deckReads_pending (s : State) (p : Nat) (rs : List (Int × Int)) :
    (s.deckReads p rs).pending = s.pending := by
  unfold State.deckReads
  split <;> simp [State.foldl_pending]

@[simp] theorem State.holdPut_pending (s : State) (k a : Nat) (bs : List Byte) :
    (s.holdPut k a bs).pending = s.pending := by
  unfold State.holdPut
  split <;> simp

@[simp] theorem State.holdWord_pending (s : State) (k a : Nat) (ctx : List CtxId) (reporter : Nat) :
    (s.holdWord k a ctx reporter).1.pending = s.pending := by
  unfold State.holdWord
  dsimp only
  repeat' split
  all_goals simp

@[simp] theorem State.holdCheck_pending (s : State) (k a n : Nat) (ctx : List CtxId) (reporter : Nat) :
    (s.holdCheck k a n ctx reporter).1.pending = s.pending := by
  unfold State.holdCheck
  split
  · rfl
  · exact State.foldl_fst_pending (by simp) _ _

/-! ### The stash (Stash) -/

@[simp] theorem State.segStore_pending (s : State) (n seg off : Nat) (bs : List Byte) :
    (s.segStore n seg off bs).pending = s.pending := by
  unfold State.segStore
  split <;> simp

@[simp] theorem State.setHead_pending (s : State) (p : Nat) (h : List HeadSeg) : (s.setHead p h).pending = s.pending := rfl

@[simp] theorem State.writeOut_pending (s : State) (p n : Nat) (h : HeadSeg) :
    (s.writeOut p n h).pending = s.pending := State.foldl_pending (by simp) _ _

@[simp] theorem State.headOut_pending (s : State) (p n : Nat) :
    (s.headOut p n).pending = s.pending := State.foldl_pending (by simp) _ _

@[simp] theorem State.markSeg_pending (s : State) (n seg : Nat) (w : Bool) : (s.markSeg n seg w).pending = s.pending := rfl

@[simp] theorem State.stashRead_pending (s : State) (p : Nat) (d : Disp) (offs : List Nat) :
    (s.stashRead p d offs).1.pending = s.pending := by
  refine (State.foldl_fst_pending (fun x u => ?_) _ _).trans ?_ <;> simp

@[simp] theorem State.dropSeg_pending (s : State) (n seg : Nat) : (s.dropSeg n seg).pending = s.pending := rfl

@[simp] theorem State.openSeg_pending (s : State) (n seg : Nat) : (s.openSeg n seg).pending = s.pending := by
  unfold State.openSeg
  split <;> simp

@[simp] theorem State.headRoom_pending (s : State) (p n : Nat) : (s.headRoom p n).pending = s.pending := by
  unfold State.headRoom
  dsimp only
  repeat' split
  all_goals simp

@[simp] theorem State.stashPut_pending (s : State) (p n : Nat) (x : Nat × Nat) (b : Byte) :
    (s.stashPut p n x b).pending = s.pending := by
  unfold State.stashPut
  dsimp only
  repeat' split
  all_goals simp

@[simp] theorem State.stashWrite_pending (bs : List Byte) (s : State) (p : Nat) (d : Disp) (off : Nat) :
    (s.stashWrite p d off bs).pending = s.pending := by
  induction bs generalizing s off with
  | nil => rfl
  | cons b bs ih => exact (ih _ _).trans (State.stashPut_pending _ _ _ _ _)

@[simp] theorem State.consume_pending (s : State) (p n seg : Nat) : (s.consume p n seg).pending = s.pending := by
  unfold State.consume
  dsimp only
  split <;> rfl

@[simp] theorem State.releaseStash_pending (s : State) (c : Cid) : (s.releaseStash c).pending = s.pending := by
  unfold State.releaseStash
  dsimp only
  split <;> rfl

end Sys2Proof.Machine

/-! What a command leaves of the queue of commands: the engines of a core. -/

namespace Sys2Proof.Machine

/-! ### Issue (Issue) -/

@[simp] theorem State.setDisp_pending (s : State) (d : Disp) : (s.setDisp d).pending = s.pending := rfl

@[simp] theorem State.putGroup_pending (s : State) (t : Seat) (g : Group) : (s.putGroup t g).pending = s.pending := by
  unfold State.putGroup
  split <;> rfl

@[simp] theorem State.issued_pending (s : State) (t : Seat) : (s.issued t).pending = s.pending := rfl

@[simp] theorem State.stopWork_pending (s : State) (c : Cid) : (s.stopWork c).pending = s.pending := by
  unfold State.stopWork
  dsimp only
  split <;> rfl

@[simp] theorem State.endDisp_pending (s : State) (d : Disp) (status : Nat) (info : DWord) :
    (s.endDisp d status info).pending = s.pending := by
  unfold State.endDisp
  split <;> simp

@[simp] theorem State.groupFault_pending (s : State) (t : Seat) (status : Nat) (injected : Bool) :
    (s.groupFault t status injected).pending = s.pending := by
  simp [State.groupFault]

@[simp] theorem State.wait_pending (s : State) (t : Seat) (w : DWord) (cause : Nat) :
    (s.wait t w cause).pending = s.pending := by
  unfold State.wait
  dsimp only
  split <;> rfl

@[simp] theorem State.issue_pending (s : State) (p slot : Nat) (w : DWord) (op : Nat) {run : State → Seat → Issued}
    (hrun : ∀ u t, (run u t).Queued u) : (s.issue p slot w op run).pending = s.pending := by
  unfold State.issue
  cases s.seat p slot with
  | none => rfl
  | some t =>
    have hdone := hrun (s.issued t) (t.issued (s.core p).seq)
    dsimp only
    cases s.stallNext t with
    | some c => simp [apply_ite State.pending]
    | none =>
      generalize run (s.issued t) (t.issued (s.core p).seq) = r at hdone
      cases r with
      | fault st => simp [apply_ite State.pending]
      | done u => simp_all [apply_ite State.pending]

/-! ### Copies between spaces (Copying) -/

@[simp] theorem State.spaceRead_pending (s : State) (p : Nat) (d : Disp) (space : Nat) (as : List Nat) :
    (s.spaceRead p d space as).1.pending = s.pending := by
  unfold State.spaceRead
  dsimp only
  split
  · exact State.foldl_pending (by simp) _ _
  · split
    · exact State.foldl_fst_pending (by simp) _ _
    · simp

@[simp] theorem State.spaceWrite_pending (s : State) (p : Nat) (d : Disp) (space : Nat) (m : Bytes) :
    (s.spaceWrite p d space m).pending = s.pending := by
  refine State.foldl_pending (fun t a => ?_) _ _
  repeat' split
  all_goals simp

/-! ### Thread instructions (Thread) -/

@[simp] theorem threadRun_queued (w : DWord) (act : Seat → Group) (s : State) (t : Seat) :
    (threadRun w act s t).Queued s := by
  unfold threadRun
  split <;> simp

@[simp] theorem arith_queued (w : DWord) (f : Nat → Word → Word → Word → Word) (s : State) (t : Seat) :
    (arith w f s t).Queued s := threadRun_queued _ _ _ _

@[simp] theorem scalar_queued (w : DWord) (f : Nat → DWord → DWord → DWord) (s : State) (t : Seat) :
    (scalar w f s t).Queued s := by
  unfold scalar
  split <;> simp

@[simp] theorem State.releaseBarrier_pending (s : State) (p block : Nat) :
    (s.releaseBarrier p block).pending = s.pending := by
  unfold State.releaseBarrier
  dsimp only
  repeat' split
  all_goals rfl

@[simp] theorem pushRun_queued (w : DWord) (f : Seat → Option Group) (s : State) (t : Seat) :
    (pushRun w f s t).Queued s := by
  unfold pushRun
  repeat' split
  all_goals simp

@[simp] theorem exitRun_queued (w : DWord) (s : State) (t : Seat) : (exitRun w s t).Queued s := by
  unfold exitRun
  split <;> simp

@[simp] theorem barbRun_queued (w : DWord) (s : State) (t : Seat) : (barbRun w s t).Queued s := by
  unfold barbRun
  repeat' split
  all_goals simp

@[simp] theorem rdspRun_queued (w : DWord) (s : State) (t : Seat) : (rdspRun w s t).Queued s := by
  simp [rdspRun]

@[simp] theorem sliRun_queued (w : DWord) (s : State) (t : Seat) : (sliRun w s t).Queued s := by
  unfold sliRun
  split <;> simp

/-! ### Far requests (Far) -/

@[simp] theorem State.accessFault_pending (s : State) (p slot block pc : Nat) (mask : BitVec 32) (status : Nat) :
    (s.accessFault p slot block pc mask status).pending = s.pending := by
  unfold State.accessFault
  repeat' split
  all_goals simp

@[simp] theorem State.cacheUpdate_pending (s : State) (n die : Nat) (c : CtxId) (addr : Nat) (bs : List Byte) :
    (s.cacheUpdate n die c addr bs).pending = s.pending := rfl

theorem State.sendOne_pending {s t : State} {p : Nat} (h : s.sendOne p = some t) : t.pending = s.pending := by
  unfold State.sendOne at h
  dsimp only at h
  split at h
  · obtain ⟨r, -, rfl⟩ := Option.map_eq_some_iff.mp h
    simp [apply_ite State.pending]
  · cases h

@[simp] theorem State.rerouted_pending (s : State) : s.rerouted.pending = s.pending := rfl

@[simp] theorem State.pump_pending (fuel : Nat) (s : State) (p : Nat) : (State.pump fuel s p).pending = s.pending := by
  induction fuel generalizing s with
  | zero => rfl
  | succ fuel ih =>
    unfold State.pump
    split
    · rfl
    · next t h => exact (ih t).trans (State.sendOne_pending h)

@[simp] theorem State.pumpAll_pending (s : State) (p : Nat) : (s.pumpAll p).pending = s.pending := by
  simp [State.pumpAll]

@[simp] theorem State.giveRegs_pending (s : State) (p : Nat) (r : FarReq) (f : Group → Group) :
    (s.giveRegs p r f).pending = s.pending := by
  unfold State.giveRegs
  dsimp only
  repeat' split
  all_goals rfl

@[simp] theorem State.dropCached_pending (s : State) (pick : Nat → Nat → CtxId → Nat → Bool) :
    (s.dropCached pick).pending = s.pending := rfl

@[simp] theorem State.dropLines_pending (s : State) (die : Nat) (c : CtxId) (drop : List Nat) :
    (s.dropLines die c drop).pending = s.pending := rfl

@[simp] theorem State.copyGot_pending (s : State) (p ch copy : Nat) (old : Bool) (addr : Nat) (bs : List Byte) :
    (s.copyGot p ch copy old addr bs).pending = s.pending := rfl

@[simp] theorem State.setRun_pending (s : State) (p ch : Nat) (r : CopyRun) : (s.setRun p ch r).pending = s.pending := rfl

@[simp] theorem State.copyWrite_pending (s : State) (p ch : Nat) (d : Disp) (r : CopyRun) :
    (s.copyWrite p ch d r).pending = s.pending := by
  unfold State.copyWrite
  split <;> simp

@[simp] theorem State.copyStep_pending (s : State) (p ch copy : Nat) : (s.copyStep p ch copy).pending = s.pending := by
  unfold State.copyStep
  repeat' split
  all_goals simp

@[simp] theorem State.moveGot_pending (s : State) (c : Cid) (addr : Nat) (bs : List Byte) :
    (s.moveGot c addr bs).pending = s.pending := rfl

@[simp] theorem State.freeSlot_pending (s : State) (p k : Nat) : (s.freeSlot p k).pending = s.pending := rfl

@[simp] theorem State.farAnswer_pending (s : State) (p : Nat) (r : FarReq) (bs : List Byte) :
    (s.farAnswer p r bs).pending = s.pending := by
  unfold State.farAnswer
  repeat' split
  all_goals simp

@[simp] theorem State.perform_pending (s : State) (p : Nat) (r : FarReq) : (s.perform p r).1.pending = s.pending := by
  unfold State.perform
  dsimp only
  repeat' split
  all_goals simp

@[simp] theorem State.farResponse_pending (s : State) (p k : Nat) : (s.farResponse p k).pending = s.pending := by
  unfold State.farResponse
  dsimp only
  repeat' split
  all_goals simp

@[simp] theorem farRun_queued (w : DWord) (s : State) (t : Seat) : (farRun w s t).Queued s := by
  unfold farRun
  dsimp only
  repeat' split
  all_goals simp

@[simp] theorem State.deckUnits_pending (s : State) (p : Nat) (c : CtxId) (rows : Nat) :
    (s.deckUnits p c rows).pending = s.pending := rfl

@[simp] theorem deckRun_queued (w : DWord) (s : State) (t : Seat) : (deckRun w s t).Queued s := by
  unfold deckRun
  dsimp only
  repeat' split
  all_goals simp [State.foldl_pending]

@[simp] theorem deckLockRun_queued (w : DWord) (s : State) (t : Seat) : (deckLockRun w s t).Queued s := by
  unfold deckLockRun
  split
  · trivial
  · split
    · trivial
    · simp only [Issued.queued_done, State.putGroup_pending]
      refine (State.foldl_fst_pending (fun x l => ?_) _ _).trans (by simp [apply_ite State.pending])
      dsimp only
      split <;> simp

@[simp] theorem lockRun_queued (w : DWord) (s : State) (t : Seat) : (lockRun w s t).Queued s := by
  unfold lockRun
  split <;> simp

/-! ### The copy engine (Mover) -/

@[simp] theorem tcopyRun_queued (w : DWord) (s : State) (t : Seat) : (tcopyRun w s t).Queued s := by
  unfold tcopyRun
  dsimp only
  split <;> simp

@[simp] theorem twaitRun_queued (w : DWord) (s : State) (t : Seat) : (twaitRun w s t).Queued s := by
  unfold twaitRun
  split <;> simp

@[simp] theorem State.cacheUse_pending (s : State) (l : CacheLine) : (s.cacheUse l).pending = s.pending := rfl
@[simp] theorem State.cacheFill_pending (s : State) (l : CacheLine) : (s.cacheFill l).pending = s.pending := rfl

@[simp] theorem State.cacheRead_pending (s : State) (p ch copy : Nat) (d : Disp) (old : Bool) (line : Nat) :
    (s.cacheRead p ch copy d old line).pending = s.pending := by
  unfold State.cacheRead
  dsimp only
  split <;> simp

@[simp] theorem State.stashOverflowed_pending (s : State) (n : Nat) : (s.stashOverflowed n).pending = s.pending := rfl

@[simp] theorem State.copyReads_pending (s : State) (p ch : Nat) (d : Disp) (c : CopyEntry) (t : Tensor) (old : Bool) :
    (s.copyReads p ch d c t old).1.pending = s.pending := by
  unfold State.copyReads
  dsimp only
  split
  · simp [State.foldl_pending_of_eq]
  · have hgot (l : Bytes) (t : State) : (l.foldl (fun u e => u.copyGot p ch c.stamp old e.1 [e.2]) t).pending = t.pending :=
      State.foldl_pending (by simp) _ _
    simp [apply_ite State.pending, State.foldl_pending_of_eq, hgot]

@[simp] theorem State.noteDest_pending (s : State) (d : Disp) (dst : Tensor) : (s.noteDest d dst).pending = s.pending := by
  unfold State.noteDest
  split <;> simp [State.foldl_pending]

@[simp] theorem State.copyStart_pending (s : State) (p ch : Nat) (d : Disp) (c : CopyEntry) (src dst : Tensor) :
    (s.copyStart p ch d c src dst).pending = s.pending := by
  unfold State.copyStart
  dsimp only
  repeat' split
  all_goals simp

@[simp] theorem State.copyTake_pending (s : State) (p ch : Nat) : (s.copyTake p ch).pending = s.pending := by
  unfold State.copyTake
  dsimp only
  repeat' split
  all_goals simp

@[simp] theorem State.copyComplete_pending (s : State) (p ch k : Nat) : (s.copyComplete p ch k).pending = s.pending := by
  unfold State.copyComplete
  dsimp only
  repeat' split
  all_goals simp

/-! ### Matrix arrays (Matrix) -/

@[simp] theorem State.mxQueue_queued (s : State) (t : Seat) (m : MxEntry) : (s.mxQueue t m).Queued s := by
  simp [State.mxQueue]

@[simp] theorem mpassRun_queued (w : DWord) (s : State) (t : Seat) : (mpassRun w s t).Queued s := by
  unfold mpassRun
  dsimp only
  split <;> simp

@[simp] theorem maltRun_queued (w : DWord) (s : State) (t : Seat) : (maltRun w s t).Queued s := by
  unfold maltRun
  dsimp only
  split <;> simp

@[simp] theorem accRun_queued (w : DWord) (s : State) (t : Seat) : (accRun w s t).Queued s := by
  unfold accRun
  dsimp only
  split <;> simp

@[simp] theorem msyncRun_queued (w : DWord) (s : State) (t : Seat) : (msyncRun w s t).Queued s := by
  unfold msyncRun
  repeat' split
  all_goals simp

@[simp] theorem State.takeStalls_pending (s : State) (p a : Nat) (folding : Bool) (m : MxEntry) (rows : Nat) :
    (s.takeStalls p a folding m rows).pending = s.pending := by
  unfold State.takeStalls
  repeat' split
  all_goals rfl

@[simp] theorem State.takeDecision_pending (s : State) (p a : Nat) : (s.takeDecision p a).pending = s.pending := by
  unfold State.takeDecision
  dsimp only
  repeat' split
  all_goals simp

@[simp] theorem State.fold_pending (s : State) (p a : Nat) : (s.fold p a).pending = s.pending := by
  unfold State.fold
  dsimp only
  repeat' split
  all_goals rfl

@[simp] theorem State.runAcc_pending (s : State) (p a : Nat) (m : MxEntry) : (s.runAcc p a m).pending = s.pending := by
  unfold State.runAcc
  dsimp only
  repeat' split
  all_goals simp [State.foldl_pending]

@[simp] theorem State.passComplete_pending (s : State) (p a : Nat) : (s.passComplete p a).pending = s.pending := by
  unfold State.passComplete
  dsimp only
  repeat' split
  all_goals simp

/-! ### The vector engine (Vector) -/

@[simp] theorem State.giveEngine_pending (s : State) (p : Nat) (h : Holder) (c : CtxId) :
    (s.giveEngine p h c).pending = s.pending := rfl

@[simp] theorem vectorRun_queued (w : DWord) (s : State) (t : Seat) : (vectorRun w s t).Queued s := by
  unfold vectorRun
  repeat' split
  all_goals simp

@[simp] theorem State.giveScalar_pending (s : State) (p slot block r : Nat) (f : DWord → DWord) :
    (s.giveScalar p slot block r f).pending = s.pending := by
  unfold State.giveScalar
  dsimp only
  repeat' split
  all_goals rfl

@[simp] theorem State.setEngine_pending (s : State) (p : Nat) (e : Engine) : (s.setEngine p e).pending = s.pending := rfl

@[simp] theorem State.veDeck_pending (s : State) (p : Nat) (v : VeEntry) (c : CtxId) :
    (s.veDeck p v c).pending = s.pending := by
  unfold State.veDeck
  dsimp only
  split <;> simp [State.foldl_pending]

@[simp] theorem State.veConvert_pending (s : State) (p : Nat) (v : VeEntry) : (s.veConvert p v).pending = s.pending := by
  unfold State.veConvert
  dsimp only
  split <;> simp

@[simp] theorem State.veRun_pending (s : State) (p : Nat) (v : VeEntry) (c : CtxId) :
    (s.veRun p v c).pending = s.pending := by
  unfold State.veRun
  dsimp only
  repeat' split
  all_goals simp

@[simp] theorem State.veStart_pending (s : State) (p : Nat) : (s.veStart p).pending = s.pending := by
  unfold State.veStart
  dsimp only
  repeat' split
  all_goals simp

@[simp] theorem State.ruGet_pending (s : State) (p slot block : Nat) (w : DWord) (mask : BitVec 128) :
    (s.ruGet p slot block w mask).pending = s.pending := by
  unfold State.ruGet
  dsimp only
  repeat' split
  all_goals simp

@[simp] theorem State.reductionTake_pending (s : State) (p : Nat) : (s.reductionTake p).pending = s.pending := by
  unfold State.reductionTake
  dsimp only
  repeat' split
  all_goals simp

@[simp] theorem State.veOwnerPass_pending (s : State) (p : Nat) : (s.veOwnerPass p).pending = s.pending := by
  unfold State.veOwnerPass
  dsimp only
  repeat' split
  all_goals rfl

end Sys2Proof.Machine

/-! What a command leaves of the queue of commands: blocks, rings and the first commands of a queue. -/

namespace Sys2Proof.Machine

/-! ### Blocks and pre-emption (Blocks) -/

@[simp] theorem State.passCore_pending (s : State) (p : Nat) (c : CtxId) : (s.passCore p c).pending = s.pending := by
  unfold State.passCore
  dsimp only
  split <;> rfl

@[simp] theorem State.setCmd_pending (s : State) (n : Nat) (k : Cmd) : (s.setCmd n k).pending = s.pending := rfl

@[simp] theorem State.placeOn_pending (s : State) (p : Nat) (d : Disp) (pr : Prog) :
    (s.placeOn p d pr).pending = s.pending := by
  simp [State.placeOn]

@[simp] theorem State.blockPlace_pending (s : State) (n : Nat) : (s.blockPlace n).pending = s.pending := by
  unfold State.blockPlace
  repeat' split
  all_goals simp

@[simp] theorem State.blockEnd_pending (s : State) (p b : Nat) : (s.blockEnd p b).pending = s.pending := by
  unfold State.blockEnd
  dsimp only
  repeat' split
  all_goals rfl

@[simp] theorem State.pickMany_pending (k : Nat) (s : State) (l : List Nat) :
    (State.pickMany k s l).1.pending = s.pending := by
  induction k generalizing s l with
  | zero => rfl
  | succ k ih =>
    unfold State.pickMany
    split
    · rfl
    · exact ih _ _

@[simp] theorem State.reserve_pending (s : State) (d : Disp) (need : Nat) : (s.reserve d need).pending = s.pending := by
  unfold State.reserve
  dsimp only
  repeat' split
  all_goals simp

@[simp] theorem State.grant_pending (s : State) (n q e : Nat) : (s.grant n q e).pending = s.pending := by
  unfold State.grant
  dsimp only
  repeat' split
  all_goals simp

@[simp] theorem State.saveCore_pending (s : State) (n p : Nat) : (s.saveCore n p).pending = s.pending := by
  unfold State.saveCore
  dsimp only
  repeat' split
  all_goals simp

@[simp] theorem State.preempt_pending (s : State) (n q e : Nat) : (s.preempt n q e).pending = s.pending := by
  unfold State.preempt
  dsimp only
  repeat' split
  all_goals simp [State.foldl_pending]

@[simp] theorem State.restoreCore_pending (s : State) (v : Saved) : (s.restoreCore v).pending = s.pending := by
  unfold State.restoreCore
  split <;> simp

@[simp] theorem State.readSave_pending (s : State) (n : Nat) : (s.readSave n).1.pending = s.pending := by
  unfold State.readSave
  split <;> simp

@[simp] theorem State.resume_pending (s : State) (n : Nat) : (s.resume n).pending = s.pending := by
  unfold State.resume
  dsimp only
  repeat' split
  all_goals simp [State.foldl_pending]

/-! ### Rings and completions (Queue) -/

@[simp] theorem State.setQueue_pending (s : State) (n q : Nat) (x : Queue) : (s.setQueue n q x).pending = s.pending := rfl

@[simp] theorem State.postOne_pending (s : State) (n q : Nat) (r : Completion) : (s.postOne n q r).pending = s.pending := by
  unfold State.postOne
  repeat' split
  all_goals simp

@[simp] theorem State.postHeld_pending (s : State) (n q : Nat) (l : List Completion) :
    (s.postHeld n q l).pending = s.pending := by
  induction l generalizing s with
  | nil =>
    unfold State.postHeld
    split <;> rfl
  | cons r l ih =>
    unfold State.postHeld
    split
    · rfl
    · split
      · exact (ih _).trans (State.postOne_pending _ _ _ _)
      · rfl

@[simp] theorem State.complete_pending (s : State) (n q : Nat) (r : Completion) :
    (s.complete n q r).pending = s.pending := by
  unfold State.complete
  repeat' split
  all_goals simp

@[simp] theorem State.reapQueue_pending (s : State) (n q : Nat) : (s.reapQueue n q).pending = s.pending := by
  unfold State.reapQueue
  dsimp only
  repeat' split
  all_goals rfl

@[simp] theorem State.ringQueue_pending (s : State) (n q : Nat) : (s.ringQueue n q).pending = s.pending := by
  unfold State.ringQueue
  dsimp only
  repeat' split
  all_goals simp

@[simp] theorem State.hostSoftware_pending (s : State) (ws : List HostWrite) : (s.hostSoftware ws).pending = s.pending := by
  simp [State.hostSoftware, State.foldl_pending]

@[simp] theorem State.doorbell_pending (s : State) (wr : List HostWrite) (line : Nat) (sqTail cqHead : Word) :
    (s.doorbell wr line sqTail cqHead).pending = s.pending := by
  simp [State.doorbell]

@[simp] theorem State.registerWait_pending (s : State) (n : Nat) (x : Queue) (k : Cmd) (i : Nat) :
    (s.registerWait n x k i).pending = s.pending := by
  unfold State.registerWait
  dsimp only
  repeat' split
  all_goals simp

@[simp] theorem State.lineMoved_pending (s : State) (n q : Nat) : (s.lineMoved n q).pending = s.pending := by
  unfold State.lineMoved
  repeat' split
  all_goals simp

@[simp] theorem State.entryRead_pending (s : State) (n q : Nat) : (s.entryRead n q).pending = s.pending := by
  have hsig (l : List Nat) (t : State) : (l.foldl (fun t i => match Tab.get? (t.ptn n).fences i with
      | none => t
      | some f => t.setFence n i { f with pending := (f.pending + 1) % 65536, signalled := false }) t).pending =
      t.pending := by
    refine State.foldl_pending (fun t i => ?_) _ _
    split <;> simp
  unfold State.entryRead
  dsimp only
  split
  · simp
  · split
    · simp
    · split
      · simp [apply_ite State.pending]
      · simp only [State.registerWait_pending]
        exact (hsig _ _).trans (by simp)

@[simp] theorem State.failCmd_pending (s : State) (n : Nat) (k : Cmd) (status : Nat) :
    (s.failCmd n k status).pending = s.pending := rfl

@[simp] theorem State.headerCheck_pending (s : State) (n q e : Nat) : (s.headerCheck n q e).pending = s.pending := by
  unfold State.headerCheck
  dsimp only
  repeat' split
  all_goals rfl

/-! ### Commands of a queue (Commands) -/

/-- A fold of reads, each turn keeping the queue of commands. -/
theorem Fetched.foldl_pending {α : Type} {f : Fetched → α → Fetched} (hf : ∀ x a, (f x a).s.pending = x.s.pending)
    (l : List α) (x : Fetched) : (l.foldl f x).s.pending = x.s.pending := foldl_keeps (·.s.pending) hf l x

@[simp] theorem State.readVa_pending (s : State) (n : Nat) (c : CtxId) (va len : Nat) :
    (s.readVa n c va len).s.pending = s.pending := by
  unfold State.readVa
  split
  · rfl
  · split
    · rfl
    · refine Fetched.foldl_pending (fun x e => ?_) _ _
      split
      · rfl
      · split
        · rfl
        · dsimp only
          split <;> simp

@[simp] theorem State.readStruct_pending (s : State) (n : Nat) (c : CtxId) (va len align : Nat) :
    (s.readStruct n c va len align).s.pending = s.pending := by
  unfold State.readStruct
  split <;> simp

theorem State.pickPages_pending {s : State} {size lo hi k : Nat} {ok : Nat → Bool} {used : List (Nat × Nat)}
    {x : State × List Nat} (h : s.pickPages size lo hi ok k used = some x) : x.1.pending = s.pending := by
  induction k generalizing used x with
  | zero =>
    cases h
    rfl
  | succ k ih =>
    unfold State.pickPages at h
    dsimp only at h
    split at h
    · cases h
    · obtain ⟨y, hy, rfl⟩ := Option.map_eq_some_iff.mp h
      exact ih (x := y) hy

@[simp] theorem State.drewMany_pending (s : State) (k : Nat) : (s.drewMany k).pending = s.pending := rfl

theorem State.computePages_pending {s : State} {n size count : Nat} {x : State × List Nat}
    (h : s.computePages n size count = some x) : x.1.pending = s.pending := by
  obtain ⟨y, hy, rfl⟩ := Option.map_eq_some_iff.mp h
  simp [State.pickPages_pending hy]

theorem State.hostPages_pending {s : State} {size count : Nat} {x : State × List Nat}
    (h : s.hostPages size count = some x) : x.1.pending = s.pending := by
  obtain ⟨y, hy, rfl⟩ := Option.map_eq_some_iff.mp h
  simp [State.pickPages_pending hy]

@[simp] theorem Fetched.next_pending (f : Fetched) (n : Nat) (c : CtxId) (va len align : Nat) :
    (f.next n c va len align).s.pending = f.s.pending := by
  unfold Fetched.next
  split <;> simp

@[simp] theorem Fetched.check_pending (f : Fetched) (bad : Bool) (st : Nat) : (f.check bad st).s.pending = f.s.pending := by
  unfold Fetched.check
  split <;> rfl

@[simp] theorem State.checkLoad_pending (s : State) (n : Nat) (c : CtxId) (raw : List Byte) :
    (s.checkLoad n c raw).s.pending = s.pending := by
  simp [State.checkLoad]

@[simp] theorem State.checkDispatch_pending (s : State) (n : Nat) (c : CtxId) (k : Cmd) :
    (s.checkDispatch n c k).s.pending = s.pending := by
  unfold State.checkDispatch
  dsimp only
  split <;> simp

@[simp] theorem State.checkCopy_pending (s : State) (n : Nat) (c : CtxId) (raw : List Byte) :
    (s.checkCopy n c raw).s.pending = s.pending := by
  simp [State.checkCopy]

@[simp] theorem State.checkFill_pending (s : State) (n : Nat) (c : CtxId) (raw : List Byte) :
    (s.checkFill n c raw).s.pending = s.pending := by
  simp [State.checkFill]

@[simp] theorem State.checkAccumulate_pending (s : State) (n : Nat) (c : CtxId) (raw : List Byte) :
    (s.checkAccumulate n c raw).s.pending = s.pending := by
  have hnext (l : List Nat) (f : Fetched) : (l.foldl (fun x a => x.next n c a 128 128) f).s.pending = f.s.pending :=
    Fetched.foldl_pending (by simp) _ _
  simp [State.checkAccumulate, hnext]

@[simp] theorem State.checkMap_pending (s : State) (n : Nat) (k : Cmd) : (s.checkMap n k).s.pending = s.pending := by
  unfold State.checkMap
  dsimp only
  split <;> simp

@[simp] theorem State.checkUnmap_pending (s : State) (raw : List Byte) : (s.checkUnmap raw).s.pending = s.pending := by
  simp [State.checkUnmap]

@[simp] theorem State.began_pending (s : State) (n : Nat) (k : Cmd) : (s.began n k).pending = s.pending := rfl

@[simp] theorem State.endCmd_pending (s : State) (c : Cid) (status detail info : Nat) :
    (s.endCmd c status detail info).pending = s.pending := by
  unfold State.endCmd
  split <;> rfl

/-- The body goes on with computePages sealed as pages, which the kernel would otherwise run while it compares two shapes
of the state. -/
@[simp] theorem State.progLoadRun_pending (s : State) (c : Cid) (ctx : CtxId) (k : Cmd) :
    (s.progLoadRun c ctx k).pending = s.pending := by
  obtain ⟨pages, hp, hpages⟩ : ∃ f, @State.computePages = f ∧
      ∀ s n size count x, f s n size count = some x → x.1.pending = s.pending :=
    ⟨_, rfl, fun _ _ _ _ _ => State.computePages_pending⟩
  unfold State.progLoadRun
  rw [hp]
  dsimp only
  split
  · simp
  · split
    · simp
    · next h =>
      have h := hpages _ _ _ _ _ h
      dsimp only at h
      split <;> simp [h]

@[simp] theorem State.progLoad_pending (s : State) (n q e : Nat) : (s.progLoad n q e).pending = s.pending := by
  unfold State.progLoad
  split <;> simp

theorem State.addReader_pending {s t : State} {n i gen : Nat} (h : s.addReader n i gen = some t) : t.pending = s.pending := by
  unfold State.addReader at h
  split at h
  · cases h
  · dsimp only at h
    split at h
    · cases h
    · cases h
      rfl

@[simp] theorem State.dropReader_pending (s : State) (n i gen : Nat) : (s.dropReader n i gen).pending = s.pending := by
  unfold State.dropReader
  dsimp only
  repeat' split
  all_goals simp

@[simp] theorem State.setPins_pending (s : State) (c : CtxId) (f : Table Pin → Table Pin) :
    (s.setPins c f).pending = s.pending := by
  unfold State.setPins
  split <;> rfl

theorem State.bindOne_pending {s : State} {n w : Nat} {c : CtxId} {owner : Word} {x : State × Bound}
    (h : s.bindOne n c owner w = some x) : x.1.pending = s.pending := by
  unfold State.bindOne at h
  dsimp only at h
  split at h
  · cases h
  · split at h
    · cases h
    · split at h
      · split at h
        · cases h
        · obtain ⟨t, ht, rfl⟩ := Option.map_eq_some_iff.mp h
          simp [State.addReader_pending ht]
      · split at h
        · cases h
        · split at h
          · cases h
            rfl
          · cases h

theorem State.bindAll_pending {s : State} {n : Nat} {c : CtxId} {owner : Word} {ws : List Nat} {x : State × List Bound}
    (h : s.bindAll n c owner ws = some x) : x.1.pending = s.pending := by
  obtain ⟨y, hy, hx⟩ := Option.bind_eq_some_iff.mp h
  obtain ⟨z, hz, hxz⟩ := foldl_bind_keeps (·.1.pending) (fun u i v hv => by
    obtain ⟨t, ht, rfl⟩ := Option.map_eq_some_iff.mp hv
    exact State.addReader_pending ht) hx
  cases hz
  obtain ⟨z, hz, hyz⟩ := foldl_bind_keeps (·.1.pending) (fun u w v hv => by
    obtain ⟨t, ht, rfl⟩ := Option.map_eq_some_iff.mp hv
    exact State.bindOne_pending ht) hy
  cases hz
  exact hxz.trans hyz

@[simp] theorem State.dispatchRun_pending (s : State) (c : Cid) (x : Queue) (k : Cmd) :
    (s.dispatchRun c x k).pending = s.pending := by
  unfold State.dispatchRun
  dsimp only
  split
  · simp
  · next h =>
    have hbind := State.bindAll_pending h
    dsimp only at hbind ⊢
    split <;> simp [hbind]

@[simp] theorem State.dispatchStart_pending (s : State) (n q e : Nat) : (s.dispatchStart n q e).pending = s.pending := by
  unfold State.dispatchStart
  split <;> simp

/-- A fold of fetches of a command's operands. -/
theorem Gathered.foldl_pending {α : Type} {f : Gathered → α → Gathered} (hf : ∀ x a, (f x a).s.pending = x.s.pending)
    (l : List α) (x : Gathered) : (l.foldl f x).s.pending = x.s.pending := foldl_keeps (·.s.pending) hf l x

@[simp] theorem State.gather_pending (s : State) (c : Cid) (ctx : CtxId) (p : Nat) (got : Table Byte)
    (space : Nat) (as : List Nat) : (s.gather c ctx p got space as).s.pending = s.pending := by
  unfold State.gather
  dsimp only
  split
  · exact State.foldl_fst_pending (by simp) _ _
  · exact Gathered.foldl_pending (by simp) _ _

@[simp] theorem State.sendReqs_pending (s : State) (p : Nat) (rs : List FarReq) :
    (s.sendReqs p rs).pending = s.pending := by
  simp [State.sendReqs]

@[simp] theorem State.setMove_pending (s : State) (m : Move) : (s.setMove m).pending = s.pending := rfl
@[simp] theorem State.dropMove_pending (s : State) (c : Cid) : (s.dropMove c).pending = s.pending := rfl

@[simp] theorem State.noteWhole_pending (s : State) (c : Cid) (ctx : CtxId) (space : Nat) (m : Bytes) :
    (s.noteWhole c ctx space m).pending = s.pending := by
  unfold State.noteWhole
  repeat' split
  all_goals rfl

@[simp] theorem State.moveWrite_pending (s : State) (c : Cid) (ctx : CtxId) (k : Cmd) (m : Move) :
    (s.moveWrite c ctx k m).pending = s.pending := by
  unfold State.moveWrite
  dsimp only
  repeat' split
  all_goals simp [State.foldl_pending]

@[simp] theorem State.moveStep_pending (s : State) (c : Cid) : (s.moveStep c).pending = s.pending := by
  unfold State.moveStep
  repeat' split
  all_goals simp

@[simp] theorem State.noteView_pending (s : State) (c : Cid) (ctx : CtxId) (t : Tensor) :
    (s.noteView c ctx t).pending = s.pending := by
  unfold State.noteView
  split <;> simp [State.foldl_pending]

@[simp] theorem State.moveRun_pending (s : State) (c : Cid) (ctx : CtxId) (k : Cmd) :
    (s.moveRun c ctx k).pending = s.pending := by
  have hgather (core : Nat) (l : List Tensor) (x : Gathered) : (l.foldl (fun (x : Gathered) t =>
      { x.s.gather c ctx core x.got t.space t.addrs with
        bad := x.bad || (x.s.gather c ctx core x.got t.space t.addrs).bad }) x).s.pending = x.s.pending :=
    Gathered.foldl_pending (fun x t => by exact State.gather_pending _ _ _ _ _ _ _) _ _
  unfold State.moveRun
  dsimp only
  split
  · simp
  · simp [apply_ite State.pending, hgather]

@[simp] theorem State.moveStart_pending (s : State) (n q e op : Nat) : (s.moveStart n q e op).pending = s.pending := by
  unfold State.moveStart
  split <;> simp

@[simp] theorem State.barrier_pending (s : State) (n q e : Nat) : (s.barrier n q e).pending = s.pending := by
  unfold State.barrier
  split <;> simp

@[simp] theorem State.mapRun_pending (s : State) (c : Cid) (x : Queue) (k : Cmd) :
    (s.mapRun c x k).pending = s.pending := by
  unfold State.mapRun
  dsimp only
  repeat' split
  all_goals simp

@[simp] theorem State.mapStart_pending (s : State) (n q e : Nat) : (s.mapStart n q e).pending = s.pending := by
  unfold State.mapStart
  split <;> simp

@[simp] theorem State.unmapRun_pending (s : State) (c : Cid) (x : Queue) (k : Cmd) :
    (s.unmapRun c x k).pending = s.pending := by
  unfold State.unmapRun
  dsimp only
  repeat' split
  all_goals simp

@[simp] theorem State.unmapStart_pending (s : State) (n q e : Nat) : (s.unmapStart n q e).pending = s.pending := by
  unfold State.unmapStart
  split <;> simp

end Sys2Proof.Machine

/-! What a command leaves of the queue of commands: UPDATE, requests, FIX and retiring. -/

namespace Sys2Proof.Machine

/-! ### UPDATE and PRECOND_ROOT (Update) -/

@[simp] theorem State.checkUpdate_pending (s : State) (n : Nat) (c : CtxId) (k : Cmd) :
    (s.checkUpdate n c k).s.pending = s.pending := by
  unfold State.checkUpdate
  dsimp only
  split <;> simp [apply_ite Fetched.s, apply_ite State.pending]

@[simp] theorem State.objRead_pending (s : State) (n : Nat) (c : CtxId) (i k off len : Nat) :
    (s.objRead n c i k off len).s.pending = s.pending := by
  unfold State.objRead
  split
  · rfl
  · split
    · rfl
    · split
      · rfl
      · refine Fetched.foldl_pending (fun x e => ?_) _ _
        split
        · rfl
        · split
          · rfl
          · simp [apply_ite Fetched.s]

@[simp] theorem State.objWrite_pending (s : State) (n i k off : Nat) (bs : List Byte) :
    (s.objWrite n i k off bs).pending = s.pending := by
  unfold State.objWrite
  split
  · rfl
  · split
    · rfl
    · refine State.foldl_pending (fun t e => ?_) _ _
      split <;> simp

@[simp] theorem State.weightPut_pending (s : State) (n : Nat) (c : CtxId) (i k : Nat) (m : Bytes) :
    (s.weightPut n c i k m).pending = s.pending := by
  unfold State.weightPut
  split
  · rfl
  · refine State.foldl_pending (fun t r => ?_) _ _
    split <;> simp

@[simp] theorem State.countLoss_pending (s : State) (p : Nat) (l : Nat × Nat) : (s.countLoss p l).pending = s.pending := rfl

@[simp] theorem State.unitRead_pending (s : State) (n : Nat) (c : CtxId) (h : Nat) (runs : List (Nat × Nat)) :
    (s.unitRead n c h runs).s.pending = s.pending := by
  refine Fetched.foldl_pending (fun f r => ?_) _ _
  split <;> simp

@[simp] theorem State.precondUnit_pending (s : State) (n : Nat) (c : CtxId) (p : Nat) (t : List Byte) (i : Nat) (g : Mat) :
    (s.precondUnit n c p t i g).1.s.pending = s.pending := by
  simp [State.precondUnit, apply_ite Fetched.s, apply_ite State.pending, apply_ite Prod.fst]

@[simp] theorem State.encodeUnit_pending (s : State) (p : Nat) (w : Tensor) (ctl : Nat) (old : Bytes)
    (es : List (List Int × Nat)) :
    (s.encodeUnit p w ctl old es).1.pending = s.pending := rfl

@[simp] theorem State.skipUnit_pending (s : State) (j : UpdJob) (p u : Nat) : (s.skipUnit j p u).pending = s.pending := by
  simp [State.skipUnit]

@[simp] theorem State.setUpd_pending (s : State) (u : Upd) : (s.setUpd u).pending = s.pending := rfl

@[simp] theorem State.updateRun_pending (s : State) (c : Cid) (x : Queue) (k : Cmd) :
    (s.updateRun c x k).pending = s.pending := by
  unfold State.updateRun
  dsimp only
  split
  · simp
  · split
    · simp
    · split
      · simp
      · next h =>
        have hadd := State.addReader_pending h
        split <;> split <;> simp_all

@[simp] theorem State.updateStart_pending (s : State) (n q e : Nat) : (s.updateStart n q e).pending = s.pending := by
  unfold State.updateStart
  split <;> simp

/-- A push that arrives, its body sealed as f: a proof that unfolds a caller goes on with f, since the kernel would
otherwise run the body's comparison of addresses of 2 ^ 52 and more when it compares two shapes of that caller. -/
theorem State.pushArrive_body : ∃ f, @State.pushArrive = f ∧
    ∀ s n c va gen bs t, f s n c va gen bs = some t → t.pending = s.pending := by
  refine ⟨_, by delta State.pushArrive; rfl, fun s n c va gen bs t h => ?_⟩
  split at h
  · cases h
  · split at h
    · cases h
    · cases h
      rw [State.setUpd_pending, State.weightPut_pending]

@[simp] theorem State.pushTo_pending (s : State) (u : Upd) (a : UpdArgs) (p : PeerOpen) :
    (s.pushTo u a p).pending = s.pending := by
  obtain ⟨push, hf, hpush⟩ := State.pushArrive_body
  unfold State.pushTo
  rw [hf]
  dsimp only
  split
  · refine (State.foldl_pending (fun t r => ?_) _ _).trans (State.setUpd_pending _ _)
    cases h : push t p.ptn p.ctx r.addr (u.gen + 1) r.bytes with
    | none => simp
    | some v => exact hpush _ _ _ _ _ _ _ h
  · simp

@[simp] theorem State.pushAll_pending (fuel : Nat) (s : State) (c : Cid) : (State.pushAll fuel s c).pending = s.pending := by
  induction fuel generalizing s with
  | zero => rfl
  | succ fuel ih =>
    unfold State.pushAll
    split
    · split
      · rfl
      · dsimp only
        split
        · rfl
        · simp [ih]
    · rfl

@[simp] theorem State.openArrive_pending (s : State) (n : Nat) (p : PeerOpen) :
    (s.openArrive n p).pending = s.pending := State.foldl_pending (by simp) _ _

@[simp] theorem State.noteOpen_pending (s : State) (u : Upd) (o : Nat × Nat) : (s.noteOpen u o).pending = s.pending := rfl

theorem State.sendOpen_pending {s t : State} {u : Upd} {w : Tensor} {o : Nat × Nat} (h : s.sendOpen u w o = some t) :
    t.pending = s.pending := by
  unfold State.sendOpen at h
  dsimp only at h
  split at h
  · obtain ⟨e, -, rfl⟩ := Option.map_eq_some_iff.mp h
    simp
  · split at h
    · cases h
    · cases h
      simp

@[simp] theorem State.takeEngine_pending (s : State) (c : Cid) (ctx : CtxId) (p : Nat) :
    (s.takeEngine c ctx p).pending = s.pending := by
  simp [State.takeEngine]

@[simp] theorem State.leaveEngine_pending (s : State) (p : Nat) (arrays : Bool) :
    (s.leaveEngine p arrays).pending = s.pending := by
  simp [State.leaveEngine]

@[simp] theorem State.leaveCores_pending (s : State) (c : Cid) : (s.leaveCores c).pending = s.pending := rfl

@[simp] theorem State.updFail_pending (s : State) (c : Cid) (status info : Nat) :
    (s.updFail c status info).pending = s.pending := by
  unfold State.updFail
  split <;> simp

theorem Fetched.foldl_fst_pending {α β : Type} {f : Fetched × β → α → Fetched × β}
    (hf : ∀ x a, (f x a).1.s.pending = x.1.s.pending) (l : List α) (x : Fetched × β) :
    (l.foldl f x).1.s.pending = x.1.s.pending := foldl_keeps (·.1.s.pending) hf l x

@[simp] theorem UpdRun.unit_pending (x : UpdRun) (j : UpdJob) (u : Nat) : (x.unit j u).s.pending = x.s.pending := by
  unfold UpdRun.unit
  simp [apply_ite UpdRun.s, apply_ite Fetched.s, apply_ite State.pending, apply_ite Prod.fst, State.foldl_pending_of_eq,
    Fetched.foldl_fst_pending]

@[simp] theorem State.updCompute_pending (s : State) (u : Upd) (k : Cmd) (m : Move) :
    (s.updCompute u k m).pending = s.pending := by
  have hunits (j : UpdJob) (l : List Nat) (x : UpdRun) :
      (l.foldl (fun (x : UpdRun) q => x.unit j q) x).s.pending = x.s.pending :=
    foldl_keeps (·.s.pending) (fun x q => UpdRun.unit_pending x j q) _ _
  simp [State.updCompute, apply_ite State.pending, State.foldl_pending_of_eq, hunits]

@[simp] theorem State.updStep_pending (s : State) (c : Cid) : (s.updStep c).pending = s.pending := by
  unfold State.updStep
  repeat' split
  all_goals simp

@[simp] theorem State.cmdStep_pending (s : State) (c : Cid) : (s.cmdStep c).pending = s.pending := by
  unfold State.cmdStep
  repeat' split
  all_goals simp

@[simp] theorem State.slotDrained_pending (s : State) (n q e : Nat) : (s.slotDrained n q e).pending = s.pending := by
  unfold State.slotDrained
  dsimp only
  split
  · split
    · rfl
    · split
      · simp [State.foldl_pending_of_eq]
      · next h =>
        obtain ⟨z, hz, ht⟩ := foldl_bind_keeps State.pending (fun _ _ _ => State.sendOpen_pending) h
        cases hz
        split <;> simp [apply_ite State.pending, apply_ite Gathered.s, ht, State.foldl_pending_of_eq]
  · rfl

@[simp] theorem State.publish_pending (s : State) (n q e : Nat) : (s.publish n q e).pending = s.pending := by
  unfold State.publish
  dsimp only
  repeat' split
  all_goals simp

@[simp] theorem State.peerTimeout_pending (s : State) (n q e : Nat) : (s.peerTimeout n q e).pending = s.pending := by
  unfold State.peerTimeout
  dsimp only
  repeat' split
  all_goals simp

@[simp] theorem State.checkRoot_pending (s : State) (n : Nat) (k : Cmd) : (s.checkRoot n k).s.pending = s.pending := by
  simp [State.checkRoot]

@[simp] theorem State.setRoot_pending (s : State) (r : RootJob) : (s.setRoot r).pending = s.pending := rfl

@[simp] theorem State.rootStep_pending (s : State) (r : RootJob) (raw : List Byte) (p : Nat) :
    (s.rootStep r raw p).1.s.pending = s.pending := by
  unfold State.rootStep
  dsimp only
  repeat' split
  all_goals simp

@[simp] theorem State.rootRun_pending (s : State) (c : Cid) : (s.rootRun c).pending = s.pending := by
  unfold State.rootRun
  split
  · dsimp only
    split
    · rfl
    · simp [apply_ite State.pending, State.foldl_pending_of_eq]
  · rfl

@[simp] theorem State.rootStart_pending (s : State) (n q e : Nat) : (s.rootStart n q e).pending = s.pending := by
  unfold State.rootStart
  dsimp only
  split <;> simp [State.foldl_pending]

/-! ### Objects and requests (Objects) -/

@[simp] theorem State.scrub_pending (s : State) (pl : Place) (n : Nat) : (s.scrub pl n).pending = s.pending := by
  unfold State.scrub
  split <;> rfl

@[simp] theorem State.scrubHold_pending (s : State) (quarters : List Nat) :
    (s.scrubHold quarters).pending = s.pending := rfl

@[simp] theorem State.scrubScratch_pending (s : State) (n : Nat) : (s.scrubScratch n).pending = s.pending := rfl
@[simp] theorem State.unmapAll_pending (s : State) (n i h : Nat) : (s.unmapAll n i h).pending = s.pending := rfl

@[simp] theorem State.freeObj_pending (s : State) (n i : Nat) (o : MemObj) : (s.freeObj n i o).pending = s.pending := by
  refine State.foldl_pending (fun t a => ?_) _ _
  split <;> simp

@[simp] theorem State.freeProg_pending (s : State) (n i : Nat) (pr : Prog) : (s.freeProg n i pr).pending = s.pending := by
  refine State.foldl_pending (fun t a => ?_) _ _
  split <;> simp

@[simp] theorem State.freeFence_pending (s : State) (n i : Nat) : (s.freeFence n i).pending = s.pending := rfl
@[simp] theorem State.freeQueue_pending (s : State) (n q : Nat) : (s.freeQueue n q).pending = s.pending := rfl

@[simp] theorem State.reap_pending (s : State) (n : Nat) : (s.reap n).pending = s.pending := by
  unfold State.reap
  refine (State.foldl_pending (fun t e => ?_) _ _).trans ((State.foldl_pending (fun t e => ?_) _ _).trans
    (State.foldl_pending (fun t e => ?_) _ _)) <;> simp [apply_ite State.pending]

@[simp] theorem State.reapAll_pending (s : State) : s.reapAll.pending = s.pending := State.foldl_pending (by simp) _ _

@[simp] theorem State.stopCmd_pending (s : State) (n : Nat) (k : Cmd) (status : Nat) :
    (s.stopCmd n k status).pending = s.pending := by
  unfold State.stopCmd
  dsimp only
  repeat' split
  all_goals simp

@[simp] theorem State.stopQueues_pending (s : State) (n status : Nat) (which : Nat → Bool) :
    (s.stopQueues n status which).pending = s.pending := State.foldl_pending (by simp) _ _

@[simp] theorem State.mapQueues_pending (s : State) (n : Nat) (which : Nat → Queue → Bool) (f : Queue → Queue) :
    (s.mapQueues n which f).pending = s.pending := rfl

@[simp] theorem State.revokeQueues_pending (s : State) (n : Nat) (c : CtxId) (tag : Option Word) (status : Nat) :
    (s.revokeQueues n c tag status).pending = s.pending := by
  simp [State.revokeQueues]

@[simp] theorem State.signalAll_pending (s : State) (n : Nat) (is : List Nat) : (s.signalAll n is).pending = s.pending := by
  refine State.foldl_pending (fun t a => ?_) _ _
  repeat' split
  all_goals simp

@[simp] theorem State.dropPins_pending (s : State) (n : Nat) (c : CtxId) (which : Pin → Bool) :
    (s.dropPins n c which).pending = s.pending := by
  unfold State.dropPins
  dsimp only
  split <;> simp [State.foldl_pending]

@[simp] theorem State.checkRequest_pending (s : State) (n : Nat) (k : Cmd) :
    (s.checkRequest n k).s.pending = s.pending := by
  simp [State.checkRequest]

@[simp] theorem State.request_pending (s : State) (n e op : Nat) {run : State → Cid → Cmd → State}
    (hrun : ∀ t c k, (run t c k).pending = t.pending) : (s.request n e op run).pending = s.pending := by
  unfold State.request
  split
  · rfl
  · dsimp only
    split
    · simp
    · simp [apply_ite State.pending, hrun]

@[simp] theorem State.ctxCreate_pending (s : State) (n : Nat) (c : Cid) (k : Cmd) :
    (s.ctxCreate n c k).pending = s.pending := by
  unfold State.ctxCreate
  split <;> simp

@[simp] theorem State.ctxDestroy_pending (s : State) (n : Nat) (c : Cid) (k : Cmd) :
    (s.ctxDestroy n c k).pending = s.pending := by
  unfold State.ctxDestroy
  dsimp only
  split <;> simp

@[simp] theorem State.queueCreate_pending (s : State) (n : Nat) (c : Cid) (k : Cmd) :
    (s.queueCreate n c k).pending = s.pending := by
  unfold State.queueCreate
  dsimp only
  split <;> simp

@[simp] theorem State.queueDestroy_pending (s : State) (n : Nat) (c : Cid) (k : Cmd) :
    (s.queueDestroy n c k).pending = s.pending := by
  simp [State.queueDestroy]

@[simp] theorem State.queueResume_pending (s : State) (n : Nat) (c : Cid) (k : Cmd) :
    (s.queueResume n c k).pending = s.pending := by
  simp [State.queueResume]

@[simp] theorem State.fenceCreate_pending (s : State) (n : Nat) (c : Cid) (k : Cmd) :
    (s.fenceCreate n c k).pending = s.pending := by
  unfold State.fenceCreate
  dsimp only
  split <;> simp

@[simp] theorem State.fenceDestroy_pending (s : State) (n : Nat) (c : Cid) (k : Cmd) :
    (s.fenceDestroy n c k).pending = s.pending := by
  unfold State.fenceDestroy
  dsimp only
  split <;> simp

@[simp] theorem State.fenceReset_pending (s : State) (n : Nat) (c : Cid) (k : Cmd) :
    (s.fenceReset n c k).pending = s.pending := by
  unfold State.fenceReset
  dsimp only
  repeat' split
  all_goals simp

@[simp] theorem State.memCreate_pending (s : State) (n : Nat) (c : Cid) (k : Cmd) :
    (s.memCreate n c k).pending = s.pending := by
  unfold State.memCreate
  dsimp only
  split
  · simp
  · next s1 bases h =>
    have hpages : s1.pending = s.pending := by
      split at h
      · exact State.hostPages_pending h
      · exact State.computePages_pending h
    split <;> simp [hpages]

@[simp] theorem State.memDestroy_pending (s : State) (n : Nat) (c : Cid) (k : Cmd) :
    (s.memDestroy n c k).pending = s.pending := by
  unfold State.memDestroy
  dsimp only
  repeat' split
  all_goals simp

@[simp] theorem State.memSettle_pending (s : State) (n : Nat) (c : Cid) (k : Cmd) :
    (s.memSettle n c k).pending = s.pending := rfl

@[simp] theorem State.revokeOwner_pending (s : State) (n : Nat) (k : Cmd) : (s.revokeOwner n k).pending = s.pending := by
  simp [State.revokeOwner]

@[simp] theorem State.freeQueues_pending (s : State) (n : Nat) (qs : List Nat) :
    (s.freeQueues n qs).pending = s.pending := State.foldl_pending (by simp) _ _

@[simp] theorem State.killFences_pending (s : State) (n seq : Nat) (is : List Nat) :
    (s.killFences n seq is).pending = s.pending := rfl

@[simp] theorem State.revokeRest_pending (s : State) (n : Nat) (c : CtxId) (tag : Word) :
    (s.revokeRest n c tag).pending = s.pending := by
  unfold State.revokeRest
  dsimp only
  split <;> simp

@[simp] theorem State.tearDown_pending (s : State) (n : Nat) (c : CtxId) : (s.tearDown n c).pending = s.pending := by
  unfold State.tearDown
  dsimp only
  repeat' split
  all_goals simp

@[simp] theorem State.tearAll_pending (s : State) (n : Nat) : (s.tearAll n).pending = s.pending := by
  unfold State.tearAll
  rw [State.reapAll_pending]
  refine State.foldl_pending (fun t e => ?_) _ _
  simp [apply_ite State.pending]

@[simp] theorem State.closeCtx_pending (s : State) (c : CtxId) : (s.closeCtx c).pending = s.pending := rfl

@[simp] theorem State.teardownTimeout_pending (s : State) (c : Nat) : (s.teardownTimeout c).pending = s.pending := by
  unfold State.teardownTimeout
  dsimp only
  repeat' split
  all_goals simp [State.foldl_pending]

@[simp] theorem State.ctxIdFree_pending (s : State) (c : Nat) : (s.ctxIdFree c).pending = s.pending := rfl

/-! ### FIX and restore (Fix) -/

@[simp] theorem State.checkFix_pending (s : State) (n : Nat) (c : CtxId) (k : Cmd) :
    (s.checkFix n c k).s.pending = s.pending := by
  simp [State.checkFix]

@[simp] theorem State.fixStream_pending (s : State) (n : Nat) (c : CtxId) (k : Cmd) :
    (s.fixStream n c k).s.pending = s.pending := by
  refine foldl_keeps (·.1.s.pending) (fun (x : Fetched × List (List Byte)) e => ?_) _ _
  simp [apply_ite Prod.fst, apply_ite Fetched.s, apply_ite State.pending]

@[simp] theorem State.sendFix_pending (s : State) (c : Cid) (base : Nat) (stream : List Byte) :
    (s.sendFix c base stream).pending = s.pending := State.foldl_pending (by simp) _ _

@[simp] theorem State.fixRun_pending (s : State) (c : Cid) (x : Queue) (k : Cmd) :
    (s.fixRun c x k).pending = s.pending := by
  unfold State.fixRun
  dsimp only
  repeat' split
  all_goals simp

@[simp] theorem State.fixStart_pending (s : State) (n q e : Nat) : (s.fixStart n q e).pending = s.pending := by
  unfold State.fixStart
  split <;> simp

@[simp] theorem State.fixEnd_pending (s : State) (f : FixRun) (status : Nat) : (s.fixEnd f status).pending = s.pending := by
  simp [State.fixEnd]

@[simp] theorem State.fixAck_pending (s : State) (p : Packet) : (s.fixAck p).pending = s.pending := by
  unfold State.fixAck
  dsimp only
  repeat' split
  all_goals simp

@[simp] theorem State.fixWrite_pending (s : State) (p : Packet) : (s.fixWrite p).pending = s.pending := by
  unfold State.fixWrite
  dsimp only
  split <;> simp

@[simp] theorem State.restoreDone_pending (s : State) (n result : Nat) : (s.restoreDone n result).pending = s.pending := rfl

@[simp] theorem State.restoreObj_pending (s : State) (n h : Nat) (e stream : List Byte) :
    (s.restoreObj n h e stream).1.pending = s.pending := by
  unfold State.restoreObj
  dsimp only
  repeat' split
  all_goals simp [State.foldl_pending]

@[simp] theorem State.restoreRun_pending (s : State) (n : Nat) (r : Restore) (stream : List Byte) :
    (s.restoreRun n r stream).pending = s.pending := by
  have hobjs (l : List Nat) (x : State × Bool) : (l.foldl (fun (x : State × Bool) i =>
      ((x.1.restoreObj n (s.restoreHandle r stream i) (stream.drop (64 + 32 * i)) stream).1,
        x.2 || (x.1.restoreObj n (s.restoreHandle r stream i) (stream.drop (64 + 32 * i)) stream).2)) x).1.pending =
      x.1.pending := State.foldl_fst_pending (fun x i => by simp) _ _
  unfold State.restoreRun
  dsimp only
  split <;> simp [hobjs]

@[simp] theorem State.restoreAsk_pending (s : State) (n : Nat) (r : Restore) (len : Nat) :
    (s.restoreAsk n r len).pending = s.pending := by
  simp [State.restoreAsk]

@[simp] theorem State.restoreStep_pending (s : State) (p : Packet) : (s.restoreStep p).pending = s.pending := by
  unfold State.restoreStep
  dsimp only
  repeat' split
  all_goals simp

@[simp] theorem State.restoreGo_pending (s : State) (n : Nat) : (s.restoreGo n).pending = s.pending := by
  unfold State.restoreGo
  dsimp only
  repeat' split
  all_goals simp

/-! ### Retiring (Retire) -/

@[simp] theorem State.checkBody_pending (s : State) (n : Nat) (c : CtxId) (k : Cmd) :
    (s.checkBody n c k).s.pending = s.pending := by
  unfold State.checkBody
  simp [apply_ite Fetched.s, apply_ite State.pending]

@[simp] theorem State.bodyCheck_pending (s : State) (n q e : Nat) : (s.bodyCheck n q e).pending = s.pending := by
  unfold State.bodyCheck
  dsimp only
  repeat' split
  all_goals simp

@[simp] theorem State.unbind_pending (s : State) (n : Nat) (d : Disp) : (s.unbind n d).pending = s.pending := by
  refine State.foldl_pending (fun t a => ?_) _ _
  repeat' split
  all_goals simp

@[simp] theorem State.clearDisp_pending (s : State) (d : Disp) : (s.clearDisp d).pending = s.pending := by
  simp [State.clearDisp]

@[simp] theorem State.clearUpd_pending (s : State) (u : Upd) : (s.clearUpd u).pending = s.pending := by
  unfold State.clearUpd
  dsimp only
  split <;> simp

@[simp] theorem State.clearRun_pending (s : State) (c : Cid) : (s.clearRun c).pending = s.pending := by
  unfold State.clearRun
  dsimp only
  repeat' split
  all_goals simp

@[simp] theorem State.endWrites_pending (s : State) (n : Nat) (k : Cmd) (status : Nat) :
    (s.endWrites n k status).pending = s.pending := State.foldl_pending (by simp) _ _

@[simp] theorem State.endSignal_pending (s : State) (n : Nat) (k : Cmd) (status : Nat) :
    (s.endSignal n k status).pending = s.pending := by
  refine State.foldl_pending (fun t i => ?_) _ _
  split
  · rfl
  · simp [apply_ite State.pending]

@[simp] theorem State.endRecord_pending (s : State) (n : Nat) (k : Cmd) (r : Nat × Word × DWord) :
    (s.endRecord n k r).pending = s.pending := by
  unfold State.endRecord
  dsimp only
  repeat' split
  all_goals simp

@[simp] theorem State.ownerStep_pending (s : State) (n q : Nat) : (s.ownerStep n q).pending = s.pending := by
  unfold State.ownerStep
  repeat' split
  all_goals simp

@[simp] theorem State.endRequest_pending (s : State) (n : Nat) (k : Cmd) : (s.endRequest n k).pending = s.pending := by
  unfold State.endRequest
  dsimp only
  repeat' split
  all_goals simp

@[simp] theorem State.forget_pending (s : State) (n : Nat) (k : Cmd) : (s.forget n k).pending = s.pending := rfl

@[simp] theorem State.retire_pending (s : State) (n q e : Nat) : (s.retire n q e).pending = s.pending := by
  unfold State.retire
  repeat' split
  all_goals simp

end Sys2Proof.Machine

/-! What a command leaves of the queue of commands: links, memory, resets, Helm and meter. -/

namespace Sys2Proof.Machine

/-! ### Ports and frames (Links) -/

@[simp] theorem State.sealStep_pending (s : State) (n : Nat) : (s.sealStep n).pending = s.pending := by
  simp [State.sealStep, apply_ite State.pending, State.foldl_pending_of_eq]

@[simp] theorem State.sealCheck_pending (s : State) : s.sealCheck.pending = s.pending := State.foldl_pending (by simp) _ _

@[simp] theorem State.trainPort_pending (s : State) (k : Nat) : (s.trainPort k).pending = s.pending := by
  unfold State.trainPort
  dsimp only
  split <;> rfl

@[simp] theorem State.exchange_pending (s : State) (k : Nat) (near far : BitVec 8) (nb : NeighbourReport) :
    (s.exchange k near far nb).pending = s.pending := by
  unfold State.exchange
  dsimp only
  repeat' split
  all_goals simp

@[simp] theorem State.retrain_pending (s : State) (k : Nat) (byNak : Bool) (excluded : BitVec 8) :
    (s.retrain k byNak excluded).pending = s.pending := rfl

@[simp] theorem State.countNak_pending (s : State) (k : Nat) (sent : Bool) (seq : Nat) :
    (s.countNak k sent seq).pending = s.pending := by
  unfold State.countNak
  dsimp only
  repeat' split
  all_goals rfl

@[simp] theorem State.transmit_pending (s : State) (k : Nat) (again : List TxFrame) :
    (s.transmit k again).pending = s.pending := by
  unfold State.transmit
  dsimp only
  repeat' split
  all_goals simp

@[simp] theorem State.dropPort_pending (s : State) (k : Nat) : (s.dropPort k).pending = s.pending := by
  simp [State.dropPort, State.foldl_pending]

@[simp] theorem State.drainPort_pending (s : State) (k : Nat) : (s.drainPort k).pending = s.pending := by
  unfold State.drainPort
  dsimp only
  split <;> simp

@[simp] theorem State.loseLanes_pending (s : State) (k : Nat) : (s.loseLanes k).pending = s.pending := by
  simp [State.loseLanes]

@[simp] theorem State.takeFrame_pending (s : State) (k : Nat) (f : Frame) : (s.takeFrame k f).pending = s.pending := by
  unfold State.takeFrame
  repeat' split
  all_goals simp

@[simp] theorem State.injectFrame_pending (s : State) (k : Nat) (f : Frame) :
    (s.injectFrame k f).1.pending = s.pending := by
  simp [State.injectFrame]

@[simp] theorem State.frame_pending (s : State) (k : Nat) (f0 : Frame) : (s.frame k f0).pending = s.pending := by
  unfold State.frame
  dsimp only
  repeat' split
  all_goals simp

@[simp] theorem State.laneLost_pending (s : State) (k lane : Nat) : (s.laneLost k lane).pending = s.pending := by
  unfold State.laneLost
  dsimp only
  repeat' split
  all_goals simp

@[simp] theorem State.retrained_pending (s : State) (k : Nat) (near far : BitVec 8) :
    (s.retrained k near far).pending = s.pending := by
  unfold State.retrained
  dsimp only
  repeat' split
  all_goals simp

@[simp] theorem State.retrainOut_pending (s : State) (k : Nat) : (s.retrainOut k).pending = s.pending := by
  unfold State.retrainOut
  split <;> simp

/-! ### Packets (Packets) -/

@[simp] theorem State.takePacket_pending (s : State) (k : Nat) (r : Recv) : (s.takePacket k r).pending = s.pending := rfl

@[simp] theorem State.serve_pending (s : State) (k type : Nat) (ok : Packet → Bool) {f : State → Packet → State}
    (hf : ∀ t p, (f t p).pending = t.pending) : (s.serve k type ok f).pending = s.pending := by
  unfold State.serve
  split
  · rfl
  · simp [apply_ite State.pending, hf]

@[simp] theorem State.lateDrop_pending (s : State) (p : Packet) : (s.lateDrop p).pending = s.pending := rfl

@[simp] theorem State.answer_pending (s : State) (p : Packet) (type status : Nat) (payload : List Byte) :
    (s.answer p type status payload).pending = s.pending := by
  simp [State.answer]

@[simp] theorem State.readServe_pending (s : State) (p : Packet) : (s.readServe p).pending = s.pending := by
  unfold State.readServe
  dsimp only
  repeat' split
  all_goals simp

@[simp] theorem State.writeServe_pending (s : State) (p : Packet) : (s.writeServe p).pending = s.pending := by
  obtain ⟨push, hf, hpush⟩ := State.pushArrive_body
  unfold State.writeServe
  rw [hf]
  dsimp only
  split
  · simp [apply_ite State.pending]
  · split
    · simp
    · split
      · split
        · next h => simp [hpush _ _ _ _ _ _ _ h]
        · simp
      · split <;> simp

@[simp] theorem State.atomicServe_pending (s : State) (p : Packet) : (s.atomicServe p).pending = s.pending := by
  unfold State.atomicServe
  dsimp only
  repeat' split
  all_goals simp

@[simp] theorem State.cmdFault_pending (s : State) (c : Cid) (status : Nat) :
    (s.cmdFault c status).pending = s.pending := by
  unfold State.cmdFault
  repeat' split
  all_goals simp

@[simp] theorem State.cacheAtomic_pending (s : State) (p : Nat) (r : FarReq) (bs : List Byte) :
    (s.cacheAtomic p r bs).pending = s.pending := by
  unfold State.cacheAtomic
  dsimp only
  split <;> rfl

@[simp] theorem State.slotAnswer_pending (s : State) (p : Packet) : (s.slotAnswer p).pending = s.pending := by
  unfold State.slotAnswer
  repeat' split
  all_goals simp

@[simp] theorem State.fillAnswer_pending (s : State) (f : Fill) (p : Packet) : (s.fillAnswer f p).pending = s.pending := by
  unfold State.fillAnswer
  dsimp only
  repeat' split
  all_goals simp

@[simp] theorem State.readAnswer_pending (s : State) (p : Packet) : (s.readAnswer p).pending = s.pending := by
  unfold State.readAnswer
  repeat' split
  all_goals simp

@[simp] theorem State.ackAnswer_pending (s : State) (p : Packet) : (s.ackAnswer p).pending = s.pending := by
  unfold State.ackAnswer
  repeat' split
  all_goals simp

@[simp] theorem State.addWaiter_pending (s : State) (n h : Nat) (w : Waiter) : (s.addWaiter n h w).pending = s.pending := by
  unfold State.addWaiter
  dsimp only
  repeat' split
  all_goals simp

@[simp] theorem State.noticeServe_pending (s : State) (p : Packet) : (s.noticeServe p).pending = s.pending := by
  unfold State.noticeServe
  dsimp only
  repeat' split
  all_goals simp

@[simp] theorem State.openServe_pending (s : State) (p : Packet) : (s.openServe p).pending = s.pending := by
  unfold State.openServe
  split <;> simp

@[simp] theorem State.resend_pending (s : State) (k : Nat) : (s.resend k).pending = s.pending := by
  unfold State.resend
  dsimp only
  repeat' split
  all_goals simp

@[simp] theorem State.forward_pending (s : State) (k : Nat) : (s.forward k).pending = s.pending := by
  unfold State.forward
  repeat' split
  all_goals simp

@[simp] theorem State.blockUnreached_pending (s : State) (p slot block pc : Nat) :
    (s.blockUnreached p slot block pc).pending = s.pending := by
  unfold State.blockUnreached
  split <;> simp

@[simp] theorem State.slotOut_pending (s : State) (p k : Nat) : (s.slotOut p k).pending = s.pending := by
  unfold State.slotOut
  repeat' split
  all_goals simp

@[simp] theorem State.fillOut_pending (s : State) (p addr : Nat) : (s.fillOut p addr).pending = s.pending := by
  unfold State.fillOut
  dsimp only
  repeat' split
  all_goals simp

@[simp] theorem State.waitOut_pending (s : State) (c : Cid) : (s.waitOut c).pending = s.pending := by
  unfold State.waitOut
  repeat' split
  all_goals simp

@[simp] theorem State.fixOut_pending (s : State) (c : Cid) : (s.fixOut c).pending = s.pending := by
  unfold State.fixOut
  repeat' split
  all_goals simp

@[simp] theorem State.remoteTimeout_pending (s : State) (t : TimeoutOf) : (s.remoteTimeout t).pending = s.pending := by
  unfold State.remoteTimeout
  split <;> simp

/-! ### Memory channels (Channels) -/

@[simp] theorem State.zeroChan_pending (s : State) (c : Nat) : (s.zeroChan c).pending = s.pending := by
  unfold State.zeroChan
  split <;> rfl

@[simp] theorem State.wake_pending (s : State) (ps : List Nat) :
    (s.wake ps).pending = s.pending := State.foldl_pending (by simp) _ _

@[simp] theorem State.scrubPtn_pending (s : State) (n : Nat) :
    (s.scrubPtn n).pending = s.pending := State.foldl_pending (by simp) _ _

@[simp] theorem State.openPtn_pending (s : State) (n : Nat) : (s.openPtn n).pending = s.pending := by
  simp [State.openPtn]

@[simp] theorem State.clearBlock_pending (s : State) (n : Nat) : (s.clearBlock n).pending = s.pending := rfl

@[simp] theorem State.closePtn_pending (s : State) (n : Nat) : (s.closePtn n).pending = s.pending := by
  rw [State.closePtn, State.sealCheck_pending, State.setField_pending, State.clearBlock_pending]
  exact (State.foldl_pending (fun t p => by simp) _ _).trans (by simp)

@[simp] theorem State.newLayout_pending (s : State) (v : DWord) : (s.newLayout v).pending = s.pending := by
  simp [State.newLayout, apply_ite State.pending, State.foldl_pending_of_eq]

@[simp] theorem State.startPtn_pending (s : State) (n : Nat) : (s.startPtn n).pending = s.pending := by
  unfold State.startPtn
  split <;> simp

@[simp] theorem State.startDone_pending (s : State) : s.startDone.pending = s.pending := by
  simp [State.startDone, apply_ite State.pending, State.foldl_pending_of_eq]

@[simp] theorem State.trainedAll_pending (s : State) : s.trainedAll.pending = s.pending := by
  unfold State.trainedAll
  split <;> simp

@[simp] theorem State.startTraining_pending (s : State) : s.startTraining.pending = s.pending := by
  simp [State.startTraining, apply_ite State.pending, State.foldl_pending_of_eq]

@[simp] theorem State.channelTrained_pending (s : State) (c : Nat) : (s.channelTrained c).pending = s.pending := by
  unfold State.channelTrained
  split <;> simp

@[simp] theorem State.listRetired_pending (s : State) (c : Nat) : (s.listRetired c).pending = s.pending := rfl

@[simp] theorem State.powerOffChan_pending (s : State) (c role agent serial : Nat) :
    (s.powerOffChan c role agent serial).pending = s.pending := by
  unfold State.powerOffChan
  split <;> rfl

@[simp] theorem State.rateStepDown_pending (s : State) (c : Nat) : (s.rateStepDown c).pending = s.pending := by
  unfold State.rateStepDown
  dsimp only
  repeat' split
  all_goals simp

@[simp] theorem State.refreshBank_pending (s : State) (c bank : Nat) : (s.refreshBank c bank).pending = s.pending := by
  unfold State.refreshBank
  split <;> rfl

@[simp] theorem State.refreshRate_pending (s : State) (c rate : Nat) : (s.refreshRate c rate).pending = s.pending := by
  unfold State.refreshRate
  split <;> rfl

@[simp] theorem State.patrol_pending (s : State) (c k : Nat) : (s.patrol c k).pending = s.pending := by
  unfold State.patrol
  repeat' split
  all_goals simp

@[simp] theorem State.endMigration_pending (s : State) : s.endMigration.pending = s.pending := by
  unfold State.endMigration
  repeat' split
  all_goals simp

@[simp] theorem State.beginRetire_pending (s : State) (c role agent serial : Nat) :
    (s.beginRetire c role agent serial).pending = s.pending := by
  simp [State.beginRetire]

@[simp] theorem State.copyFrame_pending (s : State) (src dst : Nat × Nat) : (s.copyFrame src dst).pending = s.pending := rfl

@[simp] theorem State.requestsMoved_pending (s : State) (src dst : Nat × Nat) :
    (s.requestsMoved src dst).pending = s.pending := rfl

@[simp] theorem State.frameMigrated_pending (s : State) : s.frameMigrated.pending = s.pending := by
  unfold State.frameMigrated
  dsimp only
  repeat' split
  all_goals simp

@[simp] theorem State.beginRetrain_pending (s : State) (c : Nat) : (s.beginRetrain c).pending = s.pending := by
  unfold State.beginRetrain
  dsimp only
  split <;> rfl

@[simp] theorem State.retrainDone_pending (s : State) (c : Nat) : (s.retrainDone c).pending = s.pending := by
  unfold State.retrainDone
  dsimp only
  split <;> rfl

@[simp] theorem State.deviceCorrections_pending (s : State) (c k : Nat) :
    (s.deviceCorrections c k).pending = s.pending := by
  unfold State.deviceCorrections
  split <;> rfl

/-! ### Resets (Resets) -/

@[simp] theorem State.dropMailboxes_pending (s : State) (agents : List Nat) :
    (s.dropMailboxes agents).pending = s.pending := State.foldl_pending (by simp) _ _

@[simp] theorem State.resetCore_pending (s : State) (p : Nat) : (s.resetCore p).pending = s.pending := rfl

@[simp] theorem State.cutOff_pending (s : State) (l : List (Nat × Cmd)) (status : Nat) :
    (s.cutOff l status).pending = s.pending := State.foldl_pending (by simp) _ _

@[simp] theorem State.engineReset_pending (s : State) (p : Nat) : (s.engineReset p).pending = s.pending := by
  simp [State.engineReset]

@[simp] theorem State.tableWritten_pending (s : State) (n base size : Nat) :
    (s.tableWritten n base size).pending = s.pending := by
  unfold State.tableWritten
  split <;> simp

@[simp] theorem State.rebuildTables_pending (s : State) (n : Nat) : (s.rebuildTables n).pending = s.pending := by
  have hlost (c : Nat) (l : List (Nat × Nat × Nat)) (t : State) : (l.foldl (fun u y =>
      match u.lostIn n (4096 * y.2.2) (if y.1 = 1 then 65536 else 4096), Tab.get? u.ctxs c with
      | _ :: _, some x => ((u.setCtx c (x.loseTable y.1 y.2.1)).tableWritten n y.2.2
          (if y.1 = 1 then 65536 else 4096)).raise .ptnTablesLost n y.2.2
      | _, _ => u) t).pending = t.pending := by
    refine State.foldl_pending (fun u y => ?_) _ _
    split <;> simp
  have hctx (l : List (Nat × Ctx)) : (l.foldl (fun t e => e.2.tabs.foldl (fun u y =>
      match u.lostIn n (4096 * y.2.2) (if y.1 = 1 then 65536 else 4096), Tab.get? u.ctxs e.1 with
      | _ :: _, some c => ((u.setCtx e.1 (c.loseTable y.1 y.2.1)).tableWritten n y.2.2
          (if y.1 = 1 then 65536 else 4096)).raise .ptnTablesLost n y.2.2
      | _, _ => u) t) s).pending = s.pending := State.foldl_pending (fun t (e : Nat × Ctx) => hlost e.1 e.2.tabs t) _ _
  unfold State.rebuildTables
  dsimp only
  split
  · exact hctx _
  · simp only [State.raise_pending]
    exact (State.foldl_pending (by simp) _ _).trans ((State.foldl_pending (by simp) _ _).trans (hctx _))

@[simp] theorem State.scrubReset_pending (s : State) (n : Nat) : (s.scrubReset n).pending = s.pending := rfl

@[simp] theorem State.unsettleAll_pending (s : State) (n : Nat) : (s.unsettleAll n).pending = s.pending := by
  simp [State.unsettleAll, State.foldl_pending]

@[simp] theorem State.emptyPins_pending (s : State) (n : Nat) :
    (s.emptyPins n).pending = s.pending := State.foldl_pending (by simp) _ _

@[simp] theorem State.stopAll_pending (s : State) (n : Nat) : (s.stopAll n).pending = s.pending := by
  unfold State.stopAll
  dsimp only
  split <;> rfl

@[simp] theorem State.rushMigration_pending (s : State) (n : Nat) :
    (s.rushMigration n).pending = s.pending := State.foldl_pending (by simp) _ _

@[simp] theorem State.partitionReset_pending (s : State) (n : Nat) : (s.partitionReset n).pending = s.pending := by
  simp [State.partitionReset, apply_ite State.pending, State.foldl_pending_of_eq]

@[simp] theorem State.clearCounters_pending (s : State) (d : Nat) : (s.clearCounters d).pending = s.pending := rfl

@[simp] theorem State.retrainDie_pending (s : State) (d : Nat) : (s.retrainDie d).pending = s.pending := by
  refine State.foldl_pending (fun t a => ?_) _ _
  split <;> simp

@[simp] theorem State.dieReset_pending (s : State) (d : Nat) : (s.dieReset d).pending = s.pending := by
  simp [State.dieReset, State.foldl_pending_of_eq]

@[simp] theorem State.endSession_pending (s : State) (agent : Nat) : (s.endSession agent).pending = s.pending := by
  unfold State.endSession
  split <;> rfl

@[simp] theorem State.diesReset_pending (s : State) (powerOn : Bool) (straps : BitVec 22) :
    (s.diesReset powerOn straps).pending = s.pending := rfl

@[simp] theorem State.keepReport_pending (s : State) (r : Report) : (s.keepReport r).pending = s.pending := by
  simp [State.keepReport]

@[simp] theorem State.testHeld_pending (s : State) : s.testHeld.pending = s.pending := by
  unfold State.testHeld
  split <;> rfl

@[simp] theorem State.packageReset_pending (s : State) : s.packageReset.pending = s.pending := by
  simp [State.packageReset]

@[simp] theorem State.completeReset_pending (s : State) (r : Reset) : (s.completeReset r).pending = s.pending := by
  unfold State.completeReset
  split <;> simp

/-! ### The Helm (Helm) -/

@[simp] theorem State.hostStep_pending (s : State) (tj : Nat) : (s.hostStep tj).pending = s.pending := by
  unfold State.hostStep
  dsimp only
  split <;> simp

@[simp] theorem State.wearStep_pending (s : State) (d : Nat) : (s.wearStep d).pending = s.pending := by
  unfold State.wearStep
  dsimp only
  split <;> rfl

@[simp] theorem State.dieStep_pending (s0 : State) (d tj : Nat) : (s0.dieStep d tj).pending = s0.pending := by
  unfold State.dieStep
  dsimp only
  repeat' split
  all_goals simp

@[simp] theorem State.steppedAll_pending (s : State) : s.steppedAll.pending = s.pending := by
  unfold State.steppedAll
  split <;> simp

@[simp] theorem State.controlStep_pending (s : State) (d : Nat) (readings : List Nat) :
    (s.controlStep d readings).pending = s.pending := by
  unfold State.controlStep
  repeat' split
  all_goals simp

@[simp] theorem State.fallBack_pending (s : State) (d : Nat) (injected : Bool) :
    (s.fallBack d injected).pending = s.pending := by
  simp [State.fallBack]

@[simp] theorem State.meterFrame_pending (s : State) : s.meterFrame.pending = s.pending := by
  simp [State.meterFrame, apply_ite State.pending, State.foldl_pending_of_eq]

@[simp] theorem State.losesFrames_pending (s : State) (injected : Bool) : (s.losesFrames injected).pending = s.pending := by
  simp [State.losesFrames]

@[simp] theorem State.strobes_pending (s : State) (periods : List Nat) : (s.strobes periods).pending = s.pending := by
  refine State.foldl_pending (fun t d => ?_) _ _
  split
  · rfl
  · rfl
  · simp [apply_ite State.pending]

@[simp] theorem State.losesStrobe_pending (s : State) (d : Nat) (injected : Bool) :
    (s.losesStrobe d injected).pending = s.pending := by
  simp [State.losesStrobe]

/-! ### The meter (Meter) -/

@[simp] theorem State.setMeterChan_pending (s : State) (ch st : Nat) : (s.setMeterChan ch st).pending = s.pending := rfl
@[simp] theorem State.meterFault_pending (s : State) (hi lo x : Nat) : (s.meterFault hi lo x).pending = s.pending := rfl

@[simp] theorem State.sampleInput_pending (s : State) (r : Nat) (x : Sample) :
    (s.sampleInput r x).pending = s.pending := rfl

@[simp] theorem State.meterSample_pending (s : State) (l : List Sample) : (s.meterSample l).pending = s.pending := by
  refine State.foldl_pending (fun t a => ?_) _ _
  split <;> simp

@[simp] theorem State.channelCompare_pending (s : State) : s.channelCompare.pending = s.pending := by
  unfold State.channelCompare
  dsimp only
  repeat' split
  all_goals simp

@[simp] theorem State.countFrame_pending (s : State) (d : Nat) (intact : Bool) :
    (s.countFrame d intact).pending = s.pending := by
  unfold State.countFrame
  dsimp only
  repeat' split
  all_goals rfl

@[simp] theorem State.boundary_pending (s : State) : s.boundary.pending = s.pending := rfl

@[simp] theorem State.windowEnd_pending (s : State) : s.windowEnd.pending = s.pending := by
  rw [State.windowEnd, State.boundary_pending]
  exact State.foldl_pending (by simp) _ _

@[simp] theorem State.sinkWrite_pending (s : State) (n h off : Nat) (bs : List Byte) :
    (s.sinkWrite n h off bs).pending = s.pending := by
  unfold State.sinkWrite
  repeat' split
  all_goals simp

@[simp] theorem State.sinkEntry_pending (s : State) (no : Nat) (head : List Byte) (leaves hashes : List (List Byte))
    (id : Nat) (c : Ctx) :
    (s.sinkEntry no head leaves hashes id c).pending = s.pending := by
  unfold State.sinkEntry
  dsimp only
  repeat' split
  all_goals simp

@[simp] theorem State.nextInterval_pending (s : State) : s.nextInterval.pending = s.pending := rfl

@[simp] theorem State.intervalEnd_pending (s : State) : s.intervalEnd.pending = s.pending := by
  unfold State.intervalEnd
  dsimp only
  split
  · rfl
  · rw [State.drawn_pending, State.setField_pending, State.nextInterval_pending]
    refine (State.foldl_pending (by simp) _ _).trans ?_
    simp [apply_ite State.pending]

@[simp] theorem State.wearBucket_pending (s : State) : s.wearBucket.pending = s.pending := rfl

end Sys2Proof.Machine

/-! What a command leaves of the queue of commands: detectors, registers, boot and sessions. -/

namespace Sys2Proof.Machine

/-! ### Detectors and injection (Detect) -/

@[simp] theorem State.hangReset_pending (s : State) (n : Nat) (l : List CtxId) : (s.hangReset n l).pending = s.pending := by
  simp [State.hangReset]

@[simp] theorem State.hangSolo_pending (s : State) (n p : Nat) : (s.hangSolo n p).pending = s.pending := by
  simp [State.hangSolo, State.foldl_pending]

@[simp] theorem State.hangAt_pending (s : State) (n p : Nat) (ctx : List CtxId) (d0 pc : Nat) (inj : Bool) :
    (s.hangAt n p ctx d0 pc inj).pending = s.pending := by
  unfold State.hangAt
  dsimp only
  split <;> simp

@[simp] theorem State.hang_pending (s : State) (n q e : Nat) : (s.hang n q e).pending = s.pending := by
  unfold State.hang
  dsimp only
  repeat' split
  all_goals simp

@[simp] theorem State.engineFault_pending (s : State) (det p : Nat) (inj : Bool) :
    (s.engineFault det p inj).pending = s.pending := by
  simp [State.engineFault]

@[simp] theorem State.dieFault_pending (s : State) (det u d : Nat) (inj : Bool) :
    (s.dieFault det u d inj).pending = s.pending := by
  simp [State.dieFault]

@[simp] theorem State.packageFault_pending (s : State) (r : Report) : (s.packageFault r).pending = s.pending := by
  simp [State.packageFault]

@[simp] theorem State.railFault_pending (s : State) (det r : Nat) (inj : Bool) :
    (s.railFault det r inj).pending = s.pending := by
  unfold State.railFault
  split <;> simp

@[simp] theorem State.thermalTrip_pending (s : State) (d reading : Nat) :
    (s.thermalTrip d reading).pending = s.pending := by
  unfold State.thermalTrip
  split <;> simp

@[simp] theorem State.keeperTurns_pending (s : State) : s.keeperTurns.pending = s.pending := by
  unfold State.keeperTurns
  split <;> simp

@[simp] theorem State.keeperRestart_pending (s : State) (inj : Bool) : (s.keeperRestart inj).pending = s.pending := by
  simp [State.keeperRestart]

@[simp] theorem State.jointReport_pending (s : State) (j u : Nat) (inj : Bool) :
    (s.jointReport j u inj).pending = s.pending := by
  unfold State.jointReport
  split <;> simp

@[simp] theorem State.jointDown_pending (s : State) (j : Nat) : (s.jointDown j).pending = s.pending := by
  unfold State.jointDown
  split <;> simp

@[simp] theorem State.resetHung_pending (s : State) (lvl : Level) (target suspect : Nat) (inj : Bool) :
    (s.resetHung lvl target suspect inj).pending = s.pending := by
  unfold State.resetHung
  dsimp only
  split <;> simp [State.foldl_pending]

@[simp] theorem State.resetHang_pending (s : State) (k : Nat) : (s.resetHang k).pending = s.pending := by
  unfold State.resetHang
  repeat' split
  all_goals simp

@[simp] theorem State.meterInject_pending (s : State) : s.meterInject.pending = s.pending := by
  unfold State.meterInject
  dsimp only
  repeat' split
  all_goals rfl

@[simp] theorem State.fire_pending (s : State) (det u : Nat) : (s.fire det u).pending = s.pending := by
  unfold State.fire
  simp [apply_ite State.pending]

@[simp] theorem State.fireSeries_pending (k : Nat) (s : State) : (State.fireSeries k s).pending = s.pending := by
  induction k generalizing s with
  | zero => rfl
  | succ k ih =>
    unfold State.fireSeries
    split
    · rfl
    · split
      · rfl
      · simp [ih]

@[simp] theorem State.injectNext_pending (s : State) : s.injectNext.pending = s.pending := by
  simp [State.injectNext]

@[simp] theorem State.arm_pending (s : State) (v : DWord) : (s.arm v).pending = s.pending := by
  unfold State.arm
  dsimp only
  repeat' split
  all_goals simp

@[simp] theorem State.resetEntered_pending (s : State) (k : Nat) : (s.resetEntered k).pending = s.pending := by
  unfold State.resetEntered
  split <;> simp

@[simp] theorem State.gapEnd_pending (s : State) (v : Nat) : (s.gapEnd v).pending = s.pending := by
  unfold State.gapEnd
  repeat' split
  all_goals simp

/-! ### Mailboxes (Mailbox) -/

@[simp] theorem State.setMbox_pending (s : State) (ch : Nat) (m : Mbx) : (s.setMbox ch m).pending = s.pending := rfl
@[simp] theorem State.readBy_pending (s : State) (agent : Nat) (v : DWord) : (s.readBy agent v).pending = s.pending := rfl

@[simp] theorem State.lockRead_pending (s : State) (agent ch : Nat) : (s.lockRead agent ch).pending = s.pending := by
  unfold State.lockRead
  dsimp only
  repeat' split
  all_goals rfl

@[simp] theorem State.msgWrite_pending (s : State) (agent ch : Nat) (v : DWord) :
    (s.msgWrite agent ch v).pending = s.pending := by
  unfold State.msgWrite
  dsimp only
  split <;> rfl

@[simp] theorem State.msgRead_pending (s : State) (agent ch : Nat) : (s.msgRead agent ch).pending = s.pending := by
  unfold State.msgRead
  dsimp only
  repeat' split
  all_goals rfl

@[simp] theorem State.postTo_pending (s : State) (ch dest : Nat) (m : Mbx) : (s.postTo ch dest m).pending = s.pending := rfl

@[simp] theorem State.postDest_pending (s : State) (agent ch dest : Nat) :
    (s.postDest agent ch dest).pending = s.pending := by
  unfold State.postDest
  dsimp only
  repeat' split
  all_goals rfl

@[simp] theorem State.postUnlock_pending (s : State) (agent ch : Nat) : (s.postUnlock agent ch).pending = s.pending := by
  unfold State.postUnlock
  dsimp only
  split <;> rfl

@[simp] theorem State.mbxWrite_pending (s : State) (agent ch off : Nat) (v : DWord) :
    (s.mbxWrite agent ch off v).pending = s.pending := by
  unfold State.mbxWrite
  repeat' split
  all_goals simp

/-! ### Firmware images (Firmware) -/

@[simp] theorem State.badImage_pending (s : State) : s.badImage.pending = s.pending := by
  simp [State.badImage]

@[simp] theorem State.runsNow_pending (s : State) (target key : Nat) (x : Image) :
    (s.runsNow target key x).pending = s.pending := rfl

@[simp] theorem State.setFw_pending (s : State) (st res : Nat) : (s.setFw st res).pending = s.pending := rfl

@[simp] theorem State.startFirmware_pending (s : State) (v : DWord) : (s.startFirmware v).pending = s.pending := by
  unfold State.startFirmware
  dsimp only
  repeat' split
  all_goals simp

@[simp] theorem State.updateRuns_pending (s : State) (t key : Nat) (x : Image) :
    (s.updateRuns t key x).pending = s.pending := by
  unfold State.updateRuns
  repeat' split
  all_goals simp

@[simp] theorem State.imageRuns_pending (s : State) (t unit : Nat) : (s.imageRuns t unit).pending = s.pending := by
  unfold State.imageRuns
  dsimp only
  repeat' split
  all_goals simp

@[simp] theorem State.imageLate_pending (s : State) (t : Nat) : (s.imageLate t).pending = s.pending := by
  unfold State.imageLate
  dsimp only
  repeat' split
  all_goals simp

/-! ### Register writes (Setup) -/

@[simp] theorem State.setupCase_pending (s : State) (addr agent cause : Nat) :
    (s.setupCase addr agent cause).pending = s.pending := by
  unfold State.setupCase
  dsimp only
  split <;> rfl

@[simp] theorem State.refuseReg_pending (s : State) (o : Nat) (wide : Bool) : (s.refuseReg o wide).pending = s.pending := by
  unfold State.refuseReg
  repeat' split
  all_goals rfl

@[simp] theorem State.refuse_pending (s : State) (w : Write) : (s.refuse w).pending = s.pending := by
  simp [State.refuse]

@[simp] theorem State.accept_pending (s : State) (w : Write) : (s.accept w).pending = s.pending := rfl

@[simp] theorem State.logAs_pending (s : State) (w : Write) (kind : Nat) (item new_ : DWord) (c : Change) :
    (s.logAs w kind item new_ c).pending = s.pending := rfl

@[simp] theorem State.logReg_pending (s : State) (w : Write) (c : Change) : (s.logReg w c).pending = s.pending := rfl

@[simp] theorem State.loggedWrite_pending (s : State) (w : Write) (bad : Bool) (c : Change) :
    (s.loggedWrite w bad c).pending = s.pending := by
  unfold State.loggedWrite
  repeat' split
  all_goals simp

@[simp] theorem State.plainWrite_pending (s : State) (w : Write) (bad : Bool) {after : State → State}
    (hafter : ∀ t, (after t).pending = t.pending) : (s.plainWrite w bad after).pending = s.pending := by
  simp [State.plainWrite, apply_ite State.pending, hafter]

@[simp] theorem State.writeLimit_pending (s : State) (w : Write) : (s.writeLimit w).pending = s.pending := by
  simp [State.writeLimit]

@[simp] theorem State.writePower_pending (s : State) (w : Write) : (s.writePower w).pending = s.pending := by
  unfold State.writePower
  repeat' split
  all_goals simp

@[simp] theorem State.writeMemCfg_pending (s : State) (w : Write) : (s.writeMemCfg w).pending = s.pending := by
  simp [State.writeMemCfg]

@[simp] theorem State.writeFltCfg_pending (s : State) (w : Write) : (s.writeFltCfg w).pending = s.pending := by
  simp [State.writeFltCfg]

@[simp] theorem State.writeKept_pending (s : State) : s.writeKept.pending = s.pending := by
  refine (State.foldl_pending (fun t r => ?_) _ _).trans (State.setDealer_pending _ _)
  simp [apply_ite State.pending]

@[simp] theorem State.writeRing_pending (s : State) (w : Write) : (s.writeRing w).pending = s.pending := by
  unfold State.writeRing
  dsimp only
  repeat' split
  all_goals simp

@[simp] theorem State.writeInject_pending (s : State) (w : Write) : (s.writeInject w).pending = s.pending := by
  unfold State.writeInject
  dsimp only
  repeat' split
  all_goals simp

@[simp] theorem State.writeFw_pending (s : State) (w : Write) : (s.writeFw w).pending = s.pending := by
  unfold State.writeFw
  split <;> rfl

@[simp] theorem State.writeMtrCfg_pending (s : State) (w : Write) : (s.writeMtrCfg w).pending = s.pending := by
  simp [State.writeMtrCfg]

@[simp] theorem State.writeCal_pending (s : State) (w : Write) : (s.writeCal w).pending = s.pending := by
  refine State.foldl_pending (fun t f => ?_) _ _
  simp [apply_ite State.pending]

@[simp] theorem State.writePool_pending (s : State) (w : Write) : (s.writePool w).pending = s.pending := by
  simp [State.writePool]

@[simp] theorem State.writeBearing_pending (s : State) (w : Write) : (s.writeBearing w).pending = s.pending := by
  simp [State.writeBearing]

@[simp] theorem State.writeDetour_pending (s : State) (w : Write) (asked : Bool) :
    (s.writeDetour w asked).pending = s.pending := by
  unfold State.writeDetour
  dsimp only
  repeat' split
  all_goals simp

@[simp] theorem State.writePeer_pending (s : State) (w : Write) (asked : Bool) :
    (s.writePeer w asked).pending = s.pending := by
  unfold State.writePeer
  dsimp only
  repeat' split
  all_goals simp

@[simp] theorem State.writePort_pending (s : State) (w : Write) : (s.writePort w).pending = s.pending := by
  unfold State.writePort
  dsimp only
  repeat' split
  all_goals simp

@[simp] theorem State.writeChan_pending (s : State) (w : Write) : (s.writeChan w).pending = s.pending := by
  unfold State.writeChan
  dsimp only
  repeat' split
  all_goals simp

@[simp] theorem State.writeLayout_pending (s : State) (w : Write) : (s.writeLayout w).pending = s.pending := by
  simp [State.writeLayout]

@[simp] theorem State.writeCtl_pending (s : State) (n : Nat) (w : Write) : (s.writeCtl n w).pending = s.pending := by
  unfold State.writeCtl
  split <;> simp

@[simp] theorem State.writeSched_pending (s : State) (n : Nat) (w : Write) : (s.writeSched n w).pending = s.pending := by
  simp [State.writeSched, apply_ite State.pending, State.foldl_pending_of_eq]

@[simp] theorem State.dropCache_pending (s : State) (n : Nat) : (s.dropCache n).pending = s.pending := rfl

@[simp] theorem State.writeHold_pending (s : State) (n : Nat) (w : Write) : (s.writeHold n w).pending = s.pending := by
  simp [State.writeHold]

@[simp] theorem State.mirrorAll_pending (s : State) (n : Nat) :
    (s.mirrorAll n).pending = s.pending := State.foldl_pending (by simp) _ _

@[simp] theorem State.writeMirror_pending (s : State) (n : Nat) (w : Write) : (s.writeMirror n w).pending = s.pending := by
  rw [State.writeMirror]
  refine State.plainWrite_pending _ _ _ (fun t => ?_)
  simp [apply_ite State.pending]

@[simp] theorem State.writeAdmin_pending (s : State) (n : Nat) (w : Write) : (s.writeAdmin n w).pending = s.pending := by
  unfold State.writeAdmin
  dsimp only
  repeat' split
  all_goals simp

@[simp] theorem State.writeAdminAddr_pending (s : State) (n : Nat) (w : Write) :
    (s.writeAdminAddr n w).pending = s.pending := by
  simp [State.writeAdminAddr]

@[simp] theorem State.writeRestore_pending (s : State) (n : Nat) (w : Write) :
    (s.writeRestore n w).pending = s.pending := by
  unfold State.writeRestore
  split <;> simp

@[simp] theorem State.writePtn_pending (s : State) (n : Nat) (w : Write) : (s.writePtn n w).pending = s.pending := by
  have howner (bad : Bool) : (s.plainWrite w bad (fun t => t.scrubScratch n)).pending = s.pending :=
    State.plainWrite_pending _ _ _ (fun t => State.scrubScratch_pending t n)
  unfold State.writePtn
  simp [apply_ite State.pending, howner]

@[simp] theorem State.writeErr_pending (s : State) (w : Write) : (s.writeErr w).pending = s.pending := rfl

@[simp] theorem State.writeBy_pending (s : State) (w : Write) (asked : Bool) : (s.writeBy w asked).pending = s.pending := by
  unfold State.writeBy
  split
  · simp
  · simp [apply_ite State.pending]

@[simp] theorem State.writeSel_pending (s : State) (agent : Nat) (f : RegForm) (v : DWord) :
    (s.writeSel agent f v).pending = s.pending := by
  unfold State.writeSel
  dsimp only
  repeat' split
  all_goals simp

@[simp] theorem State.judged_pending (s : State) (o : Nat) (f : RegForm) (agent : Nat) (v : DWord) (straps : BitVec 22) :
    (s.judged o f agent v straps).pending = s.pending := by
  unfold State.judged
  dsimp only
  repeat' split
  all_goals simp

@[simp] theorem State.setupWriteNow_pending (s : State) (offset : Nat) (w : RegWrite) (straps : BitVec 22) :
    (s.setupWriteNow offset w straps).pending = s.pending := by
  unfold State.setupWriteNow
  dsimp only
  repeat' split
  all_goals simp

@[simp] theorem State.setupWrite_pending (s : State) (offset : Nat) (w : RegWrite) (straps : BitVec 22) :
    (s.setupWrite offset w straps).pending = s.pending := by
  unfold State.setupWrite
  repeat' split
  all_goals simp

@[simp] theorem State.freeBehind_pending (s : State) : s.freeBehind.pending = s.pending := State.foldl_pending (by simp) _ _

@[simp] theorem State.beats_pending (s : State) (p e : Nat) : (s.beats p e).pending = s.pending := by
  unfold State.beats
  dsimp only
  split <;> rfl

@[simp] theorem State.beatsOf_pending (s : State) (sel : DWord) : (s.beatsOf sel).pending = s.pending := by
  unfold State.beatsOf
  split <;> simp

@[simp] theorem State.counterData_pending (s : State) (agent width : Nat) :
    (s.counterData agent width).pending = s.pending := by
  unfold State.counterData
  repeat' split
  all_goals simp

/-! ### Power and boot (Startup) -/

@[simp] theorem State.dark_pending (s : State) (straps : BitVec 22) : (s.dark straps).pending = s.pending := rfl
@[simp] theorem State.beginRails_pending (s : State) : s.beginRails.pending = s.pending := rfl

@[simp] theorem State.powerUp_pending (s : State) (straps : BitVec 22) : (s.powerUp straps).pending = s.pending := by
  rw [State.powerUp, State.beginRails_pending, State.setPkg_pending, State.setMeter_pending, State.dark_pending]

@[simp] theorem State.powerOff_pending (s : State) : s.powerOff.pending = s.pending := rfl
@[simp] theorem State.powerAgain_pending (s : State) (straps : BitVec 22) : (s.powerAgain straps).pending = s.pending := rfl

@[simp] theorem State.railCheck_pending (s : State) (ok : Bool) : (s.railCheck ok).pending = s.pending := by
  unfold State.railCheck
  repeat' split
  all_goals simp

@[simp] theorem State.helmStarts_pending (s : State) : s.helmStarts.pending = s.pending := rfl

@[simp] theorem State.booted_pending (s : State) (l : List Byte) (slotB fromHost : Bool) :
    (s.booted l slotB fromHost).pending = s.pending := rfl

@[simp] theorem State.bootWindow_pending (s : State) (l : List Byte) : (s.bootWindow l).pending = s.pending := by
  unfold State.bootWindow
  repeat' split
  all_goals simp

@[simp] theorem State.fromFlash_pending (s : State) (t : Nat) : (s.fromFlash t).1.pending = s.pending := by
  refine State.foldl_fst_pending (fun x e => ?_) _ _
  simp [apply_ite Prod.fst, apply_ite State.pending]

@[simp] theorem State.loadOther_pending (s : State) (t : Nat) (keys : List Nat) :
    (s.loadOther t keys).pending = s.pending := by
  unfold State.loadOther
  have h := s.fromFlash_pending t
  split <;> simp_all

@[simp] theorem State.recover_pending (s : State) : s.recover.pending = s.pending := rfl

@[simp] theorem State.bootLoaded_pending (s : State) (flash : List Byte) : (s.bootLoaded flash).pending = s.pending := by
  unfold State.bootLoaded
  split
  · rfl
  · dsimp only
    split
    · simp
    · have h := State.fromFlash_pending (s.setPkg { s.pkg with flash := flashOf flash }) 3
      split
      · next heq => simpa [heq] using h
      · next heq => simpa [heq] using h

@[simp] theorem State.softwareRestart_pending (s : State) (agent : Nat) :
    (s.softwareRestart agent).pending = s.pending := by
  unfold State.softwareRestart
  split <;> simp

/-! ### Sessions (Sessions) -/

@[simp] theorem State.mtrAnswer_pending (s : State) (agent ch ptr result : Nat) (out : List Byte) :
    (s.mtrAnswer agent ch ptr result out).pending = s.pending := by
  unfold State.mtrAnswer
  split <;> simp

@[simp] theorem State.mtrAnswerPending_pending (s : State) (p : Pending) (result : Nat) :
    (s.mtrAnswerPending p result).pending = s.pending := by
  unfold State.mtrAnswerPending
  split <;> simp

@[simp] theorem State.reply_pending (s : State) (r : Request) (result : Nat) : (s.reply r result).pending = s.pending := by
  simp [State.reply]

@[simp] theorem State.mtrRequest_pending (s : State) (op : Nat) {act : State → Request → State}
    (hact : ∀ t r, (act t r).pending = t.pending) : (s.mtrRequest op act).pending = s.pending := by
  unfold State.mtrRequest
  split
  · rfl
  · simp [apply_ite State.pending, hact]

@[simp] theorem State.pendFor_pending (s : State) (r : Request) (p : Pending) : (s.pendFor r p).pending = s.pending := rfl

@[simp] theorem State.underRole_pending (s : State) (r : Request) (roles : List Nat) {act : State → State}
    (hact : ∀ t, (act t).pending = t.pending) : (s.underRole r roles act).pending = s.pending := by
  simp [State.underRole, apply_ite State.pending, hact]

@[simp] theorem State.openRefused_pending (s : State) (r : Request) (role result : Nat) :
    (s.openRefused r role result).pending = s.pending := by
  simp [State.openRefused]

@[simp] theorem State.openSession_pending (s : State) (r : Request) : (s.openSession r).pending = s.pending := by
  unfold State.openSession
  dsimp only
  repeat' split
  all_goals simp

@[simp] theorem State.prove_pending (s : State) (r : Request) : (s.prove r).pending = s.pending := by
  unfold State.prove
  dsimp only
  repeat' split
  all_goals simp

@[simp] theorem State.closeSession_pending (s : State) (r : Request) :
    (s.closeSession r).pending = s.pending := State.underRole_pending _ _ _ (by simp)

@[simp] theorem State.attest_pending (s : State) (r : Request) : (s.attest r).pending = s.pending := by
  unfold State.attest
  split <;> simp

@[simp] theorem State.setSink_pending (s : State) (r : Request) : (s.setSink r).pending = s.pending := by
  unfold State.setSink
  dsimp only
  repeat' split
  all_goals simp

@[simp] theorem State.revokeSerial_pending (s : State) (r : Request) : (s.revokeSerial r).pending = s.pending := by
  unfold State.revokeSerial
  repeat' split
  all_goals simp

@[simp] theorem State.copyLog_pending (s : State) (r : Request) : (s.copyLog r).pending = s.pending := by
  unfold State.copyLog
  dsimp only
  split
  · simp
  · rw [State.reply_pending]
    refine State.foldl_pending (fun t k => ?_) _ _
    split <;> simp

@[simp] theorem State.selfRecal_pending (s : State) (r : Request) : (s.selfRecal r).pending = s.pending := by
  unfold State.selfRecal
  dsimp only
  split <;> simp

@[simp] theorem State.installMeter_pending (s : State) (r : Request) : (s.installMeter r).pending = s.pending := by
  unfold State.installMeter
  dsimp only
  repeat' split
  all_goals simp

/-! ### The logbook (Logbook) -/

@[simp] theorem State.storeEntry_pending (s : State) (p : Pending) : (s.storeEntry p).pending = s.pending := by
  unfold State.storeEntry
  dsimp only
  repeat' split
  all_goals rfl

@[simp] theorem State.applyReg_pending (s : State) (o : Nat) (v : DWord) : (s.applyReg o v).pending = s.pending := by
  unfold State.applyReg
  dsimp only
  repeat' split
  all_goals simp

@[simp] theorem State.applyHold_pending (s : State) (n : Nat) (v : DWord) : (s.applyHold n v).pending = s.pending := by
  unfold State.applyHold
  dsimp only
  repeat' split
  all_goals rfl

@[simp] theorem State.applyBearing_pending (s : State) (v : DWord) : (s.applyBearing v).pending = s.pending := by
  refine State.foldl_pending (fun t a => ?_) _ _
  split <;> simp

@[simp] theorem State.applyDown_pending (s : State) (k : Nat) (v : DWord) : (s.applyDown k v).pending = s.pending := by
  unfold State.applyDown
  dsimp only
  repeat' split
  all_goals simp

@[simp] theorem State.applyRetrain_pending (s : State) (k : Nat) (v : DWord) :
    (s.applyRetrain k v).pending = s.pending := by
  unfold State.applyRetrain
  dsimp only
  split <;> rfl

@[simp] theorem State.applyDetour_pending (s : State) (v : DWord) : (s.applyDetour v).pending = s.pending := rfl

@[simp] theorem State.applyOpen_pending (s : State) (n : Nat) (v : DWord) : (s.applyOpen n v).pending = s.pending := by
  unfold State.applyOpen
  split <;> simp

@[simp] theorem State.applyClose_pending (s : State) (n : Nat) (v : DWord) : (s.applyClose n v).pending = s.pending := by
  unfold State.applyClose
  split <;> simp

@[simp] theorem State.applySettle_pending (s : State) (p : Pending) (n i k : Nat) :
    (s.applySettle p n i k).pending = s.pending := by
  unfold State.applySettle
  split <;> simp

@[simp] theorem State.applySession_pending (s : State) (p : Pending) (agent role : Nat) (serials : List Nat) :
    (s.applySession p agent role serials).pending = s.pending := by
  simp [State.applySession]

@[simp] theorem State.applyRevoke_pending (s : State) (p : Pending) (serial : Nat) :
    (s.applyRevoke p serial).pending = s.pending := by
  simp [State.applyRevoke, State.foldl_pending]

@[simp] theorem State.applyMeterImage_pending (s : State) (p : Pending) (l : List Byte) :
    (s.applyMeterImage p l).pending = s.pending := by
  unfold State.applyMeterImage
  split <;> simp

@[simp] theorem State.applyChange_pending (s : State) (p : Pending) : (s.applyChange p).pending = s.pending := by
  unfold State.applyChange
  split <;> simp

@[simp] theorem State.refuseChange_pending (s : State) (o : Nat) : (s.refuseChange o).pending = s.pending := by
  unfold State.refuseChange
  repeat' split
  all_goals simp

@[simp] theorem State.refuseEntry_pending (s : State) (p : Pending) : (s.refuseEntry p).pending = s.pending := by
  unfold State.refuseEntry
  repeat' split
  all_goals simp

@[simp] theorem State.logbookEntry_pending (s : State) : s.logbookEntry.pending = s.pending := by
  unfold State.logbookEntry
  dsimp only
  repeat' split
  all_goals simp

end Sys2Proof.Machine

/-! Every command answers, and leaves the queue of commands as it is (O2). -/

namespace Sys2Proof.Machine

/-- What the command i does from s: onWf of a state whose queue of commands is the one of s. -/
def State.Answers (s : State) (i : Instr) : Prop := ∃ t, exec i s = onWf i t ∧ t.pending = s.pending

theorem State.Answers.of_issue {i : Instr} {s : State} {p slot op : Nat} {w : DWord} {run : State → Seat → Issued}
    (hi : exec i s = onWf i (s.issue p slot w op run)) (hrun : ∀ u t, (run u t).Queued u) : s.Answers i :=
  ⟨_, hi, State.issue_pending _ _ _ _ _ hrun⟩

/-- Every command answers as onWf does and leaves the queue of commands as it is: by the family of the command, one for
each way the model runs it. -/
theorem State.answers (s : State) (i : Instr) : s.Answers i := by
  cases i
  -- The rows of the four engines, each through issue.
  case iadd | isub | imul | imulh | and | or | xor | shl | shr | icmp | sel | iminmax | fadd | fmul | ffma | fcmp |
      fminmax | fcvt | fsqrt | frcp => exact .of_issue rfl (arith_queued _ _)
  case sadd | ssub | sand | sor | sxor | sshl | sshr | smov => exact .of_issue rfl (scalar_queued _ _)
  case jmp | nop | shfl | vote | movs | movt => exact .of_issue rfl (threadRun_queued _ _)
  case br | joinpt => exact .of_issue rfl (pushRun_queued _ _)
  case exit => exact .of_issue rfl (exitRun_queued _)
  case barb => exact .of_issue rfl (barbRun_queued _)
  case rdsp => exact .of_issue rfl (rdspRun_queued _)
  case sli => exact .of_issue rfl (sliRun_queued _)
  case ldd | std => exact .of_issue rfl (deckRun_queued _)
  case ldf | stf | atomf => exact .of_issue rfl (farRun_queued _)
  case lockg | unlockg => exact .of_issue rfl (lockRun_queued _)
  case mpass => exact .of_issue rfl (mpassRun_queued _)
  case malt => exact .of_issue rfl (maltRun_queued _)
  case mdrain | mzero => exact .of_issue rfl (accRun_queued _)
  case msync => exact .of_issue rfl (msyncRun_queued _)
  case vld | vst | vgath | vscat | vbcast | vperm | vadd | vsub | vmul | vfma | vminmax | vcmp | vsel | vdiv | vsqrt |
      vbit | vmask | vcvt | vcvtl | vdecl | vreblk | vseed | red | rget | vown => exact .of_issue rfl (vectorRun_queued _)
  case tcopy => exact .of_issue rfl (tcopyRun_queued _)
  case twait => exact .of_issue rfl (twaitRun_queued _)
  -- The engines' own steps, blocks and pre-emption.
  case takeDecision | fold | passComplete | veInstructionStart | reductionTake | veOwnerPass | copyTake | copyComplete |
      farResponse | blockPlace | blockEnd | stashReservationGrant | preempt | preemptedWorkResume =>
    exact ⟨_, rfl, by simp⟩
  -- Rings, checks and the commands of a queue.
  case doorbellWrite | entryRead | headerCheck | bodyCheck | progLoad | dispatch | copy | fill | accumulate | update |
      precondRoot | fix | barrier | map | unmap | teardownTimeout | ctxIdFree | commandRetire | slotDrained | publish |
      updatePeerTimeout => exact ⟨_, rfl, by simp⟩
  -- The requests of the administrative queue.
  case ctxCreate | ctxDestroy | queueCreate | queueDestroy | queueResume | fenceCreate | fenceDestroy | fenceReset |
      memCreate | memDestroy | memSettle | revokeOwner => exact ⟨_, rfl, State.request_pending _ _ _ _ (by simp)⟩
  -- Ports, frames and packets.
  case trainingExchange | trainingRetry | frameReceived | laneLossOfLock | retrainComplete | retrainTimeout |
      packetForward | fenceNoticeResend | remoteTimeout => exact ⟨_, rfl, by simp⟩
  case readRequest | readResponse | write | acknowledgement | atomic | atomicResponse | fenceNotice | openNotice =>
    exact ⟨_, rfl, State.serve_pending _ _ _ _ (by simp)⟩
  -- Main memory.
  case channelTrained | rateStepDown | perBankRefresh | refreshRateCheck | patrolScrub | frameMigrated |
      channelRetrainDone | deviceCorrectionRead => exact ⟨_, rfl, by simp⟩
  -- Writes of the register window.
  case helmLimitWrite | passSchedWrite | stashCfgWrite | holdModeWrite | holdOwnerWrite | nvBearingWrite | nvPortCtlDown |
      nvPortCtlRetrain | nvDetourCommit | nvDetourLoad | nvPeerCommit | nvPeerLoad | memChanCtlRetire | memChanCtlRetrain |
      memChanCtlClearRetired | ptnLayoutWrite | ptnOpen | ptnClose | ptnSealWrite | fltRingWrite | fltInjectArm |
      fixRestoreGo | fwCtlGo | pkgPowerOff | pkgPowerOn | setupErrClear | adminqCtlWrite | fenceMirrorWrite |
      hostPoolWrite | registerWrite => exact ⟨_, rfl, State.setupWrite_pending _ _ _ _⟩
  -- Images, counters, mailboxes and the logbook.
  case imageRunning | imageTimeout | counterDataRead | mbxLockRead | mbxMsgWrite | mbxMsgRead | mbxPostDest |
      mbxPostUnlock | logbookEntry | sessionProveTimeout => exact ⟨_, rfl, by simp⟩
  -- The meter's requests.
  case openSession | prove | closeSession | attest | sink | revoke | readLogbook | selfRecalibrate | installMeterImage =>
    exact ⟨_, rfl, State.mtrRequest_pending _ _ (by simp)⟩
  -- The meter, the Helm and its die.
  case meterSample | referenceStrobe | countFrame | meterFrame | channelCompare | intervalEnd | wearBucket |
      helmControlStep | regulatorSettled | thermalTrip => exact ⟨_, rfl, by simp⟩
  case periodicRecalibration | recalibrationDone | helmStep | meterFrames | paceStrobe =>
    exact ⟨_, rfl, by simp [apply_ite State.pending]⟩
  -- Detectors and resets.
  case hang | handshake | resetEntered | resetHang | errorRecordClose | irqGapEnd | jointDown => exact ⟨_, rfl, by simp⟩
  case supplyLow | regulatorFault | qmStall | keeperWatchdog | pcieError =>
    exact ⟨_, rfl, by simp [apply_ite State.pending]⟩
  -- Power and boot.
  case powerOn | railCheck | powerLoss | bootWindowLoad | hostSoftwareRestart | hostBootImageLoaded =>
    exact ⟨_, rfl, by simp⟩
  case railRetry => exact ⟨_, rfl, by simp [apply_ite State.pending]⟩

/-- A command that answers a state has that state's queue. -/
theorem pending_of_exec {i : Instr} {s t : State} (h : exec i s = .next t) : t.pending = s.pending := by
  obtain ⟨u, hu, hpending⟩ := s.answers i
  rw [hu, onWf] at h
  split at h
  · cases h
    exact hpending
  · cases h

/-- Settles O2: each command is run through onWf, and no operation of the model writes the queue of commands. -/
theorem commandsAlwaysAnswer : Obligations.CommandsAlwaysAnswer := by
  unfold Obligations.CommandsAlwaysAnswer
  refine ⟨fun c s => ?_, fun c s t => pending_of_exec⟩
  obtain ⟨t, ht, -⟩ := s.answers c
  exact ⟨fun hwf => ⟨t, by rw [ht, onWf, if_pos hwf]⟩, fun hwf => by simp [ht, onWf, hwf]⟩

end Sys2Proof.Machine

/-! Matrix instructions at issue: the queue each enters, and the holds of MSYNC and TWAIT (O16). -/

namespace Sys2Proof.Machine

/-! ### Into a queue (R138) -/

/-- The array with an instruction behind what waits in its queue: the forward tile queue for an MPASS with KIND 0, the
backward one for any other MPASS and a MALT, the accumulator queue for the rest. -/
def MxArray.push (x : MxArray) (m : MxEntry) : MxArray :=
  if wOp m.w = 0xA0 ∧ fld m.w 26 26 = 0 then { x with fwd := x.fwd ++ [m] }
  else if wOp m.w = 0xA0 ∨ wOp m.w = 0xA1 then { x with bwd := x.bwd ++ [m] }
  else { x with accq := x.accq ++ [m] }

theorem MxArray.push_fwd (x : MxArray) {m : MxEntry} (hop : wOp m.w = 0xA0) (hk : fld m.w 26 26 = 0) :
    x.push m = { x with fwd := x.fwd ++ [m] } := by simp [MxArray.push, hop, hk]

theorem MxArray.push_bwd (x : MxArray) {m : MxEntry} (h : wOp m.w = 0xA0 ∧ fld m.w 26 26 = 1 ∨ wOp m.w = 0xA1) :
    x.push m = { x with bwd := x.bwd ++ [m] } := by
  obtain ⟨hop, hk⟩ | hop := h
  · simp [MxArray.push, hop, hk]
  · simp [MxArray.push, hop]

theorem MxArray.push_accq (x : MxArray) {m : MxEntry} (h : wOp m.w = 0xA2 ∨ wOp m.w = 0xA3) :
    x.push m = { x with accq := x.accq ++ [m] } := by
  obtain hop | hop := h <;> simp [MxArray.push, hop]

/-- Array a of core p becomes x. -/
def State.putArray (s : State) (p a : Nat) (x : MxArray) : State := s.setWork p ((s.work p).setArray a x)

/-- Queueing lets the group go on, and touches its own array alone. -/
theorem State.mxQueue_eq (s : State) (t : Seat) (m : MxEntry) :
    s.mxQueue t m = .done ((s.putGroup t t.g.advance).putArray t.p (mArr m.w)
      ((((s.putGroup t t.g.advance).work t.p).array (mArr m.w)).push m)) := rfl

/-! ### What an accepted instruction does at issue -/

theorem mpassRun_of_accepted {w : DWord} {t : Seat}
    (h : mpassFault w t (t.g.s (fld w 33 28)) (t.g.s (fld w 39 34)) (t.g.s (fld w 45 40)) (t.g.s (fld w 51 46)) = none)
    (s : State) : mpassRun w s t = s.mxQueue t ⟨t.g.stamp, t.slot, t.g.block, w, t.g.s (fld w 33 28), t.g.s (fld w 39 34),
      t.g.s (fld w 45 40), t.g.s (fld w 51 46), 0⟩ := by simp [mpassRun, h]

theorem maltRun_of_accepted {w : DWord} {t : Seat}
    (h : maltFault w t (t.g.s (fld w 24 19)) (t.g.s (fld w 30 25)) (t.g.s (fld w 36 31)) (t.g.s (fld w 42 37))
      (t.g.s (fld w 48 43)) = none)
    (s : State) : maltRun w s t = s.mxQueue t ⟨t.g.stamp, t.slot, t.g.block, w, t.g.s (fld w 24 19), t.g.s (fld w 30 25),
      t.g.s (fld w 36 31), t.g.s (fld w 42 37), t.g.s (fld w 48 43)⟩ := by simp [maltRun, h]

theorem accRun_of_accepted {w : DWord} {t : Seat} (h : accFault w t (t.g.s (fld w 33 28)) (t.g.s (fld w 45 40)) = none)
    (s : State) : accRun w s t =
      s.mxQueue t ⟨t.g.stamp, t.slot, t.g.block, w, t.g.s (fld w 33 28), t.g.s (fld w 45 40), 0, 0, 0⟩ := by
  simp [accRun, h]

theorem msyncRun_holds {w : DWord} {t : Seat} (hc : t.g.converged = true) (hw : fld w 63 11 = 0) (s : State) :
    msyncRun w s t = .done (s.putGroup t
      { t.g.advance with held := .msync (if fld w 10 10 = 1 then 15 else 1 <<< fld w 9 8) t.g.stamp }) := by
  simp [msyncRun, hc, hw, mArr]

theorem msyncRun_illegal {w : DWord} {t : Seat} (hc : t.g.converged = true) (hw : fld w 63 11 ≠ 0) (s : State) :
    msyncRun w s t = .fault 0x0501 := by
  simp [msyncRun, hc, hw, St.illegalInstruction]

theorem moverFault_reserved {w : DWord} {t : Seat} (hc : t.g.converged = true) (hw : fld w 63 11 ≠ 0) :
    moverFault w t [] (fld w 63 11 != 0) = some 0x0501 := by
  simp [moverFault, hc, hw, St.illegalInstruction]

theorem moverFault_none {w : DWord} {t : Seat} (hc : t.g.converged = true) (hw : fld w 63 11 = 0)
    (hop : opReserved (wOp w) = false) : moverFault w t [] (fld w 63 11 != 0) = none := by
  simp [moverFault, hc, hw, hop]

theorem twaitRun_holds {w : DWord} {t : Seat} (hc : t.g.converged = true) (hw : fld w 63 11 = 0)
    (hop : opReserved (wOp w) = false) (s : State) :
    twaitRun w s t = .done (s.putGroup t
      { t.g.advance with held := .twait (if fld w 10 10 = 1 then 15 else 1 <<< fld w 9 8) t.g.stamp }) := by
  simp only [twaitRun, moverFault_none hc hw hop]

theorem twaitRun_illegal {w : DWord} {t : Seat} (hc : t.g.converged = true) (hw : fld w 63 11 ≠ 0) (s : State) :
    twaitRun w s t = .fault 0x0501 := by
  simp only [twaitRun, moverFault_reserved hc hw]

/-! ### The row of a queued instruction -/

theorem State.op_of_issues {s : State} {p slot op : Nat} {w : DWord} {t : Seat} (h : s.issues p slot w op t) : wOp w = op := by
  obtain ⟨-, -, -, -, hop, -⟩ := h
  exact hop

theorem State.seat_of_issues {s : State} {p slot op : Nat} {w : DWord} {t : Seat} (h : s.issues p slot w op t) :
    t.p = p ∧ t.slot = slot := by
  obtain ⟨-, -, hseat, -⟩ := h
  exact State.seat_names hseat

/-- A row whose instruction is queued at issue: its array becomes the array with the entry pushed, where the entry bears the
order of issue, the slot and the block of the group. -/
theorem State.row_queued {i : Instr} {s : State} {p slot op : Nat} {w a b c d e : DWord} {t : Seat} {x : MxArray}
    {run : State → Seat → Issued} (hx : exec i s = onWf i (s.issue p slot w op run))
    (ho : i.operands = [.core p, .groupSlot slot]) (h : s.issues p slot w op t) (hop : opReserved op = false)
    (hrun : run (s.atIssue t) (s.seatAt t) =
      (s.atIssue t).mxQueue (s.seatAt t) ⟨(s.core t.p).seq + 1, t.slot, t.g.block, w, a, b, c, d, e⟩)
    (hpush : ((((s.atIssue t).putGroup (s.seatAt t) (s.seatAt t).g.advance).work p).array (mArr w)).push
      ⟨(s.core p).seq + 1, slot, t.g.block, w, a, b, c, d, e⟩ = x) :
    exec i s = .next (((s.atIssue t).putGroup (s.seatAt t) (s.seatAt t).g.advance).putArray p (mArr w) x) := by
  obtain ⟨rfl, rfl⟩ := State.seat_of_issues h
  subst hpush
  exact State.row_done hx ho h hop (hrun.trans (State.mxQueue_eq _ _ _))

/-- Settles O16: each accepted instruction is queued at issue, and its opcode and KIND choose the queue; MSYNC and TWAIT
write back the group, held. -/
theorem matrixQueues : Obligations.MatrixQueues := by
  unfold Obligations.MatrixQueues
  refine ⟨fun s p slot w t => ⟨fun h hf hk => ?mpassFwd, fun h hf hk => ?mpassBwd, fun h hf => ?malt, fun h hf => ?mdrain,
    fun h hf => ?mzero⟩, fun s p slot w t hact => ?sync⟩
  case mpassFwd =>
    exact State.row_queued rfl rfl h rfl (mpassRun_of_accepted (t := s.seatAt t) hf _)
      (MxArray.push_fwd _ (State.op_of_issues h) hk)
  case mpassBwd =>
    exact State.row_queued rfl rfl h rfl (mpassRun_of_accepted (t := s.seatAt t) hf _)
      (MxArray.push_bwd _ (.inl ⟨State.op_of_issues h, hk⟩))
  case malt =>
    exact State.row_queued rfl rfl h rfl (maltRun_of_accepted (t := s.seatAt t) hf _)
      (MxArray.push_bwd _ (.inr (State.op_of_issues h)))
  case mdrain =>
    exact State.row_queued rfl rfl h rfl (accRun_of_accepted (t := s.seatAt t) hf _)
      (MxArray.push_accq _ (.inl (State.op_of_issues h)))
  case mzero =>
    exact State.row_queued rfl rfl h rfl (accRun_of_accepted (t := s.seatAt t) hf _)
      (MxArray.push_accq _ (.inr (State.op_of_issues h)))
  case sync =>
    have hc : (s.seatAt t).g.converged = true := beq_iff_eq.mpr hact
    refine ⟨fun h hw => ?_, fun h hw => ?_, fun h hw => ?_, fun h hw => ?_⟩
    · obtain ⟨rfl, -⟩ := State.seat_of_issues h
      exact State.row_done rfl rfl h rfl (msyncRun_holds hc hw _)
    · obtain ⟨rfl, -⟩ := State.seat_of_issues h
      have hop : opReserved (wOp w) = false := by rw [State.op_of_issues h]; rfl
      exact State.row_done rfl rfl h rfl (twaitRun_holds hc hw hop _)
    · exact State.row_fault rfl rfl h rfl (msyncRun_illegal hc hw _)
    · exact State.row_fault rfl rfl h rfl (twaitRun_illegal hc hw _)

end Sys2Proof.Machine

/-! Arrays, decks and accumulator entries read through an operation: what the fold of a row and the rows of a drain need. -/

namespace Sys2Proof.Machine

/-! ### Tables -/

/-- Reading a table cut down to the numbers that pass a test. -/
theorem Tab.get_filter {α : Type} (f : Nat → Bool) (t : Table α) (k : Nat) (d : α) :
    Tab.get (t.filter (fun e => f e.1)) k d = if f k then Tab.get t k d else d := by
  unfold Tab.get
  rw [Tab.get?_filter]
  split <;> rfl

section
variable {α β : Type} (key : β → Nat) (val : β → α) (inc : β → Nat)

/-- A fold that writes an entry for each item of a list leaves the entries it does not write. -/
theorem Tab.get_foldl_set_other {j : Nat} (d : α) {l : List β} (h : ∀ e ∈ l, j ≠ key e) (x : Table α × Nat) :
    Tab.get (l.foldl (fun x e => (Tab.set x.1 (key e) (val e), x.2 + inc e)) x).1 j d = Tab.get x.1 j d := by
  induction l generalizing x with
  | nil => rfl
  | cons b l ih =>
    rw [List.forall_mem_cons] at h
    rw [List.foldl_cons, ih h.2, Tab.get_set_other _ _ h.1]

/-- The same fold, each item of the list under a number of its own: it writes the value of each. -/
theorem Tab.get_foldl_set {d : α} {l : List β} (h : (l.map key).Nodup) {e : β} (he : e ∈ l) (x : Table α × Nat) :
    Tab.get (l.foldl (fun x e => (Tab.set x.1 (key e) (val e), x.2 + inc e)) x).1 (key e) d = val e := by
  induction l generalizing x with
  | nil => simp at he
  | cons b l ih =>
    rw [List.map_cons, List.nodup_cons] at h
    obtain ⟨hb, hl⟩ := h
    rcases List.mem_cons.mp he with rfl | he
    · have hother : ∀ c ∈ l, key e ≠ key c := fun c hc heq => hb (heq ▸ List.mem_map_of_mem hc)
      rw [List.foldl_cons, Tab.get_foldl_set_other key val inc d hother, Tab.get_set_same]
    · exact ih hl he _

end

/-! ### The work of a core -/

theorem Work.array_setArray (w : Work) (a b : Nat) (x : MxArray) :
    (w.setArray a x).array b = if b = a then x else w.array b := Tab.get_set _ _ _ _ _

@[simp] theorem Work.array_setArray_same (w : Work) (a : Nat) (x : MxArray) : (w.setArray a x).array a = x := by
  simp [Work.array_setArray]

@[simp] theorem Work.deck_setArray (w : Work) (a : Nat) (x : MxArray) : (w.setArray a x).deck = w.deck := rfl

@[simp] theorem State.work_activity (s : State) (die : Nat) (c : List CtxId) (units p : Nat) :
    (s.activity die c units).work p = s.work p := by cases c <;> rfl

@[simp] theorem State.work_deckUnits (s : State) (q : Nat) (c : CtxId) (rows p : Nat) :
    (s.deckUnits q c rows).work p = s.work p := State.work_activity _ _ _ _ _

/-! ### Bytes of main memory -/

@[simp] theorem State.byteAt_setWork (s : State) (p : Nat) (w : Work) (pl : Place) :
    (s.setWork p w).byteAt pl = s.byteAt pl := by cases pl <;> rfl

@[simp] theorem State.byteAt_count (s : State) (p i k : Nat) (pl : Place) : (s.count p i k).byteAt pl = s.byteAt pl := by
  cases pl <;> rfl

@[simp] theorem State.byteAt_activity (s : State) (die : Nat) (c : List CtxId) (units : Nat) (pl : Place) :
    (s.activity die c units).byteAt pl = s.byteAt pl := by cases c <;> cases pl <;> rfl

/-! ### The steps of an array -/

theorem ok_array {p a : Nat} (hp : p < 192) (ha : a < 4) :
    Operand.ok (.core p) = true ∧ Operand.ok (.array a) = true := by
  simp [Operand.ok, hp, ha]

theorem exec_fold {p a : Nat} (hp : p < 192) (ha : a < 4) (s : State) : exec (.fold p a) s = .next (s.fold p a) :=
  onWf_next (by simp [Instr.wf, Instr.operands, ok_array hp ha])

theorem exec_passComplete {p a : Nat} (hp : p < 192) (ha : a < 4) (s : State) :
    exec (.passComplete p a) s = .next (s.passComplete p a) :=
  onWf_next (by simp [Instr.wf, Instr.operands, ok_array hp ha])

end Sys2Proof.Machine

/-! One fold: the products, the block sums, and the accumulator entries of a stream row (O20). -/

namespace Sys2Proof.Machine

/-! ### Products and block sums (R108, R109) -/

theorem product_zeroCode {f : LF} {x w : Nat} (h : x % (f.cmax + 1) = 0 ∨ w % (f.cmax + 1) = 0) : product f x w = 0 := by
  simp [product, h]

/-- The product of two elements whose codes are not zero: e and r are the quotient and the remainder of minus the codes'
distances from the top by the codes of an octave. -/
theorem product_exact {f : LF} {x w : Nat} (hk : 0 < f.k) (hx : x % (f.cmax + 1) ≠ 0) (hw : w % (f.cmax + 1) ≠ 0) :
    ∃ (e : Int) (r : Nat), (r : Int) = -((f.cmax - x % (f.cmax + 1) + (f.cmax - w % (f.cmax + 1)) : Nat) : Int) - e * f.k ∧
      r < f.k ∧ product f x w = (if bit x (f.width - 1) = bit w (f.width - 1) then 1 else -1) *
        (if 0 ≤ e + 33 then ((mTab (r * (256 / f.k)) * 2 ^ (e + 33).toNat : Nat) : Int)
         else ((mTab (r * (256 / f.k)) / 2 ^ (-(e + 33)).toNat : Nat) : Int)) := by
  obtain ⟨d, hd⟩ : ∃ d : Nat, d = f.cmax - x % (f.cmax + 1) + (f.cmax - w % (f.cmax + 1)) := ⟨_, rfl⟩
  have hk' : (0 : Int) < f.k := Int.natCast_pos.mpr hk
  have hfdiv : Int.fdiv (-(d : Int)) f.k = -(d : Int) / f.k := Int.fdiv_eq_ediv_of_nonneg _ (Int.le_of_lt hk')
  have hdiv := Int.mul_ediv_add_emod (-(d : Int)) f.k
  have hpos := Int.emod_nonneg (-(d : Int)) (Int.ne_of_gt hk')
  have hlt := Int.emod_lt_of_pos (-(d : Int)) hk'
  rw [Int.mul_comm] at hdiv
  refine ⟨-(d : Int) / f.k, (-(d : Int) - -(d : Int) / f.k * f.k).toNat, ?_, ?_, ?_⟩
  · rw [← hd]
    omega
  · omega
  · simp only [product, hx, hw, or_self, if_false, ← hd, hfdiv]
    by_cases hs : bit x (f.width - 1) = bit w (f.width - 1)
    · rw [if_neg (by simp only [hs, bne_self_eq_false, Bool.false_eq_true, not_false_eq_true]), if_pos hs, Int.one_mul]
      exact apply_ite Nat.cast _ _ _
    · rw [if_pos (bne_iff_ne.mpr hs), if_neg hs, Int.neg_mul, Int.one_mul]
      exact congrArg Neg.neg (apply_ite Nat.cast _ _ _)

theorem blockSum_eq_sum (f : LF) (xs ws : List Nat) : blockSum f xs ws = (List.zipWith (product f) xs ws).sum :=
  List.sum_eq_foldl.symm

/-! ### The entries of a row (R111, R112) -/

/-- The columns of a pass by number. -/
def SubPass.numbered (u : SubPass) : List (Nat × Column) := (List.range u.cols.length).zip u.cols

theorem SubPass.mem_numbered {u : SubPass} {n : Nat} {c : Column} : (n, c) ∈ u.numbered ↔ u.cols[n]? = some c := by
  simp only [SubPass.numbered, List.mem_iff_getElem?, List.getElem?_zip_eq_some]
  constructor
  · rintro ⟨i, hi, hc⟩
    obtain ⟨-, rfl⟩ := List.getElem?_eq_some_iff.mp hi
    simpa using hc
  · intro h
    obtain ⟨hn, -⟩ := List.getElem?_eq_some_iff.mp h
    exact ⟨n, by simp [hn], h⟩

theorem SubPass.nodup_entries (u : SubPass) (r : StreamRow) : (u.numbered.map (fun nc => u.entryOf r nc.1)).Nodup := by
  have hfst : u.numbered.map Prod.fst = List.range u.cols.length := List.map_fst_zip (by simp)
  rw [show (fun nc : Nat × Column => u.entryOf r nc.1) = u.entryOf r ∘ Prod.fst from rfl, ← List.map_map, hfst]
  exact List.Pairwise.map _ (fun i j hij h => hij (Nat.add_left_cancel h)) List.nodup_range

/-- The entry of a column takes the fold of the row and the column onto its old value. -/
theorem SubPass.foldRow_entry {u : SubPass} {n : Nat} {c : Column} (h : u.cols[n]? = some c) (r : StreamRow)
    (acc : Table Word) :
    Tab.get (u.foldRow r acc).1 (u.entryOf r n) 0 = u.foldEntry r c (Tab.get acc (u.entryOf r n) 0) :=
  Tab.get_foldl_set (fun nc : Nat × Column => u.entryOf r nc.1) _ _ (u.nodup_entries r) (SubPass.mem_numbered.mpr h) (acc, 0)

/-- No entry but those of the row's columns changes. -/
theorem SubPass.foldRow_other {u : SubPass} {r : StreamRow} {k : Nat} (h : ∀ n, n < u.cols.length → k ≠ u.entryOf r n)
    (acc : Table Word) : Tab.get (u.foldRow r acc).1 k 0 = Tab.get acc k 0 := by
  refine Tab.get_foldl_set_other (fun nc : Nat × Column => u.entryOf r nc.1) _ _ 0 (l := u.numbered) ?_ (acc, 0)
  rintro ⟨n, c⟩ hmem
  obtain ⟨hn, -⟩ := List.getElem?_eq_some_iff.mp (SubPass.mem_numbered.mp hmem)
  exact h n hn

/-! ### The array after a fold (R117) -/

/-- The array once the row r of the pass u has streamed, subs being the passes then left of the entry t. -/
def MxArray.streamed (x : MxArray) (t : Taken) (rest : List Taken) (u : SubPass) (r : StreamRow) (subs : List SubPass) :
    MxArray :=
  ({ x.front u with
      acc := ({ u with cols := x.weights u }.foldRow r x.acc).1, taken := { t with subs := subs } :: rest } : MxArray).load

@[simp] theorem MxArray.load_taken (x : MxArray) : x.load.taken = x.taken := by unfold MxArray.load; split <;> rfl
@[simp] theorem MxArray.load_acc (x : MxArray) : x.load.acc = x.acc := by unfold MxArray.load; split <;> rfl
@[simp] theorem MxArray.load_active (x : MxArray) : x.load.active = x.active := by unfold MxArray.load; split <;> rfl

/-- Behind the front, the active weights are those that the row used. -/
@[simp] theorem MxArray.front_active (x : MxArray) (u : SubPass) : (x.front u).active = x.weights u := by
  unfold MxArray.front MxArray.weights
  split <;> rfl

/-- A fold streams the next row; beside the array it counts, and stores no byte. -/
theorem State.fold_streams {s : State} {p a : Nat} {t : Taken} {rest : List Taken} {u : SubPass} {r : StreamRow}
    {subs : List SubPass} (ht : ((s.work p).array a).taken = t :: rest) (hn : nextRow t.subs = some (u, r, subs)) :
    ((s.fold p a).work p).array a = ((s.work p).array a).streamed t rest u r subs ∧
      ∀ pl, (s.fold p a).byteAt pl = s.byteAt pl := by
  simp only [State.fold, ht, hn]
  split <;> simp [MxArray.streamed]

/-- Settles O20: a fold streams the row, and the row's columns fold into entries of their own. -/
theorem folds : Obligations.Folds := by
  unfold Obligations.Folds
  refine ⟨fun s p a t rest u r subs hp ha ht hn => ?_, fun f x w hk => ⟨product_zeroCode, product_exact hk⟩⟩
  obtain ⟨harray, hbytes⟩ := State.fold_streams ht hn
  refine fun _ => ⟨_, exec_fold hp ha s, ?_, ?_, fun n c hc => ?_, fun k hk => ?_, hbytes⟩
  · simp [harray, MxArray.streamed]
  · simp [harray, MxArray.streamed, MxArray.weights]
  · rw [harray, MxArray.streamed, MxArray.load_acc]
    refine (SubPass.foldRow_entry (u := { u with cols := ((s.work p).array a).weights u }) hc r _).trans ?_
    simp only [SubPass.foldEntry, blockSum_eq_sum, SubPass.entryOf]
  · rw [harray, MxArray.streamed, MxArray.load_acc]
    exact SubPass.foldRow_other (u := { u with cols := ((s.work p).array a).weights u }) hk _

end Sys2Proof.Machine

/-! Passes that complete, and what an MDRAIN or MZERO writes to the deck and the accumulators (O21). -/

namespace Sys2Proof.Machine

/-! ### Rows of bytes written one after another -/

/-- Each item's bytes written at its address. -/
def Mem.writeRows {α : Type} (addr : α → Nat) (data : α → List Byte) (d : Memory) (l : List α) : Memory :=
  l.foldl (fun d e => Mem.writeBytes d (addr e) (data e)) d

section
variable {α : Type} {addr : α → Nat} {data : α → List Byte}

/-- A byte outside every row stays. -/
theorem Mem.read_writeRows_outside {b : Nat} {l : List α}
    (h : ∀ e ∈ l, b < addr e ∨ addr e + (data e).length ≤ b) {d : Memory} (hd : Mem.wf d) :
    Mem.read (Mem.writeRows addr data d l) b = Mem.read d b := by
  induction l generalizing d with
  | nil => rfl
  | cons e l ih =>
    rw [List.forall_mem_cons] at h
    exact (ih h.2 (Mem.writeBytes_wf hd _ _)).trans ((Mem.read_writeBytes hd _ _ _).trans (if_neg (by omega)))

/-- A byte of a row is the row's where the rows lie one behind the other. -/
theorem Mem.read_writeRows_row {l : List α} (hl : l.Pairwise (fun e f => addr e + (data e).length ≤ addr f)) {e : α}
    (he : e ∈ l) {i : Nat} (hi : i < (data e).length) {d : Memory} (hd : Mem.wf d) :
    Mem.read (Mem.writeRows addr data d l) (addr e + i) = ((data e)[i]?).getD 0 := by
  induction l generalizing d with
  | nil => simp at he
  | cons f l ih =>
    rw [List.pairwise_cons] at hl
    obtain ⟨hf, hl⟩ := hl
    have hd' := Mem.writeBytes_wf hd (addr f) (data f)
    rcases List.mem_cons.mp he with rfl | he
    · have houtside : ∀ g ∈ l, addr e + i < addr g ∨ addr g + (data g).length ≤ addr e + i := fun g hg => by
        have := hf g hg
        omega
      refine (Mem.read_writeRows_outside houtside hd').trans ?_
      rw [Mem.read_writeBytes hd, if_pos (by omega), Nat.add_sub_cancel_left]
    · exact ih hl he hd'

end

/-- The length of a concatenation of parts of one length. -/
theorem length_flatMap_parts {α β : Type} {f : α → List β} {c : Nat} (hf : ∀ a, (f a).length = c) (l : List α) :
    (l.flatMap f).length = c * l.length := by
  induction l with
  | nil => rfl
  | cons a l ih => rw [List.flatMap_cons, List.length_append, hf, ih, List.length_cons, Nat.mul_succ, Nat.add_comm]

/-- An item of a concatenation of parts of one length. -/
theorem getElem?_flatMap_parts {α β : Type} {f : α → List β} {c : Nat} (hf : ∀ a, (f a).length = c) (l : List α) (n : Nat)
    {i : Nat} (hi : i < c) : (l.flatMap f)[c * n + i]? = l[n]?.bind (fun a => (f a)[i]?) := by
  induction l generalizing n with
  | nil => simp
  | cons a l ih =>
    cases n with
    | zero => simp [List.getElem?_append_left (hf a ▸ hi : i < (f a).length)]
    | succ n =>
      have hle : (f a).length ≤ c * (n + 1) + i := by
        rw [hf, Nat.mul_succ]
        omega
      have hsub : c * (n + 1) + i - (f a).length = c * n + i := by
        rw [hf, Nat.mul_succ]
        omega
      rw [List.flatMap_cons, List.getElem?_append_right hle, hsub, ih, List.getElem?_cons_succ]

/-! ### The deck of a core -/

@[simp] theorem State.work_corrupt (s : State) (dets : List Nat) (target key p : Nat) :
    (s.corrupt dets target key).work p = s.work p := by
  unfold State.corrupt
  split <;> rfl

/-- A write of deck bytes changes the core's deck alone of its work. -/
theorem State.work_deckPut (s : State) (p a : Nat) (bs : List Byte) :
    (s.deckPut p a bs).work p = { s.work p with deck := Mem.writeBytes (s.work p).deck a bs } := by
  unfold State.deckPut
  split
  · next h => rw [List.eq_nil_of_length_eq_zero h]; rfl
  · rw [State.work_corrupt]
    exact State.work_setWork_same _ _ _

theorem State.work_foldl_deckPut {α : Type} (addr : α → Nat) (data : α → List Byte) (p : Nat) (l : List α) (s : State) :
    (l.foldl (fun t e => t.deckPut p (addr e) (data e)) s).work p =
      { s.work p with deck := Mem.writeRows addr data (s.work p).deck l } := by
  induction l generalizing s with
  | nil => rfl
  | cons e l ih =>
    rw [List.foldl_cons, ih, State.work_deckPut]
    rfl

/-- The deck of every core has the canonical form where every memory has. -/
theorem State.deck_wf {s : State} (h : s.memWf) (p : Nat) : Mem.wf (s.work p).deck := by
  obtain ⟨-, -, -, hcores, -⟩ := h
  show Mem.wf ((Tab.get? s.cores p).getD Core.reset).work.deck
  cases hp : Tab.get? s.cores p with
  | none => exact Mem.nil_wf
  | some c => exact (hcores (p, c) (Tab.mem_of_get? hp)).1

/-! ### The rows of an MDRAIN or MZERO (R133, R134) -/

/-- The entry of the accumulators that holds column n of row r of an MDRAIN or MZERO. -/
def MxEntry.accEntry (m : MxEntry) (r n : Nat) : Nat :=
  32768 * fld m.w 22 22 + 64 * prodP (dFmt m.w) * (exAcc m.opB + r) + n

/-- The entries of row r. -/
def MxEntry.accRow (m : MxEntry) (r : Nat) : List Nat := (List.range (exNv m.opB)).map (m.accEntry r)

/-- The deck address that row r is drained to. -/
def MxEntry.drainAddr (m : MxEntry) (r : Nat) : Nat := opData m.opA + r * opPitch m.opA

/-- The bytes of row r as binary32. -/
def MxEntry.drainBytes (m : MxEntry) (acc : Table Word) (r : Nat) : List Byte :=
  (m.accRow r).flatMap (fun k => natLe 4 (Tab.get acc k 0).toNat)

/-- The deck with every row drained to it. -/
def MxEntry.drained (m : MxEntry) (acc : Table Word) (d : Memory) : Memory :=
  Mem.writeRows m.drainAddr (m.drainBytes acc) d (List.range (exRows m.opB))

theorem accEntries_eq (m : MxEntry) : accEntries m = (List.range (exRows m.opB)).map (fun r => (r, m.accRow r)) := rfl

/-- The entries of all rows. -/
theorem mem_accEntries {m : MxEntry} {k : Nat} :
    k ∈ (accEntries m).flatMap (·.2) ↔ ∃ r n, r < exRows m.opB ∧ n < exNv m.opB ∧ k = m.accEntry r n := by
  simp only [accEntries_eq, List.flatMap_map, List.mem_flatMap, MxEntry.accRow, List.mem_map, List.mem_range]
  constructor
  · rintro ⟨r, hr, n, hn, rfl⟩
    exact ⟨r, n, hr, hn, rfl⟩
  · rintro ⟨r, n, hr, hn, rfl⟩
    exact ⟨r, hr, n, hn, rfl⟩

@[simp] theorem MxEntry.length_drainBytes (m : MxEntry) (acc : Table Word) (r : Nat) :
    (m.drainBytes acc r).length = 4 * exNv m.opB := by
  rw [MxEntry.drainBytes, length_flatMap_parts (fun _ => natLe_length _ _), MxEntry.accRow, List.length_map, List.length_range]

theorem MxEntry.drainBytes_column {m : MxEntry} {n i : Nat} (hn : n < exNv m.opB) (hi : i < 4) (acc : Table Word) (r : Nat) :
    (m.drainBytes acc r)[4 * n + i]? = (natLe 4 (Tab.get acc (m.accEntry r n) 0).toNat)[i]? := by
  unfold MxEntry.drainBytes MxEntry.accRow
  rw [getElem?_flatMap_parts (fun _ => natLe_length _ _) _ _ hi]
  simp [hn]

/-- Rows no longer than the pitch lie one behind the other. -/
theorem MxEntry.drainAddr_pairwise {m : MxEntry} (h : 4 * exNv m.opB ≤ opPitch m.opA) (acc : Table Word) (k : Nat) :
    (List.range k).Pairwise (fun q r => m.drainAddr q + (m.drainBytes acc q).length ≤ m.drainAddr r) := by
  refine List.pairwise_lt_range.imp (fun {q r} hqr => ?_)
  have hstep : (q + 1) * opPitch m.opA ≤ r * opPitch m.opA := Nat.mul_le_mul_right _ hqr
  rw [Nat.succ_mul] at hstep
  simp only [MxEntry.length_drainBytes, MxEntry.drainAddr]
  omega

/-- Column n of row r stands in the deck drained to. -/
theorem MxEntry.bytes_drained {m : MxEntry} (h : 4 * exNv m.opB ≤ opPitch m.opA) {r n : Nat} (hr : r < exRows m.opB)
    (hn : n < exNv m.opB) (acc : Table Word) {d : Memory} (hd : Mem.wf d) :
    Mem.bytes (m.drained acc d) (m.drainAddr r + 4 * n) 4 = natLe 4 (Tab.get acc (m.accEntry r n) 0).toNat := by
  refine List.ext_getElem (by simp [Mem.bytes]) (fun i hi hi' => ?_)
  have hi4 : i < 4 := by simpa using hi'
  have hlt : 4 * n + i < (m.drainBytes acc r).length := by
    rw [MxEntry.length_drainBytes]
    omega
  have hread := Mem.read_writeRows_row (MxEntry.drainAddr_pairwise h acc _) (List.mem_range.mpr hr) hlt hd
  rw [MxEntry.drainBytes_column hn hi4, List.getElem?_eq_getElem hi', Option.getD_some] at hread
  simpa [Mem.bytes, MxEntry.drained, Nat.add_assoc] using hread

/-- A byte outside every row drained stays. -/
theorem MxEntry.read_drained_outside {m : MxEntry} {b : Nat}
    (h : ∀ r, r < exRows m.opB → b < m.drainAddr r ∨ m.drainAddr r + 4 * exNv m.opB ≤ b) (acc : Table Word) {d : Memory}
    (hd : Mem.wf d) : Mem.read (m.drained acc d) b = Mem.read d b :=
  Mem.read_writeRows_outside (fun r hr => by simpa using h r (List.mem_range.mp hr)) hd

/-! ### The head of the accumulator queue (R134, R139 to R141) -/

/-- Whether an MDRAIN or MZERO clears its entries. -/
def MxEntry.clears (m : MxEntry) : Bool := wOp m.w != 0xA2 || fld m.w 23 23 == 1

/-- The entries that an MDRAIN or MZERO leaves. -/
def MxEntry.kept (m : MxEntry) (acc : Table Word) : Table Word :=
  if m.clears then acc.filter (fun e => !((accEntries m).flatMap (·.2)).contains e.1) else acc

/-- The state once an MDRAIN has written its rows to the deck of core p; an MZERO writes none. -/
def State.drainAcc (s : State) (p : Nat) (m : MxEntry) (acc : Table Word) : State :=
  if wOp m.w == 0xA2 then (accEntries m).foldl (fun t e =>
    t.deckPut p (m.drainAddr e.1) (e.2.flatMap (fun k => natLe 4 (Tab.get acc k 0).toNat))) s
  else s

theorem State.work_drainAcc (s : State) (p : Nat) (m : MxEntry) (acc : Table Word) :
    (s.drainAcc p m acc).work p =
      { s.work p with deck := if wOp m.w = 0xA2 then m.drained acc (s.work p).deck else (s.work p).deck } := by
  unfold State.drainAcc
  by_cases hop : wOp m.w = 0xA2
  · rw [if_pos (beq_iff_eq.mpr hop), if_pos hop, State.work_foldl_deckPut, accEntries_eq]
    exact congrArg (fun d => { s.work p with deck := d }) List.foldl_map
  · rw [if_neg (mt beq_iff_eq.mp hop), if_neg hop]

/-- Running an MDRAIN or MZERO drains, then clears. -/
theorem State.runAcc_eq (s : State) (p a : Nat) (m : MxEntry) :
    s.runAcc p a m =
      let s1 := s.drainAcc p m ((s.work p).array a).acc
      let x1 := (s1.work p).array a
      let gone := (accEntries m).flatMap (·.2)
      if m.clears then s1.putArray p a { x1 with acc := x1.acc.filter (fun e => !gone.contains e.1) } else s1 := rfl

/-- The deck drained to, and the array with the entries that are left. -/
theorem State.work_runAcc (s : State) (p a : Nat) (m : MxEntry) :
    ((s.runAcc p a m).work p).deck =
        (if wOp m.w = 0xA2 then m.drained ((s.work p).array a).acc (s.work p).deck else (s.work p).deck) ∧
      ((s.runAcc p a m).work p).array a = { (s.work p).array a with acc := m.kept ((s.work p).array a).acc } := by
  rw [State.runAcc_eq]
  unfold MxEntry.kept
  cases m.clears with
  | true =>
    simp only [if_true, State.putArray, State.work_setWork_same, Work.array_setArray_same, Work.deck_setArray,
      State.work_drainAcc, true_and]
    rfl
  | false =>
    simp only [Bool.false_eq_true, if_false, State.work_drainAcc, true_and]
    rfl

/-- An entry of the instruction's rows is left at its value, or at +0 where it is cleared. -/
theorem MxEntry.get_kept_row {m : MxEntry} {r n : Nat} (hr : r < exRows m.opB) (hn : n < exNv m.opB) (acc : Table Word) :
    Tab.get (m.kept acc) (m.accEntry r n) 0 = if m.clears then 0 else Tab.get acc (m.accEntry r n) 0 := by
  unfold MxEntry.kept
  by_cases hc : m.clears = true
  · rw [if_pos hc, if_pos hc, Tab.get_filter (fun k => !((accEntries m).flatMap (·.2)).contains k), if_neg]
    simpa using mem_accEntries.mpr ⟨r, n, hr, hn, rfl⟩
  · rw [if_neg hc, if_neg hc]

/-- Every other entry stays. -/
theorem MxEntry.get_kept_other {m : MxEntry} {k : Nat}
    (h : ∀ r n, r < exRows m.opB → n < exNv m.opB → k ≠ m.accEntry r n) (acc : Table Word) :
    Tab.get (m.kept acc) k 0 = Tab.get acc k 0 := by
  unfold MxEntry.kept
  by_cases hc : m.clears = true
  · have hk : k ∉ (accEntries m).flatMap (·.2) := fun hmem => by
      obtain ⟨r, n, hr, hn, heq⟩ := mem_accEntries.mp hmem
      exact h r n hr hn heq
    rw [if_pos hc, Tab.get_filter (fun k => !((accEntries m).flatMap (·.2)).contains k), if_pos (by simpa using hk)]
  · rw [if_neg hc]

/-! ### PASS_COMPLETE -/

/-- The earliest pass taken completes once it has no row left. -/
theorem State.passComplete_taken {s : State} {p a : Nat} {t : Taken} {rest : List Taken}
    (ht : ((s.work p).array a).taken = t :: rest) (hn : (nextRow t.subs).isNone = true) :
    s.passComplete p a = (s.putArray p a { (s.work p).array a with taken := rest }).pumpAll p := by
  simp only [State.passComplete, ht, hn, if_true]
  rfl

/-- The state with rest left in the accumulator queue of array a of core p. -/
def State.popAcc (s : State) (p a : Nat) (rest : List MxEntry) : State :=
  s.putArray p a { (s.work p).array a with accq := rest }

theorem State.work_popAcc (s : State) (p a : Nat) (rest : List MxEntry) :
    (s.popAcc p a rest).work p = (s.work p).setArray a { (s.work p).array a with accq := rest } :=
  State.work_setWork_same _ _ _

/-- With no pass taken, the head of the accumulator queue that nothing holds back leaves the queue and runs. -/
theorem State.passComplete_head {s : State} {p a : Nat} {m : MxEntry} {rest : List MxEntry} (hrun : (s.core p).running = true)
    (ht : ((s.work p).array a).taken = []) (hq : ((s.work p).array a).accq = m :: rest)
    (hb : (s.work p).blocked m.stamp m.envs = false) (hw : ((s.work p).array a).waits m = false) :
    ∃ v : State, s.passComplete p a = v.pumpAll p ∧
      (v.work p).deck =
        (if wOp m.w = 0xA2 then m.drained ((s.work p).array a).acc (s.work p).deck else (s.work p).deck) ∧
      (v.work p).array a =
        { (s.work p).array a with accq := rest, acc := m.kept ((s.work p).array a).acc } := by
  have hran := State.work_runAcc (s.popAcc p a rest) p a m
  rw [State.work_popAcc, Work.array_setArray_same, Work.deck_setArray] at hran
  unfold State.passComplete
  dsimp only
  split
  case h_1 htaken => simp [ht] at htaken
  split
  case h_1 hqueue => simp [hq] at hqueue
  next head tail hqueue =>
    obtain ⟨rfl, rfl⟩ := List.cons.inj (hq.symm.trans hqueue)
    rw [if_neg (by simp [hrun, hb, hw])]
    refine ⟨_, rfl, ?_⟩
    split
    · exact hran
    · rw [State.work_deckUnits]
      exact hran

/-- Settles O21: a pass without rows leaves the passes taken; the head of the accumulator queue drains row by row into
stretches of the deck that do not meet, then its entries are cleared. -/
theorem passesAndDrains : Obligations.PassesAndDrains := by
  unfold Obligations.PassesAndDrains
  refine ⟨fun s p a t rest hp ha ht hn => ?pass, fun s p a m rest hp ha hmem hrun => ?drain⟩
  case pass =>
    refine ⟨_, (exec_passComplete hp ha s).trans (congrArg _ (State.passComplete_taken ht hn)), ?_, fun c hc => ?_, rfl⟩
    · simp [State.putArray]
    · simp [State.putArray, Work.array_setArray, hc]
  case drain =>
    intro x w base width at_ rows nv ht hq hb hw _ hop hpitch
    obtain ⟨v, hv, hdeck, harray⟩ := State.passComplete_head hrun ht hq hb hw
    have hd := State.deck_wf hmem p
    have hclears : m.clears = true ↔ wOp m.w = 0xA3 ∨ fld m.w 23 23 = 1 := by
      obtain hop | hop := hop <;> simp [MxEntry.clears, hop]
    refine ⟨v, (exec_passComplete hp ha s).trans (congrArg _ hv), ?_⟩
    rw [harray]
    refine ⟨rfl, rfl, rfl, ht, fun r n hr hn => ?_, fun k hk => ?_, fun hdrain r n hr hn => ?_, fun b hout => ?_⟩
    · exact (MxEntry.get_kept_row hr hn _).trans (by simp only [hclears]; rfl)
    · exact MxEntry.get_kept_other hk _
    · rw [State.deckBytes, hdeck, if_pos hdrain]
      exact MxEntry.bytes_drained (hpitch hdrain) hr hn _ hd
    · have hread : Mem.read (v.work p).deck b = Mem.read (s.work p).deck b := by
        rw [hdeck]
        split
        · next hdrain => exact MxEntry.read_drained_outside (hout hdrain) _ hd
        · rfl
      simp [State.deckBytes, Mem.bytes, hread]

end Sys2Proof.Machine
